-- ==== Sys2Proof/Word.lean ====
section
/-!
DEFINITION. The word types of the FZ7160 (spec/00_scope.md, R6): registers are 32 bits wide, memory is byte-addressed, device addresses are 48 bits wide.
-/
namespace Sys2Proof

/-- One byte of memory, of a message or of a descriptor. -/
abbrev Byte := BitVec 8

/-- One register word (R6). -/
abbrev Word := BitVec 32

/-- One device address (R6). -/
abbrev Addr := BitVec 48

end Sys2Proof
end

