-- ==== Sys2Proof/Syntax.lean ====
section
/-!
DEFINITION. The commands of the block: one constructor of `Instr` per row of spec/opcode_table.json, with the operands the rule's words make it depend on.
The table gives no operands, so the operands are the model's (log 6).
-/
namespace Sys2Proof

/-- A time domain (R383): A or B. -/
inductive Dom where
  | a | b
  deriving DecidableEq, Repr

/-- A link of the device (R339, R356, R60): fronthaul link l, rhizome port p, or MG. -/
inductive LinkRef where
  | fh (l : Fin 16)
  | rz (p : Fin 4)
  | mg
  deriving DecidableEq, Repr

/-- The element types of a vector instruction (R174). -/
inductive VType where
  | int8 | int16 | int32 | fp16 | bf16 | fp32
  deriving DecidableEq, Repr

/-- The fields of a vector instruction word beside OP (R174). -/
structure VecOp where
  ty   : VType
  d    : Fin 8
  a    : Fin 8
  b    : Fin 8
  c    : Fin 8
  msel : Fin 4
  minv : Bool
  imm  : Byte
  deriving DecidableEq, Repr

/-- One enabled move slot of a signal-core instruction (R187). -/
structure MoveSlot where
  store : Bool
  quad  : Fin 4
  ptr   : Fin 8
  modif : Fin 8
  size  : Fin 4
  deriving DecidableEq, Repr

/-- The signal core an instruction runs on: frond and core number (R185). -/
structure CoreRef where
  f : Fin 6
  c : Fin 8
  deriving DecidableEq, Repr

/-- A management request as it arrives at MG: VER, SEQ and the payload, whose length is LEN (R60). -/
structure MgReq where
  ver     : Byte
  seq     : Word
  payload : List Byte
  deriving DecidableEq, Repr

/-- Where a DEBUG_UNLOCK request comes from (R445): MG or the JTAG mailbox. -/
inductive DbgVia where
  | mg | jtag
  deriving DecidableEq, Repr

/-- A register access: the SOURCE code of the agent (R34), the address and the bytes it covers (R29: 4 when it is a word). -/
structure RegAcc where
  agent : Byte
  addr  : Addr
  width : Nat
  deriving DecidableEq, Repr

/-- A debug access over the JTAG debug access port (R448). -/
inductive DbgAcc where
  | read (addr : Addr) (len : Nat)
  | write (addr : Addr) (bytes : List Byte)
  | regWrite (addr : Addr) (val : Word)
  | halt (ctl : Fin 7)
  | resume (ctl : Fin 7)
  | secKeyRam
  | fuseTest
  deriving DecidableEq, Repr

/-- What puts an item into a crossing's queue: the thresher or a signal-core mover, which the lane-to-fabric crossing takes in alternation (R241), or anything else. -/
inductive XqSrc where
  | thresher
  | mover
  | other
  deriving DecidableEq, Repr

/-- One queue of one crossing, named as in TEL_XQ_SEL (R27). -/
structure XqRef where
  cross : Fin 9
  inst  : Fin 6
  queue : Fin 4
  deriving DecidableEq, Repr

/-- An island that gates its clocks (R22): array or lane island of a frond, or the fabric island. -/
inductive Island where
  | array (f : Fin 6)
  | lane (f : Fin 6)
  | fabric
  deriving DecidableEq, Repr

/-- One comparison of the tags of a block's mantissas and shift (R158): whether the stationary's feed, the block's number in the pass, and the two tags. -/
structure TagCheck where
  stationary : Bool
  block      : Nat
  dataTag    : BitVec 6
  scaleTag   : BitVec 6
  deriving DecidableEq, Repr

/-- What the array's checkers found during a pass (R95, R158). -/
inductive PassCheck where
  | clean
  | parity (row : Fin 17) (col : Fin 17) (layer : Fin 8) (kind : Fin 4) (testOk : Bool)
  | desync (l : List TagCheck)
  | poison
  deriving DecidableEq, Repr

/-- What the hardware reports of one pass beside its arithmetic: its checks, the empty cycles counted by R93, and the wait cycles counted by R83 and R310. -/
structure PassRep where
  check    : PassCheck
  bubbles  : Nat
  laneWait : Nat
  bankConf : Nat
  deriving DecidableEq, Repr

/-- A RISC-V A-extension operation at the granary (R300). -/
inductive AmoOp where
  | swap | add | xor | and | or | min | max | minu | maxu | lr | sc
  deriving DecidableEq, Repr

/-- A memory bank with a retention state of its own (R304): a granary bank, a leaf-store bank, a signal-core memory. -/
inductive BankRef where
  | granary (b : Fin 1024)
  | leaf (f : Fin 6) (k : Fin 32)
  | sig (f : Fin 6) (c : Fin 8)
  deriving DecidableEq, Repr

/-- The state the ECC check finds a word in (R303). -/
inductive EccState where
  | clean | corrected | uncorrectable
  deriving DecidableEq, Repr

/-- What a controller's access to the granary meets (R303): the ECC check of the word, with the result of the pattern test that an uncorrectable word asks for; or an uncorrectable line of the controller's own cache on its way, clean or dirty. -/
inductive CtlRead where
  | clean
  | corrected
  | uncorrectable (testOk : Bool)
  | cacheLine (dirty testOk : Bool)
  deriving DecidableEq, Repr

/-- What a transfer met beside its bytes (R143, R144, R303): a source word and the state its check found it in; cycles in which a full pool held its requests. -/
structure XferRep where
  word     : Addr
  ecc      : EccState
  poolHeld : Nat
  deriving DecidableEq, Repr

/-- What a re-tiled layer spills (R153): LAYER, tiles spilled at each K chunk, spilled bytes per step. -/
structure SpillRep where
  layer : BitVec 16
  tiles : Byte
  bytes : Word
  deriving DecidableEq, Repr

/-- A frame from the fronthaul that carries an eCPRI message: link, source address and the bytes after the eCPRI common header, with the payload size that header states (R341, R342). -/
structure FhMsg where
  link : Fin 16
  src  : BitVec 48
  size : Nat
  body : List Byte
  deriving DecidableEq, Repr

/-- A rhizome frame (R357): the header fields and the payload. -/
structure RzFrame where
  port    : Fin 4
  cls     : Byte
  ver     : Byte
  kind    : Byte
  hops    : BitVec 5
  bc      : Bool
  rsv     : Bool
  dst     : BitVec 16
  src     : BitVec 16
  group   : Word
  tag     : Word
  seq     : Word
  payload : List Byte
  deriving DecidableEq, Repr

/-- A location of R416: kind, frond code and index. -/
structure Loc where
  kind  : BitVec 4
  frond : BitVec 4
  index : BitVec 16
  deriving DecidableEq, Repr

/-- A full time: seconds, nanoseconds and the 16-bit fraction (R16). -/
structure FullTime where
  sec  : BitVec 64
  ns   : BitVec 30
  frac : BitVec 16
  deriving DecidableEq, Repr

/-- One graph-assigned granary semaphore pair and its initial counts (R137). -/
structure SemInit where
  sem  : BitVec 11
  full : BitVec 16
  free : BitVec 16
  deriving DecidableEq, Repr

/-- One tensor record of a frond (R141). -/
structure TensorInit where
  frond : Fin 6
  recNo : Fin 64
  w0    : Word
  w1    : Word
  w2    : Word
  w3    : Word
  deriving DecidableEq, Repr

/-- One pilot pattern of the stream graph section (R206): per pattern layer the subcarriers of the carrier that carry its pilot, and the subcarriers left empty. -/
structure PilotPattern where
  ppat   : BitVec 4
  layers : List (List (BitVec 12))
  empty  : List (BitVec 12)
  deriving DecidableEq, Repr

/-- One descriptor of the lists that the tiler writes at job start (R130, R159): its stream, its granary offset / 32, its 256 bits, and for an ARRAY_LOOP the pass template that it names. -/
structure DescInit where
  frond  : Fin 6
  stream : Fin 32
  place  : BitVec 23
  desc   : BitVec 256
  tmpl   : BitVec 256
  deriving DecidableEq, Repr

/-- What a stream graph section (TYPE 0x04) holds, as the spec's chapters use it; the spec gives no byte layout for it (log 8). -/
structure GraphInfo where
  granarySems : List SemInit
  localSems   : List (Fin 6 × SemInit)
  tensors     : List TensorInit
  mcast       : List (Fin 6 × Fin 32 × BitVec 6)
  posters     : List (Fin 6 × BitVec 11 × List Nat)
  txLinks     : List (Nat × Fin 16 × BitVec 48)
  patterns    : List PilotPattern
  descriptors : List DescInit
  deriving DecidableEq, Repr

/-- The formats a model layer's weights have (R283). -/
inductive LayerFmt where
  | int8 | int4 | bs8 | bs4 | bf16 | fp16
  deriving DecidableEq, Repr

/-- A layer of a model as a model slot holds it (R279, R283, R108): TRAIN or FROZEN, format, output channels, weight shifts (one s_w for INT formats, one per 32-element block for BS formats), codes (integers for INT and BS formats, codes otherwise) with the inputs of one output channel side by side, column sums, outlier channels, and its drain scale records with their SHIFT. -/
structure Layer where
  train    : Bool
  fmt      : LayerFmt
  cols     : Nat
  shifts   : List Int
  codes    : List Int
  colsums  : List Int
  outliers : List Nat
  scale    : List (Nat × Int)
  deriving DecidableEq, Repr

/-- What a model section (TYPE 0x06) holds, as the spec's chapters use it; the spec gives no byte layout for it (log 8). -/
structure ModelInfo where
  layers    : List Layer
  hyper     : List Word
  deriving DecidableEq, Repr

/-- What the loader reads from a section whose layout the spec does not give (log 8). -/
inductive SecExtra where
  | plain
  | graph (g : GraphInfo)
  | model (m : ModelInfo)
  deriving DecidableEq, Repr

/-- The SFDP facts the flash reports (R39, R430): the size field read, the size in Mbit, and whether 4 KiB erase is offered. -/
structure SfdpInfo where
  sizeField : Word
  mbit      : Nat
  erase4k   : Bool
  deriving DecidableEq, Repr

/-- What the training program submits (R283): the FP32 master weights of the TRAIN layers of the roles named, or an edge-class table, never both. -/
inductive CandSub where
  | models (roles : BitVec 2)
  | edge (table : List (Byte × Byte))
  deriving DecidableEq, Repr

/-- A label record that is due (R270): uplink slot index and group number g. -/
structure LabelRec where
  idx   : BitVec 17
  group : Nat
  deriving DecidableEq, Repr

/-- One transmit section as it reaches its port's launch queue (R263, R264, R352): the fields of its header (R343). Its samples follow from the slot's plan and data (R261, R262). -/
structure TxSection where
  antenna : BitVec 9
  sfn     : BitVec 10
  slot    : BitVec 7
  sym     : BitVec 4
  prb0    : BitVec 9
  nprb    : BitVec 9
  deriving DecidableEq, Repr

/-- A PTP message as the receiving port hands it over (R391): link (16: MG), PTP domain, messageType, sequence number, source identity, the master's place in the order of the alternate BMCA (the lower the better), whether it is two-step, the time stamp it carries, and its correction field in 2^-16 ns. -/
structure PtpMsg where
  link   : Fin 17
  ptpdom : Byte
  typ    : BitVec 4
  seq    : BitVec 16
  master : BitVec 64
  rank   : Nat
  twoStep : Bool
  stamp  : FullTime
  corr   : Int
  deriving DecidableEq, Repr

/-- A reference path that completes (R226): its frond, the allocation's tag, and the granary offset / 32 of the buffer that its LLR8 set is written to. -/
structure RefDone where
  frond : Fin 6
  tag   : BitVec 16
  buf   : BitVec 23
  deriving DecidableEq, Repr

/-- A learned path that completes with the vector command (R227, R228): the leaf-store offsets / 32 of H_L, one per pilot interval, and the granary offset / 32 of its LLR8 buffer. -/
structure LrnDone where
  est : List (BitVec 18)
  buf : BitVec 23
  deriving DecidableEq, Repr

/-- A label ENCODE that the frond controller issues (R268): the allocation's INDEX, and the granary offsets / 32 of its coded bits and of its status record. -/
structure LabelEnc where
  index : Byte
  dst   : BitVec 23
  stat  : BitVec 23
  deriving DecidableEq, Repr

/-- Measured powers at a 10 µs control tick (R406, R407): P and the 1 ms average in 0.125 W, Pc in 0.125 W. -/
structure PowerRep where
  p    : Nat
  avg  : Nat
  pc   : Nat
  deriving DecidableEq, Repr

/-- The parts found by LPDDR5X training (R314): whether both channels trained, the failing channel, and the GiB fitted on each channel. -/
structure BarnTrain where
  ok   : Bool
  chan : Fin 2
  gib0 : Nat
  gib1 : Nat
  deriving DecidableEq, Repr

/-- The special registers of a signal core that MTS and MFS reach (R186, R189). -/
inductive SpecReg where
  | p (i : Fin 8) | n (i : Fin 8) | l (i : Fin 8) | ph | frq | ix | ien | ivec
  deriving DecidableEq, Repr

/-- A frame received on a fronthaul link, as the acceptance checks see it (R341): link, FCS correct, destination address, VIDs of its tags, EtherType, the first byte of the eCPRI common header (revision, reserved bits, C), message type, payload size that the header states, bytes that follow it less FCS and padding, frame length. -/
structure FhIn where
  link  : Fin 16
  fcsOk : Bool
  dst   : BitVec 48
  vids  : List (BitVec 12)
  etherType : BitVec 16
  first : Byte
  typ   : Byte
  size  : Nat
  rest  : Nat
  len   : Nat
  deriving DecidableEq, Repr

/-- A frame received at MG, as its acceptance checks see it (R60): EtherType, destination and source address, CLASS. -/
structure MgIn where
  etherType : BitVec 16
  dst   : BitVec 48
  src   : BitVec 48
  cls   : Byte
  deriving DecidableEq, Repr

/-- An eCPRI one-way delay message (R351): link, source address, measurement identity, action type, time stamp and compensation as carried. -/
structure OwdMsg where
  link : Fin 16
  src  : BitVec 48
  id   : Byte
  act  : Byte
  ts   : FullTime
  comp : Int
  deriving DecidableEq, Repr

/-- A launch-queue entry whose launch time is reached (R400): its slot index, antenna port, symbol and range of PRBs. -/
structure LaunchRef where
  port : Fin 4
  idx  : BitVec 17
  antenna : BitVec 9
  sym  : Fin 14
  prb0 : BitVec 9
  nprb : BitVec 9
  deriving DecidableEq, Repr

/-- The commands of the block, in the order of spec/opcode_table.json. -/
inductive Instr where
  /-- POR_ASSERT (R460): POR_N goes low or the always-on supply is lost, and the whole device enters POR. -/
  | porAssert
  /-- POR_RELEASE (R55): The release of POR_N is the power-good edge, and the start sequence begins from it. -/
  | porRelease (testMode : Bool) (smbAddr : BitVec 3)
  /-- WARM_N_ASSERT (R460): WARM_N is held low for at least 1 µs, causing a WARM reset that lasts while it stays low. -/
  | warmNAssert
  /-- WARM_N_RELEASE (R460): The release of WARM_N ends the WARM and restarts the start sequence at its second step. -/
  | warmNRelease
  /-- RAIL_LOW (R459): A rail other than VDD_AON stays below tolerance for more than 2 µs, forcing a WARM reset and setting LOW_STK. -/
  | railLow (rail : Fin 8)
  /-- RAIL_RECOVERED (R459): Every rail has been within tolerance for 2 ms, so the rail-caused WARM ends. -/
  | railRecovered
  /-- XO_IN_LOSS (R461): XO_IN is absent or off frequency for 10 µs, and the always-on island falls back to its on-die oscillator. -/
  | xoInLoss
  /-- XO_IN_REGAIN (R461): XO_IN has been good for 1 ms and is taken again. -/
  | xoInRegain
  /-- WAKE_N_EDGE (R413): A filtered falling edge on WAKE_N makes the device leave KEEP or HOLD. -/
  | wakeNEdge
  /-- CAPLIM_N_CHANGE (R406): A filtered level change of CAPLIM_N applies or removes LIM in the effective cap. -/
  | caplimNChange (low : Bool) (stable : Bool)
  /-- CAPLIM_LONG (R406): CAPLIM_N has been asserted for more than 10 s, so EV_CAPLIM_LONG is raised once. -/
  | caplimLong
  /-- PPS_IN_EDGE (R462): A PPS_IN pulse is judged runt, stuck, early or accepted, and an accepted edge is stamped in both domains. -/
  | ppsInEdge (widthNs : Nat)
  /-- PPS_SECOND_END (R462): A PPS second ends 1.1 s after the last accepted edge without a new one and is counted bad. -/
  | ppsSecondEnd
  /-- REF_IN_LOSS (R382): REF_IN has no edge for 1 µs or drifts beyond ±100 ppm, and the PLL moves to the local oscillator. -/
  | refInLoss
  /-- REF_IN_REGAIN (R382): REF_IN has been within ±100 ppm for 1 s, and the PLL changes back to it without a phase step. -/
  | refInRegain
  /-- LANE_SIGNAL_DETECT_CHANGE (R463): A raw lane signal detect holds a new state for 10 ms and the filtered detect changes. -/
  | laneSignalDetectChange (lane : Fin 33) (level : Bool) (held : Bool)
  /-- LANE_ALIGNMENT_LOSS (R463): A PCS lane loses alignment and its link goes down. -/
  | laneAlignmentLoss (lane : Fin 33)
  /-- LANE_FAULT_JUDGE (R463): 10 ms after a loss of alignment, a lane whose filtered detect is still asserted is charged a lane fault. -/
  | laneFaultJudge (lane : Fin 33)
  /-- LINK_TRAINING_COMPLETE (R339): A fronthaul, rhizome or MG link finishes training and comes up. -/
  | linkTrainingComplete (link : LinkRef)
  /-- JTAG_TRST (R461): TRST_N low holds the TAP in Test-Logic-Reset. -/
  | jtagTrst
  /-- SECURITY_SELFTEST_DONE (R55): The ROM known-answer tests complete, and a failure leads to SAFE with EV_SELFTEST_FAIL. -/
  | securitySelftestDone (result : Fin 5)
  /-- FLASH_SFDP_READ (R39): The flash SFDP table is read, the regions are sized, and an absent or unusable flash leads to SAFE. -/
  | flashSfdpRead (info : Option SfdpInfo)
  /-- DIRECTORY_READ (R40): The slot directory copies are read, and the valid copy with the higher generation is taken. -/
  | directoryRead
  /-- SECTION_LOADED (R47): An image section has been read, and its table entry, digest, tag, unpacking and content are checked. -/
  | sectionLoaded (read : SecExtra)
  /-- MEMORY_TEST_DONE (R57): The granary and leaf-store memory test completes, with failing banks spared or masked. -/
  | memoryTestDone (bad : List (Fin 1024)) (badLeaf : List (Fin 6))
  /-- BARN_TRAINING_DONE (R314): LPDDR5X training completes, and a failure or mismatched parts lead to SAFE. -/
  | barnTrainingDone (result : BarnTrain)
  /-- FIRMWARE_START (R55): The controllers start firmware, bind jobs and place models once all sections are loaded. -/
  | firmwareStart
  /-- IMAGE_CONFIRM (R52): After 10 s in RUN, the slot is marked GOOD and preferred. -/
  | imageConfirm (blown : Nat)
  /-- FUSE_WRITE_RESUME (R440): A deferred fuse write starts once the device is in RUN or SAFE with no thermal cap. -/
  | fuseWriteResume (blown : Nat)
  /-- MG_FRAME_DROP (R60): An MG frame from a wrong peer or with a wrong CLASS is dropped and counted. -/
  | mgFrameDrop (x : MgIn)
  /-- MG_UNSUPPORTED_REQUEST (R61): A management request with a reserved opcode is answered UNSUPPORTED. -/
  | mgUnsupportedRequest (op : BitVec 16) (r : MgReq)
  /-- IDENT_GET (R63): A request that returns the identity registers, FW_VER, running slot and states. -/
  | identGet (r : MgReq)
  /-- CERT_GET (R63): A request that returns one 1,024-byte part of the device certificate. -/
  | certGet (r : MgReq)
  /-- REG_READ (R63): A management request that reads 1 to 64 registers, clearing any RC fields it reads. -/
  | regRead (r : MgReq)
  /-- REG_WRITE (R63): A management request that writes 1 to 64 registers field by field under R8. -/
  | regWrite (r : MgReq)
  /-- CAP_SET (R406): A management request that sets PWR_CAP. -/
  | capSet (r : MgReq)
  /-- TIME_SERVO_INCR (R394): A TIME_SERVO message with OP INCR writes a domain's increment. -/
  | timeServoIncr (r : MgReq)
  /-- TIME_SERVO_STEP (R394): A TIME_SERVO message with OP STEP steps a domain, with optional FORCE. -/
  | timeServoStep (r : MgReq)
  /-- TIME_SERVO_SET (R394): A TIME_SERVO message with OP SET loads a domain's time. -/
  | timeServoSet (r : MgReq)
  /-- TIME_SERVO_LOCK (R394): A TIME_SERVO message with OP LOCK declares a domain LOCKED. -/
  | timeServoLock (r : MgReq)
  /-- TIME_SERVO_UNLOCK (R394): A TIME_SERVO message with OP UNLOCK returns a domain to ACQUIRING. -/
  | timeServoUnlock (r : MgReq)
  /-- SLOT_OPEN (R63): A request that opens a non-running slot for writing and marks it EMPTY. -/
  | slotOpen (r : MgReq)
  /-- SLOT_WRITE (R63): A request that writes up to 1,024 bytes into the open slot, erasing each sector on its first touch. -/
  | slotWrite (r : MgReq)
  /-- SLOT_COMMIT (R63): A request that checks the open slot by R47, marks it NEW or BAD and closes it. -/
  | slotCommit (r : MgReq) (reads : List SecExtra)
  /-- SLOT_PREFER (R63): A request that sets the preferred slot to a NEW or GOOD slot. -/
  | slotPrefer (r : MgReq)
  /-- JOB_REBIND (R335): A request that checks and schedules a re-binding of up to four jobs at a boundary. -/
  | jobRebind (r : MgReq)
  /-- IMG_ADOPT (R66): A request that starts job-by-job adoption of the NEW slot, or refuses it. -/
  | imgAdopt (r : MgReq)
  /-- IMG_ADOPT_CHECK_DONE (R66): The background check of every section of the adopted image completes. -/
  | imgAdoptCheckDone (reads : List SecExtra)
  /-- IMG_ADOPT_JOB_RESTART (R67): At a slot boundary, one job restarts under the new sections and its own new IMG fields. -/
  | imgAdoptJobRestart
  /-- WARM_RESET (R61): A management request that schedules a WARM reset 1 ms after the response. -/
  | warmReset (r : MgReq)
  /-- DEFERRED_WARM (R61): The 1 ms delay after a WARM_RESET response or a life-cycle transition expires, and the WARM reset occurs. -/
  | deferredWarm
  /-- POWER_STATE (R413): A request for RUN, HOLD or KEEP, with an optional wake time for KEEP. -/
  | powerState (r : MgReq)
  /-- CHALLENGE_GET (R445): A debug sub-operation that draws a new 32-byte challenge and returns it signed. -/
  | challengeGet (via : DbgVia) (r : MgReq)
  /-- CERT_SUBMIT (R446): A debug sub-operation that checks a certificate and opens a session, a transition or a revocation. -/
  | certSubmit (via : DbgVia) (r : MgReq) (blown : Nat)
  /-- DEBUG_CLOSE (R450): A debug sub-operation that closes any open session. -/
  | debugClose (via : DbgVia) (r : MgReq)
  /-- KEY_WRITE (R441): A JTAG-only sub-operation in SEALED that fuses an owner slot or the OIK. -/
  | keyWrite (via : DbgVia) (r : MgReq) (blown : Nat)
  /-- DEBUG_UNLOCK_RESERVED (R445): A DEBUG_UNLOCK with a reserved sub-operation is answered RANGE. -/
  | debugUnlockReserved (via : DbgVia) (r : MgReq)
  /-- ZEROISE_COMPLETE (R449): The zeroisation, including the barn fill, completes and the session opens. -/
  | zeroiseComplete
  /-- DEBUG_SESSION_EXPIRY (R450): A debug session reaches the end of its DURATION and closes. -/
  | debugSessionExpiry
  /-- CHALLENGE_EXPIRY (R445): A challenge reaches 60 s and is no longer valid. -/
  | challengeExpiry
  /-- LOCKOUT_END (R447): The lockout after repeated certificate failures expires. -/
  | lockoutEnd
  /-- DEBUG_ACCESS (R448): An access through the JTAG debug access port within the open scopes. -/
  | debugAccess (a : DbgAcc)
  /-- BYPASS (R448): JTAG instruction BYPASS. -/
  | bypass
  /-- IDCODE (R468): JTAG instruction IDCODE shifts out 0x2716_022B. -/
  | idcode
  /-- SAMPLE_PRELOAD (R448): JTAG instruction SAMPLE/PRELOAD. -/
  | samplePreload (cells : List Bool)
  /-- EXTEST (R448): JTAG EXTEST, served only with BSCAN open and otherwise loading BYPASS. -/
  | extest (cells : List Bool)
  /-- CLAMP (R448): JTAG CLAMP, served only with BSCAN open. -/
  | clamp
  /-- HIGHZ (R448): JTAG HIGHZ, served only with BSCAN open. -/
  | highz
  /-- DBG_MBOX (R445): The private JTAG instruction that moves mailbox words of DEBUG_UNLOCK payloads. -/
  | dbgMbox (w : Word)
  /-- TELEMETRY (R429): Every 100 ms, a telemetry sample is sent over MG or counted as dropped. -/
  | telemetry
  /-- SMB_IDENT (R64): SMBus block read of the identity registers. -/
  | smbIdent (pec : Option Bool)
  /-- SMB_STATUS (R64): SMBus read of the power, SAFE, life-cycle and slot status. -/
  | smbStatus (pec : Option Bool)
  /-- SMB_TEMP (R64): SMBus read of the hottest junction temperature. -/
  | smbTemp (pec : Option Bool)
  /-- SMB_POWER (R64): SMBus read of the 1 ms average power. -/
  | smbPower (pec : Option Bool)
  /-- SMB_CAP_READ (R64): SMBus read of PWR_CAP. -/
  | smbCapRead (pec : Option Bool)
  /-- SMB_CAP_WRITE (R65): SMBus write of PWR_CAP, NACKed when out of range. -/
  | smbCapWrite (cap : BitVec 16) (pec : Option Bool)
  /-- SMB_ALARMS_READ (R64): SMBus read of the alarm bits. -/
  | smbAlarmsRead (pec : Option Bool)
  /-- SMB_ALARMS_CLEAR (R466): SMBus write that clears set alarm bits and releases SMB_ALERT_N. -/
  | smbAlarmsClear (mask : Byte) (pec : Option Bool)
  /-- SMB_EVENTS (R64): SMBus read of the unread event ring entries. -/
  | smbEvents (pec : Option Bool)
  /-- SMB_UNKNOWN_COMMAND (R64): An SMBus command byte not in the table is NACKed. -/
  | smbUnknownCommand (cmd : Byte)
  /-- SMB_ALERT_RESPONSE (R466): A read through the Alert Response Address releases SMB_ALERT_N. -/
  | smbAlertResponse
  /-- SMB_TIMEOUT (R461): SMB_CLK held low for more than 25 ms resets the target interface. -/
  | smbTimeout
  /-- REGISTER_WRITE (R8): A write to a register with no row of its own, applied or ignored field by field. -/
  | registerWrite (a : RegAcc) (val : Word)
  /-- RC_COUNTER_READ (R12): A read of an RC counter returns its value and clears it. -/
  | rcCounterRead (a : RegAcc)
  /-- TEL_XQ_STALL_READ (R27): A read of TEL_XQ_STALL_CNT returns and clears the stall counter of the selected queue only. -/
  | telXqStallRead (agent : Byte)
  /-- TIME_NOW_CAPTURE (R383): A read of NOW_SEC_LO captures all four words of a domain's current time. -/
  | timeNowCapture (agent : Byte) (dom : Dom)
  /-- CROSSING_ITEM_ARRIVAL (R25): An item sent across an island crossing becomes visible to its consumer. -/
  | crossingItemArrival (q : XqRef) (src : XqSrc) (item : List Byte) (waits : Nat)
  /-- CROSSING_CREDIT_RETURN (R23): A credit returned by a consumer becomes visible to the producer. -/
  | crossingCreditReturn (q : XqRef) (waits : Nat)
  /-- ISLAND_CLOCK_GATE (R22): An island whose input queues have been empty for 64 cycles gates its clocks. -/
  | islandClockGate (isl : Island)
  /-- PANE_PLAN_APPLY (R78): A write of APPLY captures the pane plan and stops dispatch of new passes. -/
  | panePlanApply (agent : Byte) (f : Fin 6) (val : Word)
  /-- PANE_PLAN_INSTALL (R78): After old passes drain, the captured plan is checked and installed, or rejected with EV_PANE_PLAN_BAD. -/
  | panePlanInstall (f : Fin 6)
  /-- PASS_DISPATCH (R84): The head pass command moves from the array queue to its pane queue once that queue has room. -/
  | passDispatch (f : Fin 6)
  /-- PASS_MM_ACC (R89): A pane runs a matrix pass that adds its sums into the accumulator tiles. -/
  | passMmAcc (f : Fin 6) (p : Fin 32) (rep : PassRep)
  /-- PASS_MM_SET (R89): A pane runs a matrix pass whose first block replaces the tile contents. -/
  | passMmSet (f : Fin 6) (p : Fin 32) (rep : PassRep)
  /-- PASS_EW_MUL (R94): A pane runs an element-wise multiply of tile elements by streamed elements. -/
  | passEwMul (f : Fin 6) (p : Fin 32) (rep : PassRep)
  /-- PASS_EW_ADD (R94): A pane runs an element-wise add of streamed elements into tile elements. -/
  | passEwAdd (f : Fin 6) (p : Fin 32) (rep : PassRep)
  /-- STATIONARY_LOAD (R93): A stationary load leaves the column lanes once the register of the older pass is free. -/
  | stationaryLoad (f : Fin 6) (p : Fin 32) (hold : Nat) (laneWait : Nat) (bankConf : Nat)
  /-- PASS_COMPLETE (R89): The stage 6 write of a pass's last block completes, and the pass is reported complete. -/
  | passComplete (f : Fin 6) (p : Fin 32)
  /-- JOB_READY (R329): A restarting job completes its restart, restores semaphores and starts its streams. -/
  | jobReady (j : Fin 16) (ok : Bool)
  /-- JOB_RESTART (R333): A write of GO to JOB_RESTART restarts the named job without counting toward the fault limit. -/
  | jobRestart (agent : Byte) (val : Word)
  /-- LEAF_SCL_STEP (R123): A write of GO to LEAF_SCL_STEP ends the step of a range of scale records. -/
  | leafSclStep (agent : Byte) (f : Fin 6) (val : Word)
  /-- SCALE_STEP_DONE (R123): The adaptation of the range completes, GO clears, and waiting drains may start. -/
  | scaleStepDone (f : Fin 6)
  /-- GRANARY_AMO (R300): A controller atomic, LR or SC is performed at the granary bank. -/
  | granaryAmo (c : Fin 7) (ret : Bool) (op : AmoOp) (addr : Addr) (dw : Bool) (val : BitVec 64) (read : CtlRead)
  /-- GRN_FADD (R300): A write of VAL to a controller's GRN_FADD set performs an FP32 atomic add. -/
  | grnFadd (agent : Byte) (c : Fin 7) (val : Word) (read : CtlRead)
  /-- SEMAPHORE_PORT_POST (R139): An agent posts to a granary semaphore pair through the semaphore port. -/
  | semaphorePortPost (agent : Byte) (sem : BitVec 11) (side : Bool) (count : BitVec 16)
  /-- BANK_RETENTION_ENTRY (R306): A bank in use that has served no access for 2 µs enters RETENTION. -/
  | bankRetentionEntry (b : BankRef)
  /-- LOFT_MISS_FILL (R312): A barn access for a loft-cache miss completes and the line is allocated into the requester's ways. -/
  | loftMissFill (job : Option (Fin 16)) (off : Nat) (store : Bool) (ecc : EccState)
  /-- BRN_WAY_MASK_WRITE (R313): A write of a job's way mask, ignored when too wide or overlapping another job's mask. -/
  | brnWayMaskWrite (agent : Byte) (val : Word)
  /-- GLEANER_VISIT (R427): The gleaner reads a word within its bound, repairing corrected words and poisoning uncorrectable ones. -/
  | gleanerVisit (addr : Addr) (loft : Bool) (ecc : EccState) (testOk : Bool)
  /-- STREAM_START (R136): A write of HEAD and RUN starts an idle or stopped stream. -/
  | streamStart (agent : Byte) (f : Fin 6) (n : Fin 32) (val : Word)
  /-- STREAM_ABORT (R136): A write of ABORT stops a stream issuing, and it becomes ABORTED once its descriptors complete. -/
  | streamAbort (agent : Byte) (f : Fin 6) (n : Fin 32) (val : Word)
  /-- BALE_FETCH (R131): A stream's next bale of descriptors is fetched when 16 or fewer remain unissued. -/
  | baleFetch (f : Fin 6) (n : Fin 32)
  /-- XFER (R143): A transfer descriptor issues once its wait is met and moves planes, rows and bytes between tensors. -/
  | xfer (f : Fin 6) (n : Fin 32) (rep : XferRep)
  /-- ARRAY_LOOP (R148): An array loop descriptor claims tiles and expands its template into pass commands. -/
  | arrayLoop (f : Fin 6) (n : Fin 32)
  /-- PASS_COMMAND_GENERATE (R148): A generated pass command enters the array command queue when it has room. -/
  | passCommandGenerate (f : Fin 6) (n : Fin 32)
  /-- DRAIN (R155): A drain descriptor waits for READY tiles, converts the region under its scale record and writes it out. -/
  | drain (f : Fin 6) (n : Fin 32)
  /-- ACC_MOVE_SPILL (R152): An ACC_MOVE with DIR 0 spills tiles and their correction state to the leaf store. -/
  | accMoveSpill (f : Fin 6) (n : Fin 32)
  /-- ACC_MOVE_RELOAD (R152): An ACC_MOVE with DIR 1 reloads spilled tiles into free tiles. -/
  | accMoveReload (f : Fin 6) (n : Fin 32)
  /-- SEM (R134): A semaphore-only descriptor that waits and posts and completes at issue. -/
  | sem (f : Fin 6) (n : Fin 32)
  /-- BARRIER (R140): A barrier descriptor completes with its partners once all of them arrive with earlier work complete. -/
  | barrier (f : Fin 6) (n : Fin 32)
  /-- LINK (R135): A link descriptor continues the stream at TARGET, counting REPEAT. -/
  | link (f : Fin 6) (n : Fin 32)
  /-- DESCRIPTOR_RESERVED_KIND (R134): A descriptor with a reserved KIND is never issued and is stream error 1. -/
  | descriptorReservedKind (f : Fin 6) (n : Fin 32)
  /-- DESCRIPTOR_COMPLETE (R138): A descriptor completes and posts its semaphore, and an END descriptor takes the stream to DONE. -/
  | descriptorComplete (f : Fin 6) (n : Fin 32) (k : Nat)
  /-- MCAST_BLOCK_DELIVERY (R146): A multicast block is delivered to receivers, detaching any receiver whose lag would exceed the slack. -/
  | mcastBlockDelivery (f : Fin 6) (n : Fin 32) (k : Nat) (credits : BitVec 6)
  /-- STR_SEM_POST (R139): A write to STR_SEM_POST posts a count to a local or granary semaphore. -/
  | strSemPost (agent : Byte) (f : Fin 6) (val : Word)
  /-- ACC_LIMIT_WRITE (R151): A write of STR_CFG.ACC_LIMIT, ignored when 0 or above 128. -/
  | accLimitWrite (agent : Byte) (f : Fin 6) (val : Word)
  /-- STREAM_WAIT_WATCHDOG (R160): A stream waiting for 20 µs reports a wait-for tag to its frond controller. -/
  | streamWaitWatchdog (f : Fin 6) (n : Fin 32)
  /-- DEADLOCK_CONFIRM (R161): A wait cycle still unchanged after 5 µs is confirmed, its highest stream aborted and the job faulted. -/
  | deadlockConfirm (f : Fin 6) (cycle : List (Fin 6 × Fin 32))
  /-- TILER_RETILE (R153): On ACC_SHORT, the tiler re-tiles the layer from the refused descriptor and restarts the stream. -/
  | tilerRetile (f : Fin 6) (n : Fin 32) (head : BitVec 23) (bales : List (BitVec 256)) (spill : Option SpillRep)
  /-- VEC_CMD_PUSH (R171): A write of PUSH queues the vector command held in VEC_CMD_W0 to W15. -/
  | vecCmdPush (agent : Byte) (f : Fin 6) (val : Word)
  /-- VEC_COMMAND_START (R172): A vector command reaches the queue head, is checked, and runs or is rejected. -/
  | vecCommandStart (f : Fin 6)
  /-- VEC_COMMAND_COMPLETE (R171): A vector command's last store and summary are done, and its semaphore is posted. -/
  | vecCommandComplete (f : Fin 6) (lrn : Option LrnDone)
  /-- VEC_SUM_POP (R183): A write of POP removes the head summary record. -/
  | vecSumPop (agent : Byte) (f : Fin 6) (val : Word)
  /-- VEC_NOP (R176): Vector instruction NOP. -/
  | vecNop (f : Fin 6)
  /-- VEC_LD (R176): Vector instruction LD loads a port vector into a temporary with conversion. -/
  | vecLd (f : Fin 6) (busy : Nat)
  /-- VEC_ST (R184): Vector instruction ST stores a temporary to an output port with conversion. -/
  | vecSt (f : Fin 6) (busy : Nat)
  /-- VEC_MOV (R176): Vector instruction MOV. -/
  | vecMov (f : Fin 6)
  /-- VEC_SPL (R176): Vector instruction SPL broadcasts a scalar to all lanes. -/
  | vecSpl (f : Fin 6)
  /-- VEC_ADD (R176): Vector instruction ADD. -/
  | vecAdd (f : Fin 6)
  /-- VEC_SUB (R176): Vector instruction SUB. -/
  | vecSub (f : Fin 6)
  /-- VEC_MUL (R176): Vector instruction MUL. -/
  | vecMul (f : Fin 6)
  /-- VEC_FMA (R176): Vector instruction FMA with one rounding. -/
  | vecFma (f : Fin 6)
  /-- VEC_MIN (R176): Vector instruction MIN. -/
  | vecMin (f : Fin 6)
  /-- VEC_MAX (R176): Vector instruction MAX. -/
  | vecMax (f : Fin 6)
  /-- VEC_ABS (R176): Vector instruction ABS. -/
  | vecAbs (f : Fin 6)
  /-- VEC_NEG (R176): Vector instruction NEG. -/
  | vecNeg (f : Fin 6)
  /-- VEC_CLAMP (R176): Vector instruction CLAMP. -/
  | vecClamp (f : Fin 6)
  /-- VEC_SHL (R176): Vector instruction SHL. -/
  | vecShl (f : Fin 6)
  /-- VEC_SHR (R176): Vector instruction SHR with rounding. -/
  | vecShr (f : Fin 6)
  /-- VEC_SCL (R176): Vector instruction SCL scales by a power of two. -/
  | vecScl (f : Fin 6)
  /-- VEC_CVT (R176): Vector instruction CVT converts between types. -/
  | vecCvt (f : Fin 6)
  /-- VEC_AND (R176): Vector instruction AND. -/
  | vecAnd (f : Fin 6)
  /-- VEC_OR (R176): Vector instruction OR. -/
  | vecOr (f : Fin 6)
  /-- VEC_XOR (R176): Vector instruction XOR. -/
  | vecXor (f : Fin 6)
  /-- VEC_CLT (R175): Vector compare CLT into a mask. -/
  | vecClt (f : Fin 6)
  /-- VEC_CLE (R175): Vector compare CLE into a mask. -/
  | vecCle (f : Fin 6)
  /-- VEC_CEQ (R175): Vector compare CEQ into a mask. -/
  | vecCeq (f : Fin 6)
  /-- VEC_SEL (R176): Vector instruction SEL chooses lanes by mask. -/
  | vecSel (f : Fin 6)
  /-- VEC_RCP (R180): Vector special function RCP. -/
  | vecRcp (f : Fin 6)
  /-- VEC_RSQ (R180): Vector special function RSQ. -/
  | vecRsq (f : Fin 6)
  /-- VEC_EXP2 (R180): Vector special function EXP2. -/
  | vecExp2 (f : Fin 6)
  /-- VEC_LOG2 (R180): Vector special function LOG2. -/
  | vecLog2 (f : Fin 6)
  /-- VEC_PERM (R179): Vector instruction PERM, zeroing out-of-range lanes. -/
  | vecPerm (f : Fin 6)
  /-- VEC_CMUL (R176): Vector instruction CMUL on complex lane pairs. -/
  | vecCmul (f : Fin 6)
  /-- VEC_LUT (R176): Vector instruction LUT reads a table entry per lane. -/
  | vecLut (f : Fin 6)
  /-- VEC_RSUM (R181): Vector reduction RSUM into a scalar. -/
  | vecRsum (f : Fin 6)
  /-- VEC_RMAX (R181): Vector reduction RMAX. -/
  | vecRmax (f : Fin 6)
  /-- VEC_RMIN (R181): Vector reduction RMIN. -/
  | vecRmin (f : Fin 6)
  /-- VEC_RMAXI (R181): Vector reduction RMAXI with index. -/
  | vecRmaxi (f : Fin 6)
  /-- VEC_RMINI (R181): Vector reduction RMINI with index. -/
  | vecRmini (f : Fin 6)
  /-- VEC_SUMOUT (R183): Vector instruction SUMOUT writes a scalar to a summary slot. -/
  | vecSumout (f : Fin 6)
  /-- SIG_CORE_START (R199): A write of START starts an idle or halted signal core at PC. -/
  | sigCoreStart (agent : Byte) (k : CoreRef) (val : Word)
  /-- SIG_CORE_STOP (R199): A write of STOP ends a core at the next boundary after its MOVEs complete. -/
  | sigCoreStop (agent : Byte) (k : CoreRef) (val : Word)
  /-- SIG_HOST_IRQ (R196): A write of IRQ raises the HOST interrupt source of a core. -/
  | sigHostIrq (agent : Byte) (k : CoreRef) (val : Word)
  /-- SIG_MBI_WRITE (R197): A write pushes a word into a core's inbound mailbox, or is ignored when it is full. -/
  | sigMbiWrite (agent : Byte) (k : CoreRef) (val : Word)
  /-- SIG_MBO_READ (R197): A read pops a word from a core's outbound mailbox. -/
  | sigMboRead (agent : Byte) (k : CoreRef)
  /-- SIG_TIME_SOURCE_FIRE (R196): The chosen domain's compact time reaches TCMP, and the armed TIME source fires. -/
  | sigTimeSourceFire (k : CoreRef)
  /-- SIG_INTERRUPT_ENTRY (R196): A pending enabled interrupt is taken at the first boundary not held off. -/
  | sigInterruptEntry (k : CoreRef)
  /-- SIG_MOVE_COMPLETE (R198): A queued mover transfer between local memory and the granary or leaf store completes. -/
  | sigMoveComplete (k : CoreRef)
  /-- SIG_CMAC2 (R189): Signal-core instruction CMAC2: two complex MACs into accumulators. -/
  | sigCmac2 (k : CoreRef) (rsvd : Bool) (stall : Nat)
  /-- SIG_CMUL2 (R189): Signal-core instruction CMUL2. -/
  | sigCmul2 (k : CoreRef) (rsvd : Bool) (stall : Nat)
  /-- SIG_CADD2 (R189): Signal-core instruction CADD2. -/
  | sigCadd2 (k : CoreRef) (rsvd : Bool) (stall : Nat)
  /-- SIG_CSUB2 (R189): Signal-core instruction CSUB2. -/
  | sigCsub2 (k : CoreRef) (rsvd : Bool) (stall : Nat)
  /-- SIG_CLRA (R189): Signal-core instruction CLRA clears an accumulator. -/
  | sigClra (k : CoreRef) (rsvd : Bool) (stall : Nat)
  /-- SIG_RNDA (R190): Signal-core instruction RNDA rounds an accumulator to CI16. -/
  | sigRnda (k : CoreRef) (rsvd : Bool) (stall : Nat)
  /-- SIG_ADD (R189): Signal-core instruction ADD. -/
  | sigAdd (k : CoreRef) (rsvd : Bool) (stall : Nat)
  /-- SIG_SUB (R189): Signal-core instruction SUB. -/
  | sigSub (k : CoreRef) (rsvd : Bool) (stall : Nat)
  /-- SIG_AND (R189): Signal-core instruction AND. -/
  | sigAnd (k : CoreRef) (rsvd : Bool) (stall : Nat)
  /-- SIG_OR (R189): Signal-core instruction OR. -/
  | sigOr (k : CoreRef) (rsvd : Bool) (stall : Nat)
  /-- SIG_XOR (R189): Signal-core instruction XOR. -/
  | sigXor (k : CoreRef) (rsvd : Bool) (stall : Nat)
  /-- SIG_SHL (R189): Signal-core instruction SHL. -/
  | sigShl (k : CoreRef) (rsvd : Bool) (stall : Nat)
  /-- SIG_SHR (R189): Signal-core instruction SHR. -/
  | sigShr (k : CoreRef) (rsvd : Bool) (stall : Nat)
  /-- SIG_MOV (R189): Signal-core instruction MOV. -/
  | sigMov (k : CoreRef) (rsvd : Bool) (stall : Nat)
  /-- SIG_MOVI (R189): Signal-core instruction MOVI loads an immediate. -/
  | sigMovi (k : CoreRef) (rsvd : Bool) (stall : Nat)
  /-- SIG_MAXI (R191): Signal-core search instruction MAXI. -/
  | sigMaxi (k : CoreRef) (rsvd : Bool) (stall : Nat)
  /-- SIG_MINI (R191): Signal-core search instruction MINI. -/
  | sigMini (k : CoreRef) (rsvd : Bool) (stall : Nat)
  /-- SIG_MAXM (R191): Signal-core search instruction MAXM. -/
  | sigMaxm (k : CoreRef) (rsvd : Bool) (stall : Nat)
  /-- SIG_MINM (R191): Signal-core search instruction MINM. -/
  | sigMinm (k : CoreRef) (rsvd : Bool) (stall : Nat)
  /-- SIG_ROT2 (R189): Signal-core instruction ROT2 rotates by PH and advances PH by FRQ. -/
  | sigRot2 (k : CoreRef) (rsvd : Bool) (stall : Nat)
  /-- SIG_ANG (R189): Signal-core function ANG. -/
  | sigAng (k : CoreRef) (rsvd : Bool) (stall : Nat)
  /-- SIG_RCP (R189): Signal-core function RCP. -/
  | sigRcp (k : CoreRef) (rsvd : Bool) (stall : Nat)
  /-- SIG_RSQ (R189): Signal-core function RSQ. -/
  | sigRsq (k : CoreRef) (rsvd : Bool) (stall : Nat)
  /-- SIG_MTS (R189): Signal-core instruction MTS moves to a special register. -/
  | sigMts (k : CoreRef) (rsvd : Bool) (reg : SpecReg) (stall : Nat)
  /-- SIG_MFS (R189): Signal-core instruction MFS moves from a special register. -/
  | sigMfs (k : CoreRef) (rsvd : Bool) (reg : SpecReg) (stall : Nat)
  /-- SIG_BR (R192): Signal-core branch BR with two delay slots. -/
  | sigBr (k : CoreRef) (rsvd : Bool) (target : BitVec 13) (stall : Nat)
  /-- SIG_BRZ (R192): Signal-core branch BRZ. -/
  | sigBrz (k : CoreRef) (rsvd : Bool) (target : BitVec 13) (stall : Nat)
  /-- SIG_BRNZ (R192): Signal-core branch BRNZ. -/
  | sigBrnz (k : CoreRef) (rsvd : Bool) (target : BitVec 13) (stall : Nat)
  /-- SIG_BRN (R192): Signal-core branch BRN. -/
  | sigBrn (k : CoreRef) (rsvd : Bool) (target : BitVec 13) (stall : Nat)
  /-- SIG_BRNN (R192): Signal-core branch BRNN. -/
  | sigBrnn (k : CoreRef) (rsvd : Bool) (target : BitVec 13) (stall : Nat)
  /-- SIG_CALL (R192): Signal-core CALL pushes a return index. -/
  | sigCall (k : CoreRef) (rsvd : Bool) (target : BitVec 13) (stall : Nat)
  /-- SIG_RET (R192): Signal-core RET pops a return index. -/
  | sigRet (k : CoreRef) (rsvd : Bool) (stall : Nat)
  /-- SIG_RETI (R196): Signal-core RETI restores the shadow set and leaves the handler. -/
  | sigReti (k : CoreRef) (rsvd : Bool) (stall : Nat)
  /-- SIG_REP (R193): Signal-core REP starts a block repeat with an immediate count. -/
  | sigRep (k : CoreRef) (rsvd : Bool) (stall : Nat)
  /-- SIG_REPD (R193): Signal-core REPD starts a block repeat with a count from a register. -/
  | sigRepd (k : CoreRef) (rsvd : Bool) (stall : Nat)
  /-- SIG_DI (R196): Signal-core DI holds off interrupts for a count of instructions. -/
  | sigDi (k : CoreRef) (rsvd : Bool) (stall : Nat)
  /-- SIG_PST (R198): Signal-core PST posts a semaphore after earlier stores and MOVEs complete. -/
  | sigPst (k : CoreRef) (rsvd : Bool) (stall : Nat)
  /-- SIG_MOVE (R198): Signal-core MOVE queues a mover transfer. -/
  | sigMove (k : CoreRef) (rsvd : Bool) (stall : Nat)
  /-- SIG_MBR (R197): Signal-core MBR reads the inbound mailbox, waiting while it is empty. -/
  | sigMbr (k : CoreRef) (rsvd : Bool) (stall : Nat)
  /-- SIG_MBW (R197): Signal-core MBW writes the outbound mailbox, waiting while it is full. -/
  | sigMbw (k : CoreRef) (rsvd : Bool) (stall : Nat)
  /-- SIG_WFI (R196): Signal-core WFI sleeps until an enabled interrupt is pending. -/
  | sigWfi (k : CoreRef) (rsvd : Bool) (stall : Nat)
  /-- SIG_HALT (R199): Signal-core HALT stops the core in HALT. -/
  | sigHalt (k : CoreRef) (rsvd : Bool) (stall : Nat)
  /-- SLOT_START_EDGE (R399): A domain reaches a slot start edge, and slot-bound acts of the jobs using that domain take effect. -/
  | slotStartEdge (dom : Dom) (sfn : BitVec 10) (slot : BitVec 7)
  /-- UL_PLAN (R208): An uplink slot plan control message is checked whole, accepted or rejected, and answered with PLAN_RSP. -/
  | ulPlan (m : FhMsg)
  /-- IQ_SECTION (R345): A type 0 compressed section is checked from its header and placed into its slot's RE grid. -/
  | iqSection (m : FhMsg)
  /-- SYMBOL_RELEASE_TIMEOUT (R214): At the end of a symbol plus WIN, the symbol is released and unwritten REs are erased. -/
  | symbolReleaseTimeout (idx : BitVec 17) (sym : Fin 14)
  /-- REFERENCE_PATH_COMPLETE (R226): The reference LLRs and guard values of an allocation are written. -/
  | referencePathComplete (v : RefDone)
  /-- GUARD_TIME_EXPIRY (R230): At G(n), every undecided allocation of slot n is decided. -/
  | guardTimeExpiry (idx : BitVec 17)
  /-- DEADLINE_EDGE (R237): At D(n), undelivered allocations are reported LATE and slot n's buffers pass on. -/
  | deadlineEdge (idx : BitVec 17)
  /-- THR_CMD_PUSH (R242): A write of PUSH queues the thresher command held in THR_CMD_W0 to W15. -/
  | thrCmdPush (agent : Byte) (f : Fin 6) (val : Word)
  /-- DECODE (R248): A thresher DECODE command recovers, decodes and CRC-checks the code blocks of an allocation. -/
  | decode (f : Fin 6)
  /-- ENCODE (R258): A thresher ENCODE command attaches CRC, segments, encodes, rate-matches and scrambles a block. -/
  | encode (f : Fin 6)
  /-- THR_COMMAND_COMPLETE (R255): A thresher command completes, writes its status record and posts. -/
  | thrCommandComplete (f : Fin 6)
  /-- THR_CANCEL (R256): A write of TAG and GO removes queued commands with that tag and ends the running one. -/
  | thrCancel (agent : Byte) (f : Fin 6) (val : Word)
  /-- THR_ETBL_WRITE (R252): A write of an edge-class entry, ignored while a command uses its bank. -/
  | thrEtblWrite (agent : Byte) (f : Fin 6) (bank : Fin 2) (c : Fin 64) (val : Word)
  /-- DL_PLAN (R259): A downlink slot plan control message is checked and answered. -/
  | dlPlan (m : FhMsg)
  /-- DL_TB (R348): A part of a downlink transport block is placed by OFFSET. -/
  | dlTb (m : FhMsg)
  /-- PRECODER (R348): A part of a precoder is placed by OFFSET. -/
  | precoder (m : FhMsg)
  /-- TB_LEAD_CUTOFF (R260): At slot start minus TB_LEAD, allocations missing data are dropped and reported late. -/
  | tbLeadCutoff (idx : BitVec 17)
  /-- EGRESS_SECTION_ENQUEUE (R352): A compressed section enters its port's launch queue, or is refused when the queue is full. -/
  | egressSectionEnqueue (t : TxSection)
  /-- LAUNCH_TIME_REACHED (R400): A launch time is reached and the entry's frame is sent, or the missing section is handled as late. -/
  | launchTimeReached (l : LaunchRef)
  /-- FH_EGRESS_FRAME_END (R352): At a frame boundary, the port picks the next frame by priority and share. -/
  | fhEgressFrameEnd (p : Fin 4)
  /-- FH_FRAME_DROP (R341): A received fronthaul frame failing an acceptance check is dropped with its reason. -/
  | fhFrameDrop (x : FhIn)
  /-- FH_CTL_BAD (R350): A control message of a reserved kind, a wrong sender or breaking R348 is dropped. -/
  | fhCtlBad (m : FhMsg)
  /-- ECPRI_OWD_REQUEST (R351): A one-way delay request is answered with a response within 2 µs. -/
  | ecpriOwdRequest (o : OwdMsg)
  /-- ECPRI_OWD_REQUEST_FOLLOW_UP (R351): A request with follow-up starts a one-way delay measurement. -/
  | ecpriOwdRequestFollowUp (o : OwdMsg)
  /-- ECPRI_OWD_FOLLOW_UP (R351): A follow-up completes the measurement and is answered with a response. -/
  | ecpriOwdFollowUp (o : OwdMsg)
  /-- ECPRI_OWD_REMOTE_REQUEST (R351): A remote request makes the device send a request. -/
  | ecpriOwdRemoteRequest (o : OwdMsg)
  /-- ECPRI_OWD_REMOTE_REQUEST_FOLLOW_UP (R351): A remote request with follow-up makes the device send a request with follow-up. -/
  | ecpriOwdRemoteRequestFollowUp (o : OwdMsg)
  /-- ECPRI_OWD_OTHER (R351): A type 5 message of another action type is dropped and counted. -/
  | ecpriOwdOther (o : OwdMsg)
  /-- LABEL_WORK_START (R269): After a frond's deliveries are queued, label ENCODE and mapping start for passed allocations. -/
  | labelWorkStart (f : Fin 6) (idx : BitVec 17) (work : List LabelEnc)
  /-- LABEL_RECORD_WRITE (R271): A finished label record is written to the silo when the bucket allows, or skipped. -/
  | labelRecordWrite (w : LabelRec)
  /-- EPOCH_START (R276): The training job snapshots the training ring and starts an epoch. -/
  | epochStart
  /-- TRAINING_STEP (R280): One batch runs forward, backward and the optimiser update. -/
  | trainingStep
  /-- CHECKPOINT_WRITE (R281): Every CKPT_STEPS steps, the training state is written to the older checkpoint area. -/
  | checkpointWrite
  /-- CANDIDATE_SUBMIT (R283): The training program submits a candidate set, which is quantised into the candidate slots. -/
  | candidateSubmit (cand : CandSub)
  /-- PROMOTION_GATE (R284): With 2,000 new held-out records, the gate runs incumbent and candidate on them. -/
  | promotionGate
  /-- GATE_COMPLETE (R285): The gate figures are compared, and the set is scheduled for promotion or rejected. -/
  | gateComplete
  /-- WATCH_END (R287): At the end of the watch the rollback test runs, and a set that passes is settled. -/
  | watchEnd
  /-- ROLLBACK_REQUEST (R288): A write of ROLLBACK during a watch schedules a rollback, or is ignored outside one. -/
  | rollbackRequest (agent : Byte) (val : Word)
  /-- MODEL_PERSIST (R290): A settled set differing from the persisted one is sealed into the free checkpoint half. -/
  | modelPersist
  /-- MODEL_PERSIST_DONE (R290): The flash write of a persisted set completes and EV_MODEL_PERSISTED is raised. -/
  | modelPersistDone
  /-- SLICE_END (R327): A background job's slice ends, and its fronds stop issuing new work. -/
  | sliceEnd (ring : BitVec 6)
  /-- SLICE_SWITCH_START (R327): The last non-preemptible unit completes and the switch starts, charging any overrun. -/
  | sliceSwitchStart (ring : BitVec 6)
  /-- SLICE_STUCK (R327): The overrun reaches 100 µs, EV_JOB_SLICE_STUCK is raised and the outgoing job faults. -/
  | sliceStuck (ring : BitVec 6)
  /-- SLICE_SWITCH_COMPLETE (R328): The save and reload complete and the incoming job runs. -/
  | sliceSwitchComplete (ring : BitVec 6)
  /-- JOB_REBIND_BOUNDARY (R336): At the re-bind boundary, changed jobs stop, resources pass and the jobs restart. -/
  | jobRebindBoundary
  /-- RZ_FRAME_DROP (R357): A rhizome frame with a bad header or reserved kind is dropped. -/
  | rzFrameDrop (fr : RzFrame)
  /-- RZ_FRAME_FORWARD (R360): A rhizome frame not for this device is forwarded by range, or dropped without hops or route. -/
  | rzFrameForward (fr : RzFrame)
  /-- HELLO (R360): A HELLO is checked against PEER_ID and GROUP_ID. -/
  | hello (fr : RzFrame)
  /-- DELAY_REQ (R362): A rhizome link delay request is answered with DELAY_RSP. -/
  | delayReq (fr : RzFrame)
  /-- DELAY_RSP (R362): A link delay response updates the port's mean delay. -/
  | delayRsp (fr : RzFrame)
  /-- BEACON (R363): A leader BEACON updates the group offset and is forwarded with CORR. -/
  | beacon (fr : RzFrame)
  /-- JOIN (R366): At the leader, a JOIN record is compared, and the device is admitted or refused. -/
  | join (fr : RzFrame)
  /-- ADMIT (R366): An ADMIT tells a device that it has been admitted. -/
  | admitFrame (fr : RzFrame)
  /-- REFUSE (R366): A REFUSE makes the device raise EV_GRP_REFUSED. -/
  | refuse (fr : RzFrame)
  /-- MEMBERSHIP (R367): A MEMBERSHIP names admitted and fenced members and their edge. -/
  | membership (fr : RzFrame)
  /-- FENCE_REQ (R368): At the leader, a member's FENCE_REQ fences it. -/
  | fenceReq (fr : RzFrame)
  /-- DIGEST (R368): At the leader, a member's DIGEST is compared, and a mismatch fences the member. -/
  | digest (fr : RzFrame)
  /-- RED_UP (R370): A child's reduction part arrives, is combined in fixed order and sent up. -/
  | redUp (fr : RzFrame)
  /-- RED_DOWN (R370): A reduction result part arrives from the parent and passes down the tree. -/
  | redDown (fr : RzFrame)
  /-- BAR_ARRIVE (R376): A barrier arrival passes up once the whole subtree has arrived. -/
  | barArrive (fr : RzFrame)
  /-- BAR_RELEASE (R376): A barrier release schedules the local release time from BUDGET and CORR. -/
  | barRelease (fr : RzFrame)
  /-- BARRIER_RELEASE_TIME (R376): The local release time is reached, and the barrier status is written and posted. -/
  | barrierReleaseTime (f : Fin 6) (rtag : BitVec 16) (slotIdx : Word)
  /-- PAIR_SYNC (R378): A pair partner's slot digests are compared, and blocks are exchanged on a mismatch. -/
  | pairSync (fr : RzFrame)
  /-- PAIR_BLOCKS (R378): Block CRCs locate the first differing block and raise EV_PAIR_DIVERGE. -/
  | pairBlocks (fr : RzFrame)
  /-- PAIR_MODEL (R379): The standby receives a promoted set or rollback from the primary and acknowledges it. -/
  | pairModel (fr : RzFrame)
  /-- RZ_LINK_TIMER (R362): Every 10 ms, each rhizome port sends HELLO and measures link delay. -/
  | rzLinkTimer (p : Fin 4)
  /-- BEACON_TIMER (R363): Every 100 ms the leader broadcasts a BEACON. -/
  | beaconTimer
  /-- BEACON_TIMEOUT (R364): Missing BEACONs make a device found a group or make a ranked member become leader. -/
  | beaconTimeout
  /-- JOIN_RETRY (R366): Every 1 s, a device outside the group sends JOIN. -/
  | joinRetry
  /-- DIGEST_TIMER (R368): Every 1 s, a member sends its DIGEST, and the leader checks for two missing. -/
  | digestTimer
  /-- RZ_CMD_PUSH (R373): A write of PUSH queues the group command held in RZ_CMDf_W0 to W7. -/
  | rzCmdPush (agent : Byte) (f : Fin 6) (val : Word)
  /-- REDUCE (R370): A group REDUCE command contributes to a fixed-order reduction tree. -/
  | reduce (f : Fin 6)
  /-- BCAST (R373): A group BCAST command sends data from rank 0 to every member. -/
  | bcast (f : Fin 6)
  /-- GROUP_BARRIER (R376): A group BARRIER command sends BAR_ARRIVE up the tree. -/
  | groupBarrier (f : Fin 6)
  /-- GROUP_OP_DEADLINE (R374): A node lacking an input at DL fails the operation for every member. -/
  | groupOpDeadline (f : Fin 6) (rtag : BitVec 16) (slotIdx : Word)
  /-- RZ_LINK_CHANGE (R360): A rhizome link goes up or down, possibly triggering takeover under LTO. -/
  | rzLinkChange (p : Fin 4) (up : Bool)
  /-- TIME_INCR_WRITE (R384): A write of TIME_d_INCR_HI applies the 48-bit increment at the next tick. -/
  | timeIncrWrite (agent : Byte) (dom : Dom) (val : Word)
  /-- TIME_STEP (R385): A write of GO to TIME_d_STEP_CTL steps the domain, or refuses the step. -/
  | timeStep (agent : Byte) (dom : Dom) (val : Word)
  /-- TIME_SET (R386): A write of GO to TIME_d_SET_NS loads the domain's time and puts it in ACQUIRING. -/
  | timeSet (agent : Byte) (dom : Dom) (val : Word)
  /-- TIME_LOCK (R389): A write of LOCK declares the domain LOCKED. -/
  | timeLock (agent : Byte) (dom : Dom) (val : Word)
  /-- TIME_UNLOCK (R389): A write of UNLOCK returns the domain to ACQUIRING. -/
  | timeUnlock (agent : Byte) (dom : Dom) (val : Word)
  /-- HANDOVER_FOLLOW (R397): A write of FOLLOW 1 or 2 makes one domain follow the other. -/
  | handoverFollow (agent : Byte) (val : Word)
  /-- HANDOVER_RELEASE (R397): A write of FOLLOW 0 releases the follower into HOLDOVER. -/
  | handoverRelease (agent : Byte) (val : Word)
  /-- TIME_HOLDOVER_ENTRY (R389): A LOCKED domain with no servo write for 2 s enters HOLDOVER. -/
  | timeHoldoverEntry (dom : Dom)
  /-- TIME_HOLDOVER_EXPIRY (R389): After HOLD_S seconds in HOLDOVER the domain becomes EXPIRED. -/
  | timeHoldoverExpiry (dom : Dom)
  /-- SERVO_SOURCE_REGAINED (R476): The internal servo regains a source and steps, slews or sets the domain. -/
  | servoSourceRegained (dom : Dom) (ofs : Int)
  /-- PTP_ANNOUNCE (R391): A PTP Announce is taken into master selection. -/
  | ptpAnnounce (dom : Dom) (m : PtpMsg)
  /-- PTP_SYNC (R391): A PTP Sync is stamped and recorded. -/
  | ptpSync (dom : Dom) (m : PtpMsg)
  /-- PTP_FOLLOW_UP (R391): A PTP Follow_Up completes a two-step Sync. -/
  | ptpFollowUp (dom : Dom) (m : PtpMsg)
  /-- PTP_DELAY_RESP (R394): A PTP Delay_Resp completes the exchange record and drives the internal servo. -/
  | ptpDelayResp (dom : Dom) (m : PtpMsg)
  /-- PTP_DELAY_REQ_TIMER (R391): At the master's interval, a Delay_Req is sent and stamped. -/
  | ptpDelayReqTimer (dom : Dom)
  /-- PTP_ANNOUNCE_TIMEOUT (R391): No Announce for 3 intervals counts as a lost source. -/
  | ptpAnnounceTimeout (dom : Dom)
  /-- PTP_FRAME_DROP (R391): A PTP message of another type or domain is dropped and counted. -/
  | ptpFrameDrop (dom : Dom) (m : PtpMsg)
  /-- PPS_OUT_PULSE (R396): At each second boundary of its domain, PPS_OUT rises for WIDTH ms. -/
  | ppsOutPulse
  /-- OP_POINT_DECISION (R403): Every 10 µs an island moves its operating point from queue occupancy within its floor and ceiling. -/
  | opPointDecision (isl : Fin 13) (occ : Nat) (depth : Nat)
  /-- OP_POINT_CHANGE_DONE (R404): A change of operating point finishes its voltage and frequency steps. -/
  | opPointChangeDone (isl : Fin 13)
  /-- DROOP_DETECT (R405): A supply droop stretches the island clock and pauses any change of point. -/
  | droopDetect (isl : Fin 13)
  /-- DROOP_CLEAR (R405): After droop has been clear for 10 µs, a waiting change of point resumes. -/
  | droopClear (isl : Fin 13)
  /-- OP_CHANGE_ABANDON (R405): A change that has waited 1 ms is abandoned and the island returns to its old point. -/
  | opChangeAbandon (isl : Fin 13)
  /-- CAP_CONTROL_TICK (R407): Every 10 µs the cap controller tightens, holds or relaxes its stages against C. -/
  | capControlTick (rep : PowerRep)
  /-- SHED_SAVING_MEASURE (R410): 100 µs after a shed, the saving is recorded and EV_CAP_SHED is raised. -/
  | shedSavingMeasure (p : Nat)
  /-- PWR_CAP_WRITE (R406): A firmware or MG write of PWR_CAP, ignored when outside 240 to 720. -/
  | pwrCapWrite (agent : Byte) (val : Word)
  /-- POWER_TRANSITION_COMPLETE (R412): A transition between RUN, HOLD and KEEP completes and raises EV_PWR_STATE. -/
  | powerTransitionComplete
  /-- KEEP_WAKE_TIME (R413): Domain A reaches the wake time, and the device leaves KEEP. -/
  | keepWakeTime
  /-- THERMAL_SAMPLE (R414): Every 100 µs the junction sensors are read and the throttle and trip rules are applied. -/
  | thermalSample (temps : List (BitVec 16))
  /-- FABRIC_TIMEOUT (R417): A fabric request unanswered after TO_US ends with an error and is charged as a fault. -/
  | fabricTimeout (src : Byte) (job : Option (Fin 16)) (loc : Loc) (addr : Addr) (testOk : Bool)
  /-- UNIT_WATCHDOG (R417): A unit making no progress for WD × 10 µs is charged a fault. -/
  | unitWatchdog (src : Byte) (unit_ : Byte) (loc : Loc) (testOk : Bool)
  /-- CE_RATE_CHECK (R421): Each uptime hour, locations with corrected words above CE_THR get a pattern test scheduled. -/
  | ceRateCheck
  /-- GRANARY_PATTERN_TEST_DONE (R420): An in-place granary bank test completes, and a failure makes the bank permanent. -/
  | granaryPatternTestDone (b : Fin 1024) (ok : Bool) (lost : List (Fin 8192))
  /-- HISTORY_EXPIRY (R419): A history entry 86,400 s old is removed. -/
  | historyExpiry (loc : Loc)
  /-- CALIBRATION (R428): Every 1 s, sensors, droop thresholds, regulators and time-stamp delays are calibrated. -/
  | calibration
  /-- JOURNAL_RECORD_WRITE (R430): A journal record is written to flash when erase credit allows, or an event record is dropped. -/
  | journalRecordWrite (programOk : Bool) (eraseOk : Bool)
  /-- UPTIME_RECORD (R430): Every uptime hour, an uptime record is journalled. -/
  | uptimeRecord
  /-- LANE_RETURN (R424): Writing 1 to a bit of FLT_LANE_RET over MG returns the lane to use. -/
  | laneReturn (agent : Byte) (mask : Word)
  /-- RZ_EGRESS_FRAME_END (R361): At each frame boundary of a rhizome port, the port picks the next frame by the four priority levels and the per-job level-4 buckets. -/
  | rzEgressFrameEnd (p : Fin 4)
  /-- HANDOVER_COUPLED (R397): A following domain that has been slewing closes its gap to below 1 ns, sets COUPLED and from then on adds the leader's INCR alone. -/
  | handoverCoupled (dom : Dom)
  /-- SHARE_BUCKET_CREDIT (R353): A job's egress token bucket on an idle port refills enough for its waiting control frame, or its waiting level-4 rhizome frame under R361, and the frame starts. -/
  | shareBucketCredit (p : Fin 4) (rz : Bool) (job : Fin 16)
  deriving DecidableEq, Repr

end Sys2Proof
end

