-- ==== Sys2Proof/Decode.lean ====
section
/-!
DEFINITION. The command that a word spells. The rows of the table give no bits and the block has no instruction words, so no word spells a command.
-/
namespace Sys2Proof

/-- The command spelled by the low `nbits` bits of `w`: none, because spec/opcode_table.json gives no row any bits. -/
def decodeTableWord (_nbits _w : Nat) : Option Instr := none

end Sys2Proof
end

