-- ==== Sys2Proof/Config.lean ====
section
/-!
DEFINITION. What an implementation fixes and the free values: constants with no body, so that no proof can rest on a value of theirs (log 5).
-/
namespace Sys2Proof.Config

/-- A free 32-bit value: the n-th value the spec leaves open. -/
opaque freeWord : Nat → BitVec 32

/-- A free byte string of a length. -/
opaque freeBytes : Nat → Nat → List Byte

/-- Sign and mantissa of a NaN result in a format of a width: the spec gives the value NaN, not its code. -/
opaque nanBits : Nat → Nat

/-- The special functions' results within the bound of R180, and where R180 states none: function, type, operand code. -/
opaque specialFn : Nat → Nat → Nat → Nat

/-- How many messages the MG port's queue holds before it is full (R35 gives no depth). -/
opaque mgQueueDepth : Nat

/-- SHA-384 of a byte string (FIPS 180-4, named by R42; its definition is not in the spec). -/
opaque sha384 : List Byte → List Byte

/-- Whether an ECDSA P-384 signature over a message is valid under a public key (FIPS 186-5, named by R42): key, message, signature. -/
opaque ecdsaOk : List Byte → List Byte → List Byte → Bool

/-- An ECDSA P-384 signature by the device identity key (R438). -/
opaque ecdsaSign : List Byte → List Byte

/-- AES-256-GCM decryption (R46): key, nonce, additional data, ciphertext with its tag; none when the tag fails. -/
opaque gcmOpen : List Byte → List Byte → List Byte → List Byte → Option (List Byte)

/-- AES-256-GCM encryption (R289): key, nonce, additional data, plaintext; ciphertext and tag. -/
opaque gcmSeal : List Byte → List Byte → List Byte → List Byte → List Byte

/-- The storage key derived from DUS and OWNER_SEED, or from DUS alone (R438). -/
opaque storageKey : Bool → List Byte

/-- Pilot values (R206): the rule stands in the stream graph section, whose layout the spec does not give, so the value is a function of the section's bytes, PPAT, SEQ_ID, slot index, symbol, pattern layer, subcarrier and part (true: imaginary), in 2^-30 units (log 8). -/
opaque pilot : List Byte → List Nat → Bool → Int

/-- ang of a sum that is zero (R219 states none). -/
opaque angZero : BitVec 32

/-- 10 log10 of a power ratio with a zero in it, in 0.25 dB units (R226 states none): the powers. -/
opaque resOpen : Nat → Nat → BitVec 16

/-- An equalised symbol of R225, in 2^-8 units of R261's: a row of the numerators of W, its denominator, its scale, z, and the part (true: imaginary). The spec gives neither the scale nor the rounding of W and z in CI8 (log 6). -/
opaque equalised : List (Int × Int) → Int → Nat → List (Int × Int) → Bool → Int

/-- The post-equalisation SINR of a layer (R225), in 2^-32 units: its diagonal numerator and denominator in W, and σ² as a fraction. The spec gives neither formula nor precision (log 6). -/
opaque sinr : Int → Int → Nat → Nat → Nat

/-- The max-log distance difference of π/2-BPSK (R225), whose constellation the spec does not give (log 29): equalised symbol, symbol number. -/
opaque bpsk : Int × Int → Nat → Int

/-- The gradient of a batch (R280), by the number of the weight: the batch's records, the working copies, the models and programs in use, and with DET = 0 a free number. The loss and the backward programs stand in image sections whose layout the spec does not give (log 29). -/
opaque gradient : List (List Byte) → List (BitVec 16) → List (List Byte) → List Nat → Nat → BitVec 32

/-- lr(t) of a model section as an FP32 code (R280): the section's bytes and t (log 29). -/
opaque learnRate : List Byte → Nat → BitVec 32

/-- LLR8 codes of the learned path over a silo record (R284): the models and scale records in use, the record's bytes, member, LLR. The programs stand in image sections whose layout the spec does not give (log 29). -/
opaque learnedLlr : List (List Byte) → List Byte → Nat → Nat → Byte

/-- Coded bits of a transport block whose graph's core does not fix the parities (log 25): ENCODE field, G and the block's bits. -/
opaque openCode : List Byte → Nat → List Bool → List Bool

end Sys2Proof.Config
end

