-- ==== Sys2Proof/Machine/Bits.lean ====
section
/-!
DEFINITION. Bit fields, byte order, sign extension, CRCs and sparse maps, used by every chapter.
-/
namespace Sys2Proof.Machine

/-- The field of `w` bits from bit `lo` of a number ("[msb:lsb]" of the spec's number conventions). -/
def bits (v lo w : Nat) : Nat := v >>> lo % 2 ^ w

/-- One bit of a number, as a Boolean. -/
def bit (v i : Nat) : Bool := v.testBit i

/-- A Boolean as one bit. -/
def b2n (b : Bool) : Nat := if b then 1 else 0

/-- The number whose field of `w` bits from `lo` is replaced by `x`. -/
def setBits (v lo w x : Nat) : Nat := v - (bits v lo w) <<< lo + (x % 2 ^ w) <<< lo

/-- Two's complement reading of the low `w` bits. -/
def sx (w v : Nat) : Int :=
  let x := v % 2 ^ w
  if 2 * x < 2 ^ w then x else (x : Int) - 2 ^ w

/-- The low `w` bits of an integer in two's complement. -/
def toBits (w : Nat) (i : Int) : Nat := (i % (2 ^ w : Nat)).toNat

/-- An integer held between two bounds. -/
def clampI (lo hi i : Int) : Int := if i < lo then lo else if i > hi then hi else i

/-- The most negative and most positive values of `w` bits. -/
def satS (w : Nat) (i : Int) : Int := clampI (-(2 ^ (w - 1) : Nat)) ((2 ^ (w - 1) : Nat) - 1) i

/-- Little-endian value of bytes (R6). -/
def leOf : List Byte → Nat
  | [] => 0
  | b :: bs => b.toNat + 256 * leOf bs

/-- Little-endian field of `n` bytes at offset `o` of a byte sequence; bytes past its end count as 0. -/
def le (bs : List Byte) (o n : Nat) : Nat := leOf ((bs.drop o).take n)

/-- Big-endian value of bytes, for fields of published standards that define them so (R6). -/
def beOf (bs : List Byte) : Nat := bs.foldl (fun a b => 256 * a + b.toNat) 0

/-- Big-endian field of `n` bytes at offset `o`. -/
def be (bs : List Byte) (o n : Nat) : Nat := beOf ((bs.drop o).take n)

/-- The `n` bytes of a number, little-endian (R6). -/
def toLE : Nat → Nat → List Byte
  | 0, _ => []
  | n + 1, v => BitVec.ofNat 8 v :: toLE n (v / 256)

/-- The `n` bytes of a number, big-endian. -/
def toBE (n v : Nat) : List Byte := (toLE n v).reverse

/-- `n` zero bytes. -/
def zeros (n : Nat) : List Byte := List.replicate n 0

/-- Byte `o` of a sequence as a number; 0 past its end. -/
def byteAt (bs : List Byte) (o : Nat) : Nat := (bs.getD o 0).toNat

/-- Whether all bytes of a range are 0. -/
def zeroRange (bs : List Byte) (o n : Nat) : Bool := ((bs.drop o).take n).all (· == 0)

/-- Quotient rounded up. -/
def ceilDiv (a b : Nat) : Nat := (a + b - 1) / b

/-- Number of 1 bits among the low `n` bits. -/
def popCount (n v : Nat) : Nat := (List.range n).countP (fun i => v.testBit i)

/-- The numbers below `n` whose bit of a mask is 1, ascending. -/
def bitsOn (n v : Nat) : List Nat := (List.range n).filter (fun i => v.testBit i)

/-- The mask whose listed bits are 1. -/
def maskOf (l : List Nat) : Nat := l.foldl (fun m i => m ||| (1 <<< i)) 0

/-- Signed 32-bit difference a - b of two compact times (R17). -/
def ctDiff (a b : Nat) : Int := sx 32 (a % 2 ^ 32 + 2 ^ 32 - b % 2 ^ 32)

/-- One byte of the reflected CRC-32 of IEEE 802.3, bit by bit. -/
def crc32Bits : Nat → Nat → Nat
  | 0, c => c
  | n + 1, c => crc32Bits n (if c % 2 = 1 then (c / 2) ^^^ 0xEDB88320 else c / 2)

/-- CRC-32 (IEEE 802.3 polynomial) of a byte sequence (R40): initial value and final inversion all ones (PRESUMED, log 10). -/
def crc32 (bs : List Byte) : Nat :=
  (bs.foldl (fun c b => crc32Bits 8 (c ^^^ b.toNat)) 0xFFFFFFFF) ^^^ 0xFFFFFFFF

/-- Remainder of a bit sequence, most significant first, followed by `w` zeros, by a CRC polynomial of degree `w` (its low bits given), initial value 0. -/
def crcMsb (w poly : Nat) (bs : List Bool) : Nat :=
  bs.foldl (fun c b =>
    let top := c.testBit (w - 1)
    let c' := (2 * c) % 2 ^ w
    if top != b then c' ^^^ poly else c') 0

/-! Sparse maps in canonical form: keys strictly rising, no entry equal to what an unlisted key reads as. -/

/-- What a sparse map holds at a key, `d` being what an unlisted key reads as. -/
def sget {α : Type} (d : α) : List (Nat × α) → Nat → α
  | [], _ => d
  | (k, v) :: m, a => if a = k then v else sget d m a

/-- The map with one key set; setting `d` removes the entry. -/
def sset {α : Type} [DecidableEq α] (d : α) (m : List (Nat × α)) (a : Nat) (x : α) : List (Nat × α) :=
  m.filter (fun e => decide (e.1 < a)) ++ (if x = d then [] else [(a, x)]) ++ m.filter (fun e => decide (a < e.1))

/-- Keys strictly rising from a bound. -/
def srising {α : Type} : Nat → List (Nat × α) → Bool
  | _, [] => true
  | b, (k, _) :: m => decide (b ≤ k) && srising (k + 1) m

/-- The canonical form of a sparse map. -/
def swf {α : Type} [DecidableEq α] (d : Nat → α) (m : List (Nat × α)) : Bool :=
  srising 0 m && m.all (fun p => decide (p.2 ≠ d p.1))

/-- The sub-map of keys that a predicate keeps. -/
def sfilter {α : Type} (p : Nat → Bool) (m : List (Nat × α)) : List (Nat × α) := m.filter (fun e => p e.1)

end Sys2Proof.Machine
end

