-- ==== Sys2Proof/Machine/Format.lean ====
section
/-!
DEFINITION. Number formats (04, R99 to R105): decoding to exact values, and rounding to nearest even with saturation.
A number is a sign, a magnitude and a power of two; the sign of a zero is kept.
-/
namespace Sys2Proof.Machine

/-- The value of a floating-point code: NaN, an infinity, or exactly (-1)^neg * m * 2^e. -/
inductive Num where
  | nan
  | inf (neg : Bool)
  | fin (neg : Bool) (m : Nat) (e : Int)
  deriving DecidableEq, Repr

/-- Layout of a floating-point format: exponent and mantissa bits; whether the top exponent is an ordinary one whose all-ones mantissa is NaN (FP8-E4M3), whether subnormal results become zero. -/
structure FpFmt where
  eb    : Nat
  mb    : Nat
  e4m3  : Bool
  flush : Bool
  deriving DecidableEq, Repr

/-- FP8-E4M3 (R99). -/
def fp8e4m3 : FpFmt := ⟨4, 3, true, false⟩
/-- FP8-E5M2 (R99). -/
def fp8e5m2 : FpFmt := ⟨5, 2, false, false⟩
/-- FP16 (R99); FP16 results keep subnormals (R117). -/
def fp16 : FpFmt := ⟨5, 10, false, false⟩
/-- BF16 (R99); results below the smallest normal value become zero with their sign (R117), and so do subnormal operands (R101). -/
def bf16 : FpFmt := ⟨8, 7, false, true⟩
/-- FP32 (R99); results below the smallest normal value become zero with their sign (R104). -/
def fp32 : FpFmt := ⟨8, 23, false, true⟩

/-- Exponent bias. -/
def FpFmt.bias (f : FpFmt) : Nat := 2 ^ (f.eb - 1) - 1

/-- Bits of one code. -/
def FpFmt.width (f : FpFmt) : Nat := 1 + f.eb + f.mb

/-- Largest exponent code of a finite value. -/
def FpFmt.topE (f : FpFmt) : Nat := if f.e4m3 then 2 ^ f.eb - 1 else 2 ^ f.eb - 2

/-- Largest mantissa at the largest exponent. -/
def FpFmt.topM (f : FpFmt) : Nat := if f.e4m3 then 2 ^ f.mb - 2 else 2 ^ f.mb - 1

/-- Code of the largest finite value with a sign. -/
def FpFmt.maxCode (f : FpFmt) (neg : Bool) : Nat :=
  b2n neg <<< (f.eb + f.mb) + f.topE <<< f.mb + f.topM

/-- Code of an infinity with a sign. -/
def FpFmt.infCode (f : FpFmt) (neg : Bool) : Nat := b2n neg <<< (f.eb + f.mb) + (2 ^ f.eb - 1) <<< f.mb

/-- The largest finite value with a sign. -/
def FpFmt.maxNum (f : FpFmt) (neg : Bool) : Num :=
  .fin neg (2 ^ f.mb + f.topM) ((f.topE : Int) - f.bias - f.mb)

/-- A NaN code of the format: the one code of FP8-E4M3; elsewhere the sign and the mantissa of a NaN result are open (log 5). -/
def FpFmt.nanCode (f : FpFmt) : Nat :=
  let x := Config.nanBits f.width
  if f.e4m3 then 2 ^ (f.eb + f.mb) - 1 + (x % 2) <<< (f.eb + f.mb)
  else (x % 2) <<< (f.eb + f.mb) + (2 ^ f.eb - 1) <<< f.mb + (x / 2 % (2 ^ f.mb - 1) + 1)

/-- The value of a code (R99); `daz` reads a subnormal as zero with its sign. -/
def FpFmt.decode (f : FpFmt) (daz : Bool) (v : Nat) : Num :=
  let neg := v.testBit (f.eb + f.mb)
  let e := bits v f.mb f.eb
  let m := bits v 0 f.mb
  if e > f.topE then (if m = 0 then .inf neg else .nan)
  else if f.e4m3 && e == f.topE && m > f.topM then .nan
  else if e = 0 then
    (if daz then .fin neg 0 0 else .fin neg m (1 - (f.bias : Int) - f.mb))
  else .fin neg (2 ^ f.mb + m) ((e : Int) - f.bias - f.mb)

/-- The value the cube array reads from a code (R101): an infinity counts as the largest finite value, and subnormal BF16 operands count as zero. -/
def FpFmt.arrayNum (f : FpFmt) (v : Nat) : Num :=
  match f.decode (f.eb == 8 && f.mb == 7) v with
  | .inf n => f.maxNum n
  | x => x

/-- m / 2^k rounded half to even. -/
def rneShift (m k : Nat) : Nat :=
  let q := m >>> k
  let r := m % 2 ^ k
  if 2 * r > 2 ^ k ∨ (2 * r = 2 ^ k ∧ q % 2 = 1) then q + 1 else q

/-- m * 2^e rounded half to even to a whole number (R103). -/
def rneScale (m : Nat) (e : Int) : Nat :=
  if e ≥ 0 then m <<< e.toNat else rneShift m (-e).toNat

/-- The quotient of two numbers rounded half to even. -/
def rneDiv (a b : Nat) : Nat :=
  let q := a / b
  let r := a % b
  if 2 * r > b ∨ (2 * r = b ∧ q % 2 = 1) then q + 1 else q

/-- The quotient of an integer by a positive number rounded half to even (R103). -/
def rneDivI (a : Int) (b : Nat) : Int := let q := rneDiv a.natAbs b; if a < 0 then -(q : Int) else q

/-- Rounds an exact value to the format (R103, R104): nearest even, largest finite beyond the range; answers the code and whether a largest-finite limit was taken. A NaN takes the format's NaN code, an infinity its largest finite value. -/
def FpFmt.encode (f : FpFmt) : Num → Nat × Bool
  | .nan => (f.nanCode, false)
  | .inf n => (f.maxCode n, true)
  | .fin n m e =>
    let s := b2n n <<< (f.eb + f.mb)
    if m = 0 then (s, false)
    else
      let emin : Int := 1 - f.bias
      let top : Int := (Nat.log2 m : Int) + e
      let q : Int := max (top - f.mb) (emin - f.mb)
      let u := rneScale m (e - q)
      -- rounding may carry into the next power of two
      let (u, q) := if u ≥ 2 ^ (f.mb + 1) then (u / 2, q + 1) else (u, q)
      if u < 2 ^ f.mb then (if f.flush then (s, false) else (s + u, false))
      else
        let ec : Int := q + f.mb + f.bias
        if ec > f.topE ∨ (ec = f.topE ∧ u - 2 ^ f.mb > f.topM) then (f.maxCode n, true)
        else (s + ec.toNat <<< f.mb + (u - 2 ^ f.mb), false)

/-- Sign of a sum that is exactly zero: negative only when both terms are (PRESUMED IEEE 754, log 11). -/
def Num.add : Num → Num → Num
  | .nan, _ => .nan
  | _, .nan => .nan
  | .inf a, .inf b => if a = b then .inf a else .nan
  | .inf a, _ => .inf a
  | _, .inf b => .inf b
  | .fin an am ae, .fin bn bm be =>
    let e := min ae be
    let x : Nat := am <<< (ae - e).toNat
    let y : Nat := bm <<< (be - e).toNat
    if an = bn then .fin an (x + y) e
    else if x = y then .fin false 0 0
    else if x > y then .fin an (x - y) e else .fin bn (y - x) e

/-- Exact product. -/
def Num.mul : Num → Num → Num
  | .nan, _ => .nan
  | _, .nan => .nan
  | .inf a, .inf b => .inf (a != b)
  | .inf a, .fin n m _ => if m = 0 then .nan else .inf (a != n)
  | .fin n m _, .inf b => if m = 0 then .nan else .inf (n != b)
  | .fin an am ae, .fin bn bm be => .fin (an != bn) (am * bm) (ae + be)

/-- Negation of the sign. -/
def Num.neg : Num → Num
  | .nan => .nan
  | .inf n => .inf (!n)
  | .fin n m e => .fin (!n) m e

/-- Magnitude. -/
def Num.abs : Num → Num
  | .nan => .nan
  | .inf _ => .inf false
  | .fin _ m e => .fin false m e

/-- An integer as a number. -/
def Num.ofInt (i : Int) : Num := .fin (decide (i < 0)) i.natAbs 0

/-- An integer times a power of two. -/
def Num.scaled (i : Int) (e : Int) : Num := .fin (decide (i < 0)) i.natAbs e

/-- Times a power of two. -/
def Num.scale (k : Int) : Num → Num
  | .fin n m e => .fin n m (e + k)
  | x => x

/-- Whether a < b; false with a NaN. Both zeros compare equal. -/
def Num.lt : Num → Num → Bool
  | .nan, _ => false
  | _, .nan => false
  | .inf a, .inf b => a && !b
  | .inf a, _ => a
  | _, .inf b => !b
  | .fin an am ae, .fin bn bm be =>
    let e := min ae be
    let x : Int := (if an then -1 else 1) * (am <<< (ae - e).toNat : Nat)
    let y : Int := (if bn then -1 else 1) * (bm <<< (be - e).toNat : Nat)
    decide (x < y)

/-- Whether two values are equal; false with a NaN. -/
def Num.eq (a b : Num) : Bool :=
  match a, b with
  | .nan, _ => false
  | _, .nan => false
  | _, _ => !a.lt b && !b.lt a

/-- Whether a value is zero. -/
def Num.isZero : Num → Bool
  | .fin _ m _ => m == 0
  | _ => false

/-- floor(log2 |v|) of a non-zero finite value (R120). -/
def Num.expo : Num → Option Int
  | .fin _ m e => if m = 0 then none else some ((Nat.log2 m : Int) + e)
  | _ => none

/-- Rounds half to even to an integer; NaN answers none, an infinity a value beyond every format. -/
def Num.toIntRne : Num → Option Int
  | .nan => none
  | .inf n => some (if n then -(2 ^ 200 : Nat) else (2 ^ 200 : Nat))
  | .fin n m e => let u := rneScale m e; some (if n then -(u : Int) else u)

/-- FP32 code of an exact value, rounded once (R104). -/
def toF32 (x : Num) : Nat := (fp32.encode x).1

/-- Value of an FP32 code as an accumulator element holds it. R104 leaves no subnormal and no infinity there; of a code written from outside, a subnormal reads as zero and an infinity drains as the largest finite value, counted as saturated (DESIGN CHOICE, log 21). -/
def ofF32 (v : Nat) : Num := fp32.decode true v

/-- FP32 sum of two codes, rounded once (R104 steps 3 and 4). -/
def addF32 (a b : Nat) : Nat := toF32 ((ofF32 a).add (ofF32 b))

/-- Smallest n with -2^n ≤ u ≤ 2^n - 1 (R117). -/
def bitsNeeded (u : Int) : Nat :=
  let a := if u < 0 then (-u - 1).toNat else u.toNat
  if a = 0 then 0 else Nat.log2 a + 1

/-- An LLR8 code's value q (R99, R102): 0x80 reads as -127. -/
def llr8 (b : Byte) : Int := if b = 0x80 then -127 else b.toInt

/-- The LLR8 code of a value in quarters (R105): clamped to -127 and 127. -/
def toLlr8 (q : Int) : Byte := BitVec.ofInt 8 (clampI (-127) 127 q)

end Sys2Proof.Machine
end

