-- ==== Sys2Proof/Machine/RegMap.lean ====
section
/-!
DEFINITION. The register map (R7, R8, R10, R11, R28): every register table of the spec as data, with each field's place, access code, reset value and narrowest reset source; and the name of every field.
Registers of a frond block are given for F0; frond n lies 0x1_0000 x n higher.
A field whose Reset column names Fuse, Record, Input, Strap, Table, Image, Checkpoint or Persisted has 0 here and is read from the state named (Machine/RegRead.lean) or loaded at its reset.
-/
namespace Sys2Proof.Machine

/-- The access codes of R8. -/
inductive Acc where
  | ro | w1c | rc | img | fw | fwmg | mg
  deriving DecidableEq, Repr

/-- The reset sources of R10, narrowest first. -/
inductive Src where
  | job | img | warm | por
  deriving DecidableEq, Repr

/-- The order of R10: a source also performs what every narrower one performs. -/
def Src.rank : Src → Nat
  | .job => 0
  | .img => 1
  | .warm => 2
  | .por => 3

/-- One field of a register table that carries a function. -/
structure FieldSpec where
  lo    : Nat
  width : Nat
  acc   : Acc
  reset : Nat
  src   : Src
  deriving DecidableEq, Repr

/-- One register table: the first register's device address, how many registers it stands for and their distance, whether each frond has one, and the fields. -/
structure RegSpec where
  base   : Nat
  count  : Nat
  stride : Nat
  frond  : Bool
  fields : List FieldSpec
  deriving DecidableEq, Repr

/-- The place of one field: the register's device address, lowest bit, width. -/
structure Fld where
  addr  : Nat
  lo    : Nat
  width : Nat
  deriving DecidableEq, Repr

/-- Registers of block SYS, part 0. -/
def regsSys0 : List RegSpec := [
  -- SYS_ID_PART (R59)
  ⟨0x0, 1, 4, false, [⟨0, 16, .ro, 0x7160, .por⟩, ⟨16, 4, .ro, 1, .por⟩, ⟨20, 4, .ro, 2, .por⟩, ⟨24, 1, .ro, 0, .por⟩]⟩,
  -- SYS_ID_LOT_LO (R59)
  ⟨0x4, 1, 4, false, [⟨0, 30, .ro, 0, .por⟩]⟩,
  -- SYS_ID_LOT_HI (R59)
  ⟨0x8, 1, 4, false, [⟨0, 6, .ro, 0, .por⟩, ⟨6, 5, .ro, 0, .por⟩, ⟨11, 7, .ro, 0, .por⟩, ⟨18, 7, .ro, 0, .por⟩]⟩,
  -- SYS_ID_UID_LO (R59)
  ⟨0xC, 1, 4, false, [⟨0, 32, .ro, 0, .por⟩]⟩,
  -- SYS_ID_UID_HI (R59)
  ⟨0x10, 1, 4, false, [⟨0, 32, .ro, 0, .por⟩]⟩,
  -- SYS_EVR_BASE (R38)
  ⟨0x100, 1, 4, false, [⟨0, 11, .img, 0x7ff, .img⟩, ⟨31, 1, .ro, 0, .img⟩]⟩,
  -- SYS_EVR_WR_IDX (R38)
  ⟨0x104, 1, 4, false, [⟨0, 12, .ro, 0, .por⟩]⟩,
  -- SYS_EVR_RD_IDX (R38)
  ⟨0x108, 1, 4, false, [⟨0, 12, .fwmg, 0, .por⟩]⟩,
  -- SYS_EVR_OVF_CNT (R38)
  ⟨0x10C, 1, 4, false, [⟨0, 32, .rc, 0, .por⟩]⟩,
  -- SYS_EVR_MIRROR_DROP_CNT (R38)
  ⟨0x110, 1, 4, false, [⟨0, 32, .rc, 0, .warm⟩]⟩,
  -- SYS_EVR_SEQ (R38)
  ⟨0x114, 1, 4, false, [⟨0, 32, .ro, 0, .por⟩]⟩,
  -- SYS_EVR_MIRROR_MASK (R36)
  ⟨0x118, 1, 4, false, [⟨0, 16, .fwmg, 0xffff, .warm⟩]⟩,
  -- SYS_UNMAPPED_CNT (R29)
  ⟨0x120, 1, 4, false, [⟨0, 32, .rc, 0, .warm⟩]⟩,
  -- SYS_UNMAPPED_ADDR_LO (R29)
  ⟨0x124, 1, 4, false, [⟨0, 32, .ro, 0, .warm⟩]⟩,
  -- SYS_UNMAPPED_ADDR_HI (R29)
  ⟨0x128, 1, 4, false, [⟨0, 16, .ro, 0, .warm⟩, ⟨16, 8, .ro, 0, .warm⟩, ⟨31, 1, .ro, 0, .warm⟩]⟩,
  -- SYS_WR_IGN_CNT (R30)
  ⟨0x12C, 1, 4, false, [⟨0, 32, .rc, 0, .warm⟩]⟩,
  -- MG_PEER_MAC_LO (R60)
  ⟨0x130, 1, 4, false, [⟨0, 32, .img, 0, .img⟩]⟩,
  -- MG_PEER_MAC_HI (R60)
  ⟨0x134, 1, 4, false, [⟨0, 16, .img, 0, .img⟩]⟩,
  -- MG_DROP_CNT (R60)
  ⟨0x138, 1, 4, false, [⟨0, 32, .rc, 0, .warm⟩]⟩,
  -- SYS_PIN_STS (R471)
  ⟨0x200, 1, 4, false, [⟨0, 1, .ro, 0, .por⟩, ⟨1, 1, .ro, 0, .por⟩, ⟨2, 1, .ro, 0, .por⟩, ⟨3, 1, .ro, 0, .por⟩, ⟨4, 1, .ro, 0, .por⟩, ⟨5, 1, .ro, 0, .por⟩, ⟨6, 1, .ro, 0, .por⟩, ⟨7, 3, .ro, 0, .por⟩, ⟨10, 1, .ro, 0, .por⟩, ⟨11, 1, .ro, 0, .warm⟩]⟩
  ]

/-- Registers of block SYS, part 1. -/
def regsSys1 : List RegSpec := [
  -- SYS_RAIL_STS (R471)
  ⟨0x204, 1, 4, false, [⟨0, 8, .w1c, 0, .por⟩, ⟨8, 8, .ro, 0, .por⟩]⟩,
  -- SYS_PPS_RUNT_CNT (R471)
  ⟨0x210, 1, 4, false, [⟨0, 32, .rc, 0, .por⟩]⟩,
  -- SYS_PPS_EARLY_CNT (R471)
  ⟨0x214, 1, 4, false, [⟨0, 32, .rc, 0, .por⟩]⟩,
  -- SYS_CAPLIM_GLITCH_CNT (R471)
  ⟨0x218, 1, 4, false, [⟨0, 32, .rc, 0, .por⟩]⟩,
  -- SYS_SD_FLAP_CNT (R471)
  ⟨0x21C, 1, 4, false, [⟨0, 32, .rc, 0, .por⟩]⟩,
  -- SMB_PEC_ERR_CNT (R471)
  ⟨0x220, 1, 4, false, [⟨0, 32, .rc, 0, .por⟩]⟩,
  -- SMB_TIMEOUT_CNT (R471)
  ⟨0x224, 1, 4, false, [⟨0, 32, .rc, 0, .por⟩]⟩
  ]

/-- Registers of block SYS. -/
def regsSys : List RegSpec := regsSys0 ++ regsSys1

/-- Registers of block SEC. -/
def regsSec : List RegSpec := [
  -- SEC_LC (R454)
  ⟨0x10000, 1, 4, false, [⟨0, 3, .ro, 0, .por⟩]⟩,
  -- SEC_KEY_STS (R454)
  ⟨0x10004, 1, 4, false, [⟨0, 4, .ro, 0, .por⟩, ⟨4, 4, .ro, 0, .por⟩, ⟨8, 1, .ro, 0, .por⟩, ⟨9, 1, .ro, 0, .por⟩, ⟨10, 1, .ro, 0, .por⟩, ⟨11, 1, .ro, 0, .por⟩]⟩,
  -- SEC_ARB (R454)
  ⟨0x10008, 1, 4, false, [⟨0, 7, .ro, 0, .por⟩]⟩,
  -- SEC_DBG_STS (R454)
  ⟨0x1000C, 1, 4, false, [⟨0, 8, .ro, 0, .warm⟩, ⟨8, 1, .ro, 0, .warm⟩, ⟨9, 1, .ro, 0, .warm⟩, ⟨10, 1, .ro, 0, .warm⟩, ⟨11, 4, .ro, 0, .warm⟩]⟩,
  -- SEC_DBG_LEFT (R454)
  ⟨0x10010, 1, 4, false, [⟨0, 17, .ro, 0, .warm⟩]⟩,
  -- SEC_LOCK_LEFT (R454)
  ⟨0x10014, 1, 4, false, [⟨0, 12, .ro, 0, .por⟩]⟩,
  -- SEC_AUTH_FAIL_CNT (R454)
  ⟨0x10018, 1, 4, false, [⟨0, 32, .rc, 0, .por⟩]⟩,
  -- SEC_ZERO_CNT (R454)
  ⟨0x1001C, 1, 4, false, [⟨0, 32, .rc, 0, .por⟩]⟩
  ]

/-- Registers of block IMG. -/
def regsImg : List RegSpec := [
  -- IMG_SLOT_STS (R472)
  ⟨0x20000, 1, 4, false, [⟨0, 8, .ro, 0, .warm⟩, ⟨8, 8, .ro, 0, .warm⟩, ⟨16, 1, .ro, 0, .warm⟩, ⟨17, 1, .ro, 0, .warm⟩, ⟨18, 1, .ro, 0, .warm⟩, ⟨19, 1, .ro, 0, .warm⟩, ⟨20, 1, .ro, 0, .warm⟩, ⟨21, 1, .ro, 0, .warm⟩]⟩,
  -- IMG_DIR_GEN (R472)
  ⟨0x20004, 1, 4, false, [⟨0, 32, .ro, 0, .warm⟩]⟩
  ]

/-- Registers of block PWR. -/
def regsPwr : List RegSpec := [
  -- PWR_CAP (R415)
  ⟨0x30000, 1, 4, false, [⟨0, 10, .fwmg, 720, .img⟩]⟩,
  -- PWR_CAP_CFG (R415)
  ⟨0x30004, 1, 4, false, [⟨0, 10, .img, 720, .img⟩, ⟨16, 10, .img, 240, .img⟩]⟩,
  -- PWR_ISL_CFG (R415)
  ⟨0x30008, 1, 4, false, [⟨0, 3, .img, 0, .img⟩, ⟨3, 3, .img, 6, .img⟩, ⟨6, 3, .img, 0, .img⟩, ⟨9, 3, .img, 7, .img⟩, ⟨12, 3, .img, 0, .img⟩, ⟨15, 3, .img, 7, .img⟩]⟩,
  -- PWR_STS (R415)
  ⟨0x3000C, 1, 4, false, [⟨0, 2, .ro, 0, .warm⟩, ⟨2, 6, .ro, 0, .warm⟩, ⟨8, 3, .ro, 7, .warm⟩, ⟨11, 3, .ro, 7, .warm⟩, ⟨14, 1, .ro, 0, .warm⟩, ⟨15, 1, .ro, 0, .warm⟩, ⟨16, 16, .ro, 0, .warm⟩]⟩,
  -- PWR_POWER (R415)
  ⟨0x30010, 1, 4, false, [⟨0, 16, .ro, 0, .warm⟩]⟩,
  -- PWR_EFF_CAP (R415)
  ⟨0x30014, 1, 4, false, [⟨0, 16, .ro, 0, .warm⟩]⟩,
  -- PWR_TEMP (R415)
  ⟨0x30018, 1, 4, false, [⟨0, 16, .ro, 0, .por⟩, ⟨16, 5, .ro, 0, .por⟩]⟩,
  -- PWR_CEIL (R415)
  ⟨0x3001C, 1, 4, false, [⟨0, 3, .ro, 7, .warm⟩, ⟨3, 3, .ro, 7, .warm⟩, ⟨6, 3, .ro, 7, .warm⟩]⟩,
  -- PWR_BUBBLE_CNT (R415)
  ⟨0x30020, 1, 4, false, [⟨0, 32, .rc, 0, .warm⟩]⟩,
  -- PWR_SHED_CNT (R415)
  ⟨0x30024, 1, 4, false, [⟨0, 32, .rc, 0, .warm⟩]⟩,
  -- PWR_DROOP_CNT (R415)
  ⟨0x30028, 1, 4, false, [⟨0, 32, .rc, 0, .warm⟩]⟩,
  -- PWR_OP_ABANDON_CNT (R415)
  ⟨0x3002C, 1, 4, false, [⟨0, 32, .rc, 0, .warm⟩]⟩,
  -- PWR_THROTTLE_CNT (R415)
  ⟨0x30030, 1, 4, false, [⟨0, 32, .rc, 0, .por⟩]⟩
  ]

/-- Registers of block TIME, part 0. -/
def regsTime0 : List RegSpec := [
  -- TIME_STS (R401)
  ⟨0x40000, 1, 4, false, [⟨0, 1, .ro, 0, .warm⟩, ⟨1, 1, .ro, 0, .warm⟩]⟩,
  -- TIME_PPS_CFG (R401)
  ⟨0x40004, 1, 4, false, [⟨0, 1, .img, 0, .img⟩, ⟨1, 1, .img, 0, .img⟩, ⟨2, 9, .img, 100, .img⟩]⟩,
  -- TIME_HO_CFG (R401)
  ⟨0x40008, 1, 4, false, [⟨0, 1, .img, 0, .img⟩, ⟨1, 7, .img, 10, .img⟩, ⟨8, 16, .img, 10, .img⟩]⟩,
  -- TIME_HO_CTL (R401)
  ⟨0x4000C, 1, 4, false, [⟨0, 2, .fwmg, 0, .warm⟩]⟩,
  -- TIME_PPS_FAIL_CNT (R401)
  ⟨0x40010, 1, 4, false, [⟨0, 32, .rc, 0, .warm⟩]⟩,
  -- TIME_d_CFG (R401)
  ⟨0x40100, 2, 256, false, [⟨0, 5, .img, 0, .img⟩, ⟨5, 1, .img, 0, .img⟩, ⟨6, 1, .img, 0, .img⟩, ⟨7, 1, .img, 0, .img⟩, ⟨8, 1, .img, 1, .img⟩, ⟨16, 8, .img, 24, .img⟩]⟩,
  -- TIME_d_CFG2 (R401)
  ⟨0x40104, 2, 256, false, [⟨0, 16, .img, 100, .img⟩, ⟨16, 16, .img, 0, .img⟩]⟩,
  -- TIME_d_INCR_LO (R401)
  ⟨0x40108, 2, 256, false, [⟨0, 32, .fwmg, 0, .warm⟩]⟩,
  -- TIME_d_INCR_HI (R401)
  ⟨0x4010C, 2, 256, false, [⟨0, 16, .fwmg, 256, .warm⟩]⟩,
  -- TIME_d_STEP_NS (R401)
  ⟨0x40110, 2, 256, false, [⟨0, 32, .fwmg, 0, .warm⟩]⟩,
  -- TIME_d_STEP_CTL (R401)
  ⟨0x40114, 2, 256, false, [⟨0, 16, .fwmg, 0, .warm⟩, ⟨16, 1, .fwmg, 0, .warm⟩, ⟨17, 1, .fwmg, 0, .warm⟩]⟩,
  -- TIME_d_SET_SEC_LO (R401)
  ⟨0x40118, 2, 256, false, [⟨0, 32, .fwmg, 0, .warm⟩]⟩,
  -- TIME_d_SET_SEC_HI (R401)
  ⟨0x4011C, 2, 256, false, [⟨0, 32, .fwmg, 0, .warm⟩]⟩,
  -- TIME_d_SET_NS (R401)
  ⟨0x40120, 2, 256, false, [⟨0, 30, .fwmg, 0, .warm⟩, ⟨31, 1, .fwmg, 0, .warm⟩]⟩,
  -- TIME_d_CTL (R401)
  ⟨0x40124, 2, 256, false, [⟨0, 1, .fwmg, 0, .warm⟩, ⟨1, 1, .fwmg, 0, .warm⟩]⟩,
  -- TIME_d_STS (R401)
  ⟨0x40128, 2, 256, false, [⟨0, 3, .ro, 0, .warm⟩, ⟨3, 1, .ro, 0, .warm⟩, ⟨4, 1, .ro, 0, .warm⟩, ⟨5, 1, .ro, 0, .warm⟩]⟩,
  -- TIME_d_NOW_SEC_LO (R401)
  ⟨0x4012C, 2, 256, false, [⟨0, 32, .ro, 0, .warm⟩]⟩,
  -- TIME_d_NOW_SEC_HI (R401)
  ⟨0x40130, 2, 256, false, [⟨0, 32, .ro, 0, .warm⟩]⟩,
  -- TIME_d_NOW_NS (R401)
  ⟨0x40134, 2, 256, false, [⟨0, 30, .ro, 0, .warm⟩]⟩,
  -- TIME_d_NOW_FR (R401)
  ⟨0x40138, 2, 256, false, [⟨0, 16, .ro, 0, .warm⟩]⟩
  ]

/-- Registers of block TIME, part 1. -/
def regsTime1 : List RegSpec := [
  -- TIME_d_PPS (R401)
  ⟨0x4013C, 2, 256, false, [⟨0, 30, .ro, 0, .warm⟩, ⟨30, 2, .ro, 0, .warm⟩]⟩,
  -- TIME_d_FRAME_OFS (R401)
  ⟨0x40140, 2, 256, false, [⟨0, 24, .img, 0, .img⟩]⟩,
  -- TIME_d_XCH0 (R401)
  ⟨0x40144, 2, 256, false, [⟨0, 30, .ro, 0, .warm⟩, ⟨30, 2, .ro, 0, .warm⟩]⟩,
  -- TIME_d_XCH1 (R401)
  ⟨0x40148, 2, 256, false, [⟨0, 30, .ro, 0, .warm⟩, ⟨30, 2, .ro, 0, .warm⟩]⟩,
  -- TIME_d_XCH2 (R401)
  ⟨0x4014C, 2, 256, false, [⟨0, 30, .ro, 0, .warm⟩, ⟨30, 2, .ro, 0, .warm⟩]⟩,
  -- TIME_d_XCH3 (R401)
  ⟨0x40150, 2, 256, false, [⟨0, 30, .ro, 0, .warm⟩, ⟨30, 2, .ro, 0, .warm⟩]⟩,
  -- TIME_d_XCH4 (R401)
  ⟨0x40154, 2, 256, false, [⟨0, 32, .ro, 0, .warm⟩]⟩,
  -- TIME_d_XCH5 (R401)
  ⟨0x40158, 2, 256, false, [⟨0, 32, .ro, 0, .warm⟩]⟩,
  -- TIME_d_XCH6 (R401)
  ⟨0x4015C, 2, 256, false, [⟨0, 32, .ro, 0, .warm⟩]⟩,
  -- TIME_d_XCH7 (R401)
  ⟨0x40160, 2, 256, false, [⟨0, 32, .ro, 0, .warm⟩]⟩,
  -- TIME_d_CFG3 (R401)
  ⟨0x40164, 2, 256, false, [⟨0, 16, .img, 300, .img⟩]⟩,
  -- TIME_d_REJ_CNT (R401)
  ⟨0x40170, 2, 256, false, [⟨0, 32, .rc, 0, .warm⟩]⟩,
  -- TIME_d_PTP_DROP_CNT (R401)
  ⟨0x40174, 2, 256, false, [⟨0, 32, .rc, 0, .warm⟩]⟩,
  -- TIME_d_SYNC_CNT (R401)
  ⟨0x40178, 2, 256, false, [⟨0, 32, .rc, 0, .warm⟩]⟩
  ]

/-- Registers of block TIME. -/
def regsTime : List RegSpec := regsTime0 ++ regsTime1

/-- Registers of block FLT. -/
def regsFlt : List RegSpec := [
  -- FLT_CFG (R434)
  ⟨0x50000, 1, 4, false, [⟨0, 10, .img, 50, .img⟩, ⟨10, 10, .img, 100, .img⟩, ⟨20, 8, .img, 16, .img⟩]⟩,
  -- FLT_STS (R434)
  ⟨0x50004, 1, 4, false, [⟨0, 6, .ro, 0, .por⟩, ⟨6, 6, .ro, 0, .por⟩, ⟨12, 6, .ro, 0, .por⟩]⟩,
  -- FLT_UPTIME (R434)
  ⟨0x50008, 1, 4, false, [⟨0, 32, .ro, 0, .por⟩]⟩,
  -- FLT_LANE_RET (R434)
  ⟨0x5000C, 1, 4, false, [⟨0, 32, .mg, 0, .por⟩]⟩,
  -- FLT_HIST_SEL (R434)
  ⟨0x50010, 1, 4, false, [⟨0, 8, .fwmg, 0, .warm⟩]⟩,
  -- FLT_HIST_LOC (R434)
  ⟨0x50014, 1, 4, false, [⟨0, 24, .ro, 0, .por⟩, ⟨31, 1, .ro, 0, .por⟩]⟩,
  -- FLT_HIST_T (R434)
  ⟨0x50018, 1, 4, false, [⟨0, 32, .ro, 0, .por⟩]⟩,
  -- FLT_TRANSIENT_CNT (R434)
  ⟨0x50020, 1, 4, false, [⟨0, 32, .rc, 0, .warm⟩]⟩,
  -- FLT_PERM_CNT (R434)
  ⟨0x50024, 1, 4, false, [⟨0, 32, .rc, 0, .warm⟩]⟩,
  -- FLT_NONRET_CNT (R434)
  ⟨0x50028, 1, 4, false, [⟨0, 32, .rc, 0, .warm⟩]⟩,
  -- FLT_HIST_OVF_CNT (R434)
  ⟨0x5002C, 1, 4, false, [⟨0, 32, .rc, 0, .warm⟩]⟩,
  -- FLT_TIMEOUT_CNT (R434)
  ⟨0x50030, 1, 4, false, [⟨0, 32, .rc, 0, .warm⟩]⟩,
  -- FLT_WD_CNT (R434)
  ⟨0x50034, 1, 4, false, [⟨0, 32, .rc, 0, .warm⟩]⟩,
  -- FLT_GLEAN_PASS_CNT (R434)
  ⟨0x50038, 1, 4, false, [⟨0, 32, .rc, 0, .warm⟩]⟩,
  -- FLT_GLEAN_LATE_CNT (R434)
  ⟨0x5003C, 1, 4, false, [⟨0, 32, .rc, 0, .warm⟩]⟩,
  -- FLT_JRNL_WR_CNT (R434)
  ⟨0x50040, 1, 4, false, [⟨0, 32, .rc, 0, .warm⟩]⟩,
  -- FLT_JRNL_DROP_CNT (R434)
  ⟨0x50044, 1, 4, false, [⟨0, 32, .rc, 0, .warm⟩]⟩
  ]

/-- Registers of block JOB, part 0. -/
def regsJob0 : List RegSpec := [
  -- JOB_RESTART (R338)
  ⟨0x60000, 1, 4, false, [⟨0, 4, .fwmg, 0, .warm⟩, ⟨4, 1, .fwmg, 0, .warm⟩]⟩,
  -- JOB_FAULT_LIM (R338)
  ⟨0x60004, 1, 4, false, [⟨0, 4, .img, 4, .img⟩, ⟨8, 8, .img, 10, .img⟩]⟩,
  -- JOB_SLICE_OVR_CNT (R338)
  ⟨0x60010, 1, 4, false, [⟨0, 32, .rc, 0, .warm⟩]⟩,
  -- JOB_SWITCH_CNT (R338)
  ⟨0x60014, 1, 4, false, [⟨0, 32, .rc, 0, .warm⟩]⟩,
  -- JOB_REBIND_CNT (R338)
  ⟨0x60018, 1, 4, false, [⟨0, 32, .rc, 0, .warm⟩]⟩,
  -- JOB_XACCESS_CNT (R338)
  ⟨0x6001C, 1, 4, false, [⟨0, 32, .rc, 0, .warm⟩]⟩,
  -- JOB_jSTS (R338)
  ⟨0x60100, 16, 16, false, [⟨0, 3, .ro, 0, .img⟩, ⟨3, 1, .ro, 0, .img⟩, ⟨4, 1, .ro, 0, .img⟩, ⟨8, 4, .ro, 0, .img⟩, ⟨16, 6, .ro, 0, .img⟩]⟩,
  -- JOB_jCHAN (R338)
  ⟨0x60104, 16, 16, false, [⟨0, 24, .ro, 0, .img⟩]⟩,
  -- JOB_jWAYS (R338)
  ⟨0x60108, 16, 16, false, [⟨0, 16, .ro, 0, .img⟩]⟩,
  -- JOB_jRESTART_CNT (R338)
  ⟨0x6010C, 16, 16, false, [⟨0, 32, .rc, 0, .warm⟩]⟩,
  -- JOB_RX_CFG (R240)
  ⟨0x60800, 1, 4, false, [⟨0, 9, .img, 0, .img⟩, ⟨9, 9, .img, 0, .img⟩, ⟨18, 2, .img, 2, .img⟩, ⟨20, 2, .img, 2, .img⟩, ⟨22, 1, .img, 0, .img⟩, ⟨23, 2, .img, 0, .img⟩]⟩,
  -- JOB_RX_ALIGN (R240)
  ⟨0x60804, 1, 4, false, [⟨0, 8, .img, 20, .img⟩, ⟨8, 6, .img, 28, .img⟩, ⟨16, 8, .img, 20, .img⟩, ⟨24, 8, .img, 64, .img⟩]⟩,
  -- JOB_RX_GUARD (R240)
  ⟨0x60808, 1, 4, false, [⟨0, 8, .img, 4, .img⟩, ⟨8, 8, .img, 32, .img⟩, ⟨16, 8, .img, 16, .img⟩, ⟨24, 8, .img, 8, .img⟩]⟩,
  -- JOB_RX_GUARD_T (R240)
  ⟨0x6080C, 1, 4, false, [⟨0, 10, .img, 150, .img⟩]⟩,
  -- JOB_RX_TRACK (R240)
  ⟨0x60810, 1, 4, false, [⟨0, 5, .img, 2, .img⟩, ⟨5, 5, .img, 6, .img⟩, ⟨10, 5, .img, 2, .img⟩, ⟨16, 8, .img, 16, .img⟩, ⟨24, 8, .img, 80, .img⟩]⟩,
  -- JOB_RX_NF_BASE (R240)
  ⟨0x60814, 1, 4, false, [⟨0, 12, .img, 0xffd, .img⟩]⟩,
  -- JOB_RX_ALLOC_CNT (R240)
  ⟨0x60840, 1, 4, false, [⟨0, 32, .rc, 0, .job⟩]⟩,
  -- JOB_RX_FALLBACK_CNT (R240)
  ⟨0x60844, 1, 4, false, [⟨0, 32, .rc, 0, .job⟩]⟩,
  -- JOB_RX_NOREF_CNT (R240)
  ⟨0x60848, 1, 4, false, [⟨0, 32, .rc, 0, .job⟩]⟩,
  -- JOB_RX_LATE_CNT (R240)
  ⟨0x6084C, 1, 4, false, [⟨0, 32, .rc, 0, .job⟩]⟩
  ]

/-- Registers of block JOB, part 1. -/
def regsJob1 : List RegSpec := [
  -- JOB_RX_PLAN_REJ_CNT (R240)
  ⟨0x60850, 1, 4, false, [⟨0, 32, .rc, 0, .job⟩]⟩,
  -- JOB_RX_LATE_SECT_CNT (R240)
  ⟨0x60854, 1, 4, false, [⟨0, 32, .rc, 0, .job⟩]⟩,
  -- JOB_RX_STRAY_SECT_CNT (R240)
  ⟨0x60858, 1, 4, false, [⟨0, 32, .rc, 0, .job⟩]⟩,
  -- JOB_RX_ERASED_RE_CNT (R240)
  ⟨0x6085C, 1, 4, false, [⟨0, 32, .rc, 0, .job⟩]⟩,
  -- JOB_RX_UNLOCK_CNT (R240)
  ⟨0x60860, 1, 4, false, [⟨0, 32, .rc, 0, .job⟩]⟩,
  -- JOB_RX_LATE_MARK_CNT (R240)
  ⟨0x60864, 1, 4, false, [⟨0, 32, .rc, 0, .job⟩]⟩,
  -- JOB_RX_NORM_SAT_CNT (R240)
  ⟨0x60868, 1, 4, false, [⟨0, 32, .rc, 0, .job⟩]⟩,
  -- JOB_RX_PORT_ABSENTn (R240)
  ⟨0x60880, 8, 4, false, [⟨0, 32, .ro, 0, .job⟩]⟩,
  -- JOB_RX_RHMAPn (R240)
  ⟨0x60A00, 64, 4, false, [⟨0, 8, .img, 0, .img⟩, ⟨8, 8, .img, 0, .img⟩, ⟨16, 8, .img, 0, .img⟩, ⟨24, 8, .img, 0, .img⟩]⟩,
  -- JOB_TX_CFG (R265)
  ⟨0x60C00, 1, 4, false, [⟨0, 9, .img, 0, .img⟩, ⟨9, 9, .img, 0, .img⟩, ⟨18, 2, .img, 2, .img⟩, ⟨20, 1, .img, 0, .img⟩, ⟨21, 2, .img, 0, .img⟩]⟩,
  -- JOB_TX_TIME (R265)
  ⟨0x60C04, 1, 4, false, [⟨0, 10, .img, 50, .img⟩, ⟨10, 10, .img, 200, .img⟩, ⟨20, 5, .img, 0, .img⟩]⟩,
  -- JOB_TX_ALLOC_CNT (R265)
  ⟨0x60C40, 1, 4, false, [⟨0, 32, .rc, 0, .job⟩]⟩,
  -- JOB_TX_PLAN_REJ_CNT (R265)
  ⟨0x60C44, 1, 4, false, [⟨0, 32, .rc, 0, .job⟩]⟩,
  -- JOB_TX_TB_LATE_CNT (R265)
  ⟨0x60C48, 1, 4, false, [⟨0, 32, .rc, 0, .job⟩]⟩,
  -- JOB_TX_COMP_SAT_CNT (R265)
  ⟨0x60C4C, 1, 4, false, [⟨0, 32, .rc, 0, .job⟩]⟩,
  -- JOB_TRN_CFG (R294)
  ⟨0x61000, 1, 4, false, [⟨0, 10, .img, 32, .img⟩, ⟨10, 7, .img, 64, .img⟩, ⟨17, 7, .img, 8, .img⟩]⟩,
  -- JOB_TRN_LABEL (R294)
  ⟨0x61004, 1, 4, false, [⟨0, 9, .img, 4, .img⟩, ⟨9, 9, .img, 32, .img⟩]⟩,
  -- JOB_TRN_SILO_BASE (R294)
  ⟨0x61008, 1, 4, false, [⟨0, 16, .img, 0, .img⟩, ⟨16, 16, .img, 0, .img⟩]⟩,
  -- JOB_TRN_TRING (R294)
  ⟨0x6100C, 1, 4, false, [⟨0, 18, .img, 0, .img⟩, ⟨18, 14, .img, 0, .img⟩]⟩,
  -- JOB_TRN_HRING (R294)
  ⟨0x61010, 1, 4, false, [⟨0, 18, .img, 0, .img⟩, ⟨18, 14, .img, 0, .img⟩]⟩
  ]

/-- Registers of block JOB, part 2. -/
def regsJob2 : List RegSpec := [
  -- JOB_TRN_RES (R294)
  ⟨0x61014, 1, 4, false, [⟨0, 18, .img, 0x400, .img⟩]⟩,
  -- JOB_TRN_SEED (R294)
  ⟨0x61018, 1, 4, false, [⟨0, 32, .img, 1, .img⟩]⟩,
  -- JOB_TRN_CKPT (R294)
  ⟨0x6101C, 1, 4, false, [⟨0, 12, .img, 64, .img⟩, ⟨12, 16, .img, 0, .img⟩]⟩,
  -- JOB_TRN_WATCH (R294)
  ⟨0x61020, 1, 4, false, [⟨0, 16, .img, 0x1f40, .img⟩, ⟨16, 8, .img, 8, .img⟩]⟩,
  -- JOB_TRN_PERSIST (R294)
  ⟨0x61024, 1, 4, false, [⟨0, 11, .img, 60, .img⟩, ⟨11, 1, .img, 1, .img⟩]⟩,
  -- JOB_TRN_CTL (R294)
  ⟨0x61030, 1, 4, false, [⟨0, 1, .fwmg, 0, .job⟩, ⟨1, 1, .fwmg, 0, .job⟩]⟩,
  -- JOB_TRN_STS (R294)
  ⟨0x61034, 1, 4, false, [⟨0, 3, .ro, 0, .job⟩, ⟨3, 1, .ro, 0, .job⟩]⟩,
  -- JOB_TRN_EPOCH (R294)
  ⟨0x61038, 1, 4, false, [⟨0, 32, .ro, 0, .job⟩]⟩,
  -- JOB_TRN_STEP (R294)
  ⟨0x6103C, 1, 4, false, [⟨0, 32, .ro, 0, .job⟩]⟩,
  -- JOB_TRN_MSET (R294)
  ⟨0x61040, 1, 4, false, [⟨0, 32, .ro, 0, .img⟩]⟩,
  -- JOB_TRN_RSEQ_LO (R294)
  ⟨0x61044, 1, 4, false, [⟨0, 32, .ro, 0, .por⟩]⟩,
  -- JOB_TRN_RSEQ_HI (R294)
  ⟨0x61048, 1, 4, false, [⟨0, 32, .ro, 0, .por⟩]⟩,
  -- JOB_TRN_LABEL_CNT (R294)
  ⟨0x61080, 1, 4, false, [⟨0, 32, .rc, 0, .warm⟩]⟩,
  -- JOB_TRN_LABEL_SKIP_CNT (R294)
  ⟨0x61084, 1, 4, false, [⟨0, 32, .rc, 0, .warm⟩]⟩,
  -- JOB_TRN_LABEL_DROP_CNT (R294)
  ⟨0x61088, 1, 4, false, [⟨0, 32, .rc, 0, .warm⟩]⟩,
  -- JOB_TRN_SILO_FULL_CNT (R294)
  ⟨0x6108C, 1, 4, false, [⟨0, 32, .rc, 0, .warm⟩]⟩,
  -- JOB_TRN_SILO_BAD_CNT (R294)
  ⟨0x61090, 1, 4, false, [⟨0, 32, .rc, 0, .warm⟩]⟩,
  -- JOB_TRN_PROMO_CNT (R294)
  ⟨0x61094, 1, 4, false, [⟨0, 32, .rc, 0, .warm⟩]⟩,
  -- JOB_TRN_REJECT_CNT (R294)
  ⟨0x61098, 1, 4, false, [⟨0, 32, .rc, 0, .warm⟩]⟩,
  -- JOB_TRN_ROLLBACK_CNT (R294)
  ⟨0x6109C, 1, 4, false, [⟨0, 32, .rc, 0, .warm⟩]⟩
  ]

/-- Registers of block JOB, part 3. -/
def regsJob3 : List RegSpec := [
  -- JOB_TRN_PERSIST_CNT (R294)
  ⟨0x610A0, 1, 4, false, [⟨0, 32, .rc, 0, .warm⟩]⟩
  ]

/-- Registers of block JOB. -/
def regsJob : List RegSpec := regsJob0 ++ regsJob1 ++ regsJob2 ++ regsJob3

/-- Registers of block FH. -/
def regsFh : List RegSpec := [
  -- FH_MAC_CFG (R355)
  ⟨0x70000, 1, 4, false, [⟨0, 4, .img, 0, .img⟩]⟩,
  -- FH_MAC_ADDR_LO (R355)
  ⟨0x70004, 1, 4, false, [⟨0, 32, .img, 0, .img⟩]⟩,
  -- FH_MAC_ADDR_HI (R355)
  ⟨0x70008, 1, 4, false, [⟨0, 16, .img, 0, .img⟩]⟩,
  -- FH_BASE_ADDR_LO (R355)
  ⟨0x7000C, 1, 4, false, [⟨0, 32, .img, 0, .img⟩]⟩,
  -- FH_BASE_ADDR_HI (R355)
  ⟨0x70010, 1, 4, false, [⟨0, 16, .img, 0, .img⟩]⟩,
  -- FH_Pp_CFG (R355)
  ⟨0x70100, 4, 256, false, [⟨0, 2, .img, 0, .img⟩, ⟨2, 1, .img, 0, .img⟩, ⟨3, 2, .img, 1, .img⟩, ⟨8, 12, .img, 0, .img⟩, ⟨20, 3, .img, 0, .img⟩]⟩,
  -- FH_Pp_STS (R355)
  ⟨0x70104, 4, 256, false, [⟨0, 4, .ro, 0, .warm⟩, ⟨4, 4, .ro, 0, .warm⟩]⟩,
  -- FH_P_RX_FRAME_CNT (R355)
  ⟨0x70110, 4, 256, false, [⟨0, 32, .rc, 0, .warm⟩]⟩,
  -- FH_P_RX_DROP_CNT (R355)
  ⟨0x70114, 4, 256, false, [⟨0, 32, .rc, 0, .warm⟩]⟩,
  -- FH_P_FCS_ERR_CNT (R355)
  ⟨0x70118, 4, 256, false, [⟨0, 32, .rc, 0, .warm⟩]⟩,
  -- FH_P_BAD_SECT_CNT (R355)
  ⟨0x7011C, 4, 256, false, [⟨0, 32, .rc, 0, .warm⟩]⟩,
  -- FH_P_SEQ_GAP_CNT (R355)
  ⟨0x70120, 4, 256, false, [⟨0, 32, .rc, 0, .warm⟩]⟩,
  -- FH_P_DECOMP_SAT_CNT (R355)
  ⟨0x70124, 4, 256, false, [⟨0, 32, .rc, 0, .warm⟩]⟩,
  -- FH_P_CTL_BAD_CNT (R355)
  ⟨0x70128, 4, 256, false, [⟨0, 32, .rc, 0, .warm⟩]⟩,
  -- FH_P_TX_FRAME_CNT (R355)
  ⟨0x7012C, 4, 256, false, [⟨0, 32, .rc, 0, .warm⟩]⟩,
  -- FH_P_LATE_LAUNCH_CNT (R355)
  ⟨0x70130, 4, 256, false, [⟨0, 32, .rc, 0, .warm⟩]⟩,
  -- FH_P_SHARE_HOLD_CNT (R355)
  ⟨0x70134, 4, 256, false, [⟨0, 32, .rc, 0, .warm⟩]⟩,
  -- FH_P_EGQ_FULL_CNT (R355)
  ⟨0x70138, 4, 256, false, [⟨0, 32, .rc, 0, .warm⟩]⟩
  ]

/-- Registers of block RZ, part 0. -/
def regsRz0 : List RegSpec := [
  -- RZ_GRP_CFG (R381)
  ⟨0x80000, 1, 4, false, [⟨0, 10, .img, 20, .img⟩, ⟨10, 1, .img, 0, .img⟩]⟩,
  -- RZ_GRP_STS (R381)
  ⟨0x80004, 1, 4, false, [⟨0, 2, .ro, 0, .warm⟩, ⟨2, 1, .ro, 0, .warm⟩, ⟨16, 16, .ro, 0, .img⟩]⟩,
  -- RZ_GRP_M (R381)
  ⟨0x80008, 1, 4, false, [⟨0, 17, .ro, 1, .warm⟩]⟩,
  -- RZ_GRP_LEAD (R381)
  ⟨0x8000C, 1, 4, false, [⟨0, 16, .ro, 0, .warm⟩, ⟨16, 16, .ro, 0, .warm⟩]⟩,
  -- RZ_GRP_OFS (R381)
  ⟨0x80010, 1, 4, false, [⟨0, 32, .ro, 0, .warm⟩]⟩,
  -- RZ_PAIR_STS (R381)
  ⟨0x80014, 1, 4, false, [⟨0, 1, .ro, 0, .warm⟩, ⟨16, 16, .ro, 0, .warm⟩]⟩,
  -- RZ_DROP_CNT (R381)
  ⟨0x80020, 1, 4, false, [⟨0, 32, .rc, 0, .warm⟩]⟩,
  -- RZ_HOP_DROP_CNT (R381)
  ⟨0x80024, 1, 4, false, [⟨0, 32, .rc, 0, .warm⟩]⟩,
  -- RZ_NOROUTE_CNT (R381)
  ⟨0x80028, 1, 4, false, [⟨0, 32, .rc, 0, .warm⟩]⟩,
  -- RZ_RED_FAIL_CNT (R381)
  ⟨0x8002C, 1, 4, false, [⟨0, 32, .rc, 0, .warm⟩]⟩,
  -- RZ_BAR_LATE_CNT (R381)
  ⟨0x80030, 1, 4, false, [⟨0, 32, .rc, 0, .warm⟩]⟩,
  -- RZ_PAIR_DIV_CNT (R381)
  ⟨0x80034, 1, 4, false, [⟨0, 32, .rc, 0, .warm⟩]⟩,
  -- RZ_Pp_STS (R381)
  ⟨0x80080, 4, 4, false, [⟨0, 24, .ro, 0, .warm⟩, ⟨24, 1, .ro, 0, .warm⟩, ⟨25, 2, .ro, 0, .img⟩]⟩,
  -- RZ_CMDf_W0 (R381)
  ⟨0x80100, 6, 64, false, [⟨0, 32, .fw, 0, .job⟩]⟩,
  -- RZ_CMDf_W1 (R381)
  ⟨0x80104, 6, 64, false, [⟨0, 32, .fw, 0, .job⟩]⟩,
  -- RZ_CMDf_W2 (R381)
  ⟨0x80108, 6, 64, false, [⟨0, 32, .fw, 0, .job⟩]⟩,
  -- RZ_CMDf_W3 (R381)
  ⟨0x8010C, 6, 64, false, [⟨0, 32, .fw, 0, .job⟩]⟩,
  -- RZ_CMDf_W4 (R381)
  ⟨0x80110, 6, 64, false, [⟨0, 32, .fw, 0, .job⟩]⟩,
  -- RZ_CMDf_W5 (R381)
  ⟨0x80114, 6, 64, false, [⟨0, 32, .fw, 0, .job⟩]⟩,
  -- RZ_CMDf_W6 (R381)
  ⟨0x80118, 6, 64, false, [⟨0, 32, .fw, 0, .job⟩]⟩
  ]

/-- Registers of block RZ, part 1. -/
def regsRz1 : List RegSpec := [
  -- RZ_CMDf_W7 (R381)
  ⟨0x8011C, 6, 64, false, [⟨0, 32, .fw, 0, .job⟩]⟩,
  -- RZ_CMDf_PUSH (R381)
  ⟨0x80120, 6, 64, false, [⟨0, 1, .fw, 0, .job⟩]⟩,
  -- RZ_CMDf_STS (R381)
  ⟨0x80124, 6, 64, false, [⟨0, 4, .ro, 8, .job⟩]⟩
  ]

/-- Registers of block RZ. -/
def regsRz : List RegSpec := regsRz0 ++ regsRz1

/-- Registers of block GRN. -/
def regsGrn : List RegSpec := [
  -- GRN_SEM_BASE (R316)
  ⟨0x90000, 1, 4, false, [⟨0, 16, .img, 0xffc0, .img⟩]⟩,
  -- GRN_KEEP (R316)
  ⟨0x90004, 1, 4, false, [⟨0, 1, .img, 0, .img⟩]⟩,
  -- GRN_BANK_SEL (R316)
  ⟨0x90008, 1, 4, false, [⟨0, 10, .fwmg, 0, .warm⟩]⟩,
  -- GRN_BANK_STS (R316)
  ⟨0x9000C, 1, 4, false, [⟨0, 2, .ro, 0, .por⟩, ⟨2, 1, .ro, 0, .img⟩, ⟨3, 1, .ro, 0, .por⟩, ⟨4, 5, .ro, 0, .por⟩, ⟨9, 5, .ro, 0, .por⟩]⟩,
  -- GRN_CE_CNT (R316)
  ⟨0x90010, 1, 4, false, [⟨0, 32, .rc, 0, .warm⟩]⟩,
  -- GRN_UE_CNT (R316)
  ⟨0x90014, 1, 4, false, [⟨0, 32, .rc, 0, .warm⟩]⟩,
  -- GRN_WAKE_CNT (R316)
  ⟨0x90018, 1, 4, false, [⟨0, 32, .rc, 0, .warm⟩]⟩,
  -- GRN_RMW_CNT (R316)
  ⟨0x9001C, 1, 4, false, [⟨0, 32, .rc, 0, .warm⟩]⟩,
  -- GRN_UE_ADDR_LO (R316)
  ⟨0x90020, 1, 4, false, [⟨0, 32, .ro, 0, .warm⟩]⟩,
  -- GRN_UE_ADDR_HI (R316)
  ⟨0x90024, 1, 4, false, [⟨0, 16, .ro, 0, .warm⟩]⟩,
  -- GRN_CHn_BIND (R316)
  ⟨0x90100, 24, 4, false, [⟨0, 8, .fw, 255, .img⟩, ⟨8, 1, .fw, 0, .img⟩]⟩,
  -- GRN_SPAREs (R316)
  ⟨0x90200, 32, 4, false, [⟨0, 10, .ro, 0, .por⟩, ⟨10, 1, .ro, 0, .por⟩, ⟨11, 1, .ro, 0, .por⟩]⟩,
  -- GRN_FADDc_ADDR_LO (R316)
  ⟨0x90300, 7, 16, false, [⟨0, 32, .fw, 0, .warm⟩]⟩,
  -- GRN_FADDc_ADDR_HI (R316)
  ⟨0x90304, 7, 16, false, [⟨0, 16, .fw, 0, .warm⟩]⟩,
  -- GRN_FADDc_VAL (R316)
  ⟨0x90308, 7, 16, false, [⟨0, 32, .fw, 0, .warm⟩]⟩
  ]

/-- Registers of block BRN. -/
def regsBrn : List RegSpec := [
  -- BRN_CFG (R316)
  ⟨0xA0000, 1, 4, false, [⟨0, 8, .ro, 0, .por⟩, ⟨8, 8, .ro, 0, .por⟩]⟩,
  -- BRN_WAY_SEL (R316)
  ⟨0xA0004, 1, 4, false, [⟨0, 8, .fwmg, 0, .warm⟩]⟩,
  -- BRN_WAY_MASK (R316)
  ⟨0xA0008, 1, 4, false, [⟨0, 16, .fw, 0, .img⟩]⟩,
  -- BRN_SYS_WAYS (R316)
  ⟨0xA000C, 1, 4, false, [⟨0, 16, .ro, 0xffff, .img⟩]⟩,
  -- BRN_HIT_CNT (R316)
  ⟨0xA0010, 1, 4, false, [⟨0, 32, .rc, 0, .warm⟩]⟩,
  -- BRN_MISS_CNT (R316)
  ⟨0xA0014, 1, 4, false, [⟨0, 32, .rc, 0, .warm⟩]⟩,
  -- BRN_WB_CNT (R316)
  ⟨0xA0018, 1, 4, false, [⟨0, 32, .rc, 0, .warm⟩]⟩,
  -- BRN_CE_CNT (R316)
  ⟨0xA001C, 1, 4, false, [⟨0, 32, .rc, 0, .warm⟩]⟩,
  -- BRN_UE_CNT (R316)
  ⟨0xA0020, 1, 4, false, [⟨0, 32, .rc, 0, .warm⟩]⟩,
  -- BRN_UE_ADDR_LO (R316)
  ⟨0xA0024, 1, 4, false, [⟨0, 32, .ro, 0, .warm⟩]⟩,
  -- BRN_UE_ADDR_HI (R316)
  ⟨0xA0028, 1, 4, false, [⟨0, 16, .ro, 0, .warm⟩]⟩
  ]

/-- Registers of block TEL. -/
def regsTel : List RegSpec := [
  -- TEL_XQ_SEL (R27)
  ⟨0xB0000, 1, 4, false, [⟨0, 4, .fwmg, 0, .warm⟩, ⟨4, 3, .fwmg, 0, .warm⟩, ⟨7, 2, .fwmg, 0, .warm⟩]⟩,
  -- TEL_XQ_STALL_CNT (R27)
  ⟨0xB0004, 1, 4, false, [⟨0, 32, .rc, 0, .warm⟩]⟩,
  -- TEL_DROP_CNT (R434)
  ⟨0xB0080, 1, 4, false, [⟨0, 32, .rc, 0, .warm⟩]⟩,
  -- TEL_LISTk (R434)
  ⟨0xB0100, 48, 4, false, [⟨0, 24, .img, 0, .img⟩]⟩
  ]

/-- Registers of block ARR. -/
def regsArr : List RegSpec := [
  -- ARR_STS (R98)
  ⟨0x100000, 1, 4, true, [⟨0, 32, .ro, 0, .job⟩]⟩,
  -- ARR_PANE_APPLY (R79)
  ⟨0x100004, 1, 4, true, [⟨0, 1, .fw, 0, .job⟩, ⟨1, 1, .ro, 0, .job⟩, ⟨2, 5, .ro, 0, .job⟩, ⟨8, 4, .ro, 0, .job⟩]⟩,
  -- ARR_CMD_ERR (R90)
  ⟨0x100008, 1, 4, true, [⟨0, 4, .ro, 0, .job⟩, ⟨4, 5, .ro, 0, .job⟩, ⟨16, 16, .ro, 0, .job⟩]⟩,
  -- ARR_SPARE_STS (R98)
  ⟨0x10000C, 1, 4, true, [⟨0, 4, .ro, 0, .por⟩, ⟨4, 1, .ro, 0, .por⟩, ⟨5, 1, .ro, 0, .por⟩, ⟨8, 4, .ro, 0, .por⟩, ⟨12, 1, .ro, 0, .por⟩, ⟨13, 1, .ro, 0, .por⟩, ⟨16, 4, .ro, 0, .job⟩, ⟨20, 1, .ro, 0, .job⟩]⟩,
  -- ARR_PASS_CNT (R98)
  ⟨0x100010, 1, 4, true, [⟨0, 32, .rc, 0, .job⟩]⟩,
  -- ARR_STAT_HOLD_CNT (R98)
  ⟨0x100014, 1, 4, true, [⟨0, 32, .rc, 0, .job⟩]⟩,
  -- ARR_BUBBLE_CNT (R98)
  ⟨0x100018, 1, 4, true, [⟨0, 32, .rc, 0, .job⟩]⟩,
  -- ARR_LANE_WAIT_CNT (R98)
  ⟨0x10001C, 1, 4, true, [⟨0, 32, .rc, 0, .job⟩]⟩,
  -- ARR_PARITY_CNT (R98)
  ⟨0x100020, 1, 4, true, [⟨0, 32, .ro, 0, .por⟩]⟩,
  -- ARR_PANE_CFGp (R79)
  ⟨0x100100, 32, 4, true, [⟨0, 4, .fw, 0, .job⟩, ⟨4, 3, .fw, 0, .job⟩, ⟨8, 4, .fw, 0, .job⟩, ⟨12, 3, .fw, 0, .job⟩, ⟨16, 1, .fw, 0, .job⟩]⟩
  ]

/-- Registers of block VEC. -/
def regsVec : List RegSpec := [
  -- VEC_STS (R184)
  ⟨0x102000, 1, 4, true, [⟨0, 5, .ro, 16, .job⟩, ⟨5, 1, .ro, 0, .job⟩, ⟨6, 1, .w1c, 0, .job⟩, ⟨7, 1, .w1c, 0, .job⟩, ⟨8, 5, .ro, 0, .job⟩]⟩,
  -- VEC_CMD_PUSH (R184)
  ⟨0x102004, 1, 4, true, [⟨0, 1, .fw, 0, .job⟩]⟩,
  -- VEC_ERR (R184)
  ⟨0x102008, 1, 4, true, [⟨0, 4, .ro, 0, .job⟩, ⟨4, 9, .ro, 0, .job⟩, ⟨16, 16, .ro, 0, .job⟩]⟩,
  -- VEC_CMD_CNT (R184)
  ⟨0x102010, 1, 4, true, [⟨0, 32, .rc, 0, .job⟩]⟩,
  -- VEC_SAT_CNT (R184)
  ⟨0x102014, 1, 4, true, [⟨0, 32, .rc, 0, .job⟩]⟩,
  -- VEC_OOR_CNT (R184)
  ⟨0x102018, 1, 4, true, [⟨0, 32, .rc, 0, .job⟩]⟩,
  -- VEC_SUM_FULL_CNT (R184)
  ⟨0x10201C, 1, 4, true, [⟨0, 32, .rc, 0, .job⟩]⟩,
  -- VEC_CMD_Ww (R184)
  ⟨0x102040, 16, 4, true, [⟨0, 32, .fw, 0, .job⟩]⟩,
  -- VEC_SUM_Ss (R184)
  ⟨0x102100, 16, 4, true, [⟨0, 32, .ro, 0, .job⟩]⟩,
  -- VEC_SUM_TAG (R184)
  ⟨0x102140, 1, 4, true, [⟨0, 16, .ro, 0, .job⟩, ⟨16, 1, .ro, 0, .job⟩]⟩,
  -- VEC_SUM_POP (R184)
  ⟨0x102144, 1, 4, true, [⟨0, 1, .fw, 0, .job⟩]⟩
  ]

/-- Registers of block SIG. -/
def regsSig : List RegSpec := [
  -- SIG_PRESENT (R201)
  ⟨0x104000, 1, 4, true, [⟨0, 8, .ro, 255, .job⟩]⟩,
  -- SIG_OVF_CNT (R201)
  ⟨0x104004, 1, 4, true, [⟨0, 32, .rc, 0, .job⟩]⟩,
  -- SIG_Cc_CTL (R201)
  ⟨0x104100, 8, 64, true, [⟨0, 13, .fw, 0, .job⟩, ⟨29, 1, .fw, 0, .job⟩, ⟨30, 1, .fw, 0, .job⟩, ⟨31, 1, .fw, 0, .job⟩]⟩,
  -- SIG_Cc_STS (R201)
  ⟨0x104104, 8, 64, true, [⟨0, 3, .ro, 0, .job⟩, ⟨3, 4, .ro, 0, .job⟩, ⟨7, 1, .w1c, 0, .job⟩, ⟨8, 4, .ro, 0, .job⟩, ⟨12, 4, .ro, 0, .job⟩, ⟨16, 13, .ro, 0, .job⟩]⟩,
  -- SIG_Cc_MBI (R201)
  ⟨0x104108, 8, 64, true, [⟨0, 32, .fw, 0, .job⟩]⟩,
  -- SIG_Cc_MBO (R201)
  ⟨0x10410C, 8, 64, true, [⟨0, 32, .ro, 0, .job⟩]⟩,
  -- SIG_Cc_TCMP (R201)
  ⟨0x104110, 8, 64, true, [⟨0, 32, .fw, 0, .job⟩]⟩,
  -- SIG_Cc_TCFG (R201)
  ⟨0x104114, 8, 64, true, [⟨0, 1, .fw, 0, .job⟩, ⟨1, 1, .fw, 0, .job⟩]⟩,
  -- SIG_Cc_STALL_CNT (R201)
  ⟨0x104118, 8, 64, true, [⟨0, 32, .rc, 0, .job⟩]⟩,
  -- SIG_Cc_BUSY_CNT (R201)
  ⟨0x10411C, 8, 64, true, [⟨0, 32, .rc, 0, .job⟩]⟩
  ]

/-- Registers of block THR. -/
def regsThr : List RegSpec := [
  -- THR_STS (R265)
  ⟨0x106000, 1, 4, true, [⟨0, 6, .ro, 32, .job⟩, ⟨6, 1, .ro, 0, .job⟩]⟩,
  -- THR_CMD_PUSH (R265)
  ⟨0x106004, 1, 4, true, [⟨0, 1, .fw, 0, .job⟩]⟩,
  -- THR_ERR (R265)
  ⟨0x106008, 1, 4, true, [⟨0, 4, .ro, 0, .job⟩, ⟨16, 16, .ro, 0, .job⟩]⟩,
  -- THR_CANCEL (R265)
  ⟨0x10600C, 1, 4, true, [⟨0, 16, .fw, 0, .job⟩, ⟨16, 1, .fw, 0, .job⟩]⟩,
  -- THR_CFG (R265)
  ⟨0x106010, 1, 4, true, [⟨0, 5, .img, 8, .img⟩, ⟨5, 1, .fw, 0, .job⟩, ⟨6, 1, .img, 0, .img⟩]⟩,
  -- THR_TB_CNT (R265)
  ⟨0x106020, 1, 4, true, [⟨0, 32, .rc, 0, .job⟩]⟩,
  -- THR_CB_CNT (R265)
  ⟨0x106024, 1, 4, true, [⟨0, 32, .rc, 0, .job⟩]⟩,
  -- THR_ITER_CNT (R265)
  ⟨0x106028, 1, 4, true, [⟨0, 32, .rc, 0, .job⟩]⟩,
  -- THR_ES_CNT (R265)
  ⟨0x10602C, 1, 4, true, [⟨0, 32, .rc, 0, .job⟩]⟩,
  -- THR_CB_CRC_FAIL_CNT (R265)
  ⟨0x106030, 1, 4, true, [⟨0, 32, .rc, 0, .job⟩]⟩,
  -- THR_TB_CRC_FAIL_CNT (R265)
  ⟨0x106034, 1, 4, true, [⟨0, 32, .rc, 0, .job⟩]⟩,
  -- THR_CB_ERASED_CNT (R265)
  ⟨0x106038, 1, 4, true, [⟨0, 32, .rc, 0, .job⟩]⟩,
  -- THR_ENC_CB_CNT (R265)
  ⟨0x10603C, 1, 4, true, [⟨0, 32, .rc, 0, .job⟩]⟩,
  -- THR_CMD_Ww (R265)
  ⟨0x106040, 16, 4, true, [⟨0, 32, .fw, 0, .job⟩]⟩,
  -- THR_ETBL0_c (R265)
  ⟨0x106200, 64, 4, true, [⟨0, 8, .fw, 0, .job⟩, ⟨8, 8, .fw, 0, .job⟩]⟩,
  -- THR_ETBL1_c (R265)
  ⟨0x106300, 64, 4, true, [⟨0, 8, .fw, 0, .job⟩, ⟨8, 8, .fw, 0, .job⟩]⟩
  ]

/-- Registers of block STR, part 0. -/
def regsStr0 : List RegSpec := [
  -- STR_CFG (R165)
  ⟨0x108000, 1, 4, true, [⟨0, 8, .fw, 128, .job⟩, ⟨8, 11, .img, 64, .img⟩]⟩,
  -- STR_SEM_POST (R165)
  ⟨0x108004, 1, 4, true, [⟨0, 11, .fw, 0, .job⟩, ⟨11, 1, .fw, 0, .job⟩, ⟨16, 16, .fw, 0, .job⟩]⟩,
  -- STR_DONE_STK (R165)
  ⟨0x108008, 1, 4, true, [⟨0, 32, .w1c, 0, .job⟩]⟩,
  -- STR_ERR_STK (R165)
  ⟨0x10800C, 1, 4, true, [⟨0, 32, .w1c, 0, .job⟩]⟩,
  -- STR_BS_MAP (R165)
  ⟨0x108010, 1, 4, true, [⟨0, 11, .fw, 0, .job⟩, ⟨16, 11, .fw, 0, .job⟩]⟩,
  -- STR_MC_RX_STS (R165)
  ⟨0x108014, 1, 4, true, [⟨0, 6, .w1c, 0, .job⟩]⟩,
  -- STR_OUTST_FULL_CNT (R165)
  ⟨0x108020, 1, 4, true, [⟨0, 32, .rc, 0, .job⟩]⟩,
  -- STR_WAIT_WD_CNT (R165)
  ⟨0x108024, 1, 4, true, [⟨0, 32, .rc, 0, .job⟩]⟩,
  -- STR_ACC_SHORT_CNT (R165)
  ⟨0x108028, 1, 4, true, [⟨0, 32, .rc, 0, .job⟩]⟩,
  -- STR_SPILL_TILE_CNT (R165)
  ⟨0x10802C, 1, 4, true, [⟨0, 32, .rc, 0, .job⟩]⟩,
  -- STR_DESYNC_CNT (R165)
  ⟨0x108030, 1, 4, true, [⟨0, 32, .rc, 0, .job⟩]⟩,
  -- STR_MC_DETACH_CNT (R165)
  ⟨0x108034, 1, 4, true, [⟨0, 32, .rc, 0, .job⟩]⟩,
  -- STR_BALE_CNT (R165)
  ⟨0x108038, 1, 4, true, [⟨0, 32, .rc, 0, .job⟩]⟩,
  -- STR_Sn_CTL (R165)
  ⟨0x108100, 32, 16, true, [⟨0, 23, .fw, 0, .job⟩, ⟨30, 1, .fw, 0, .job⟩, ⟨31, 1, .fw, 0, .job⟩]⟩,
  -- STR_Sn_STS (R165)
  ⟨0x108104, 32, 16, true, [⟨0, 3, .ro, 0, .job⟩, ⟨3, 4, .ro, 0, .job⟩, ⟨7, 4, .ro, 0, .job⟩, ⟨12, 11, .ro, 0, .job⟩]⟩,
  -- STR_Sn_WAIT (R165)
  ⟨0x108108, 32, 16, true, [⟨0, 32, .ro, 0, .job⟩]⟩,
  -- STR_Sn_POS (R165)
  ⟨0x10810C, 32, 16, true, [⟨0, 23, .ro, 0, .job⟩]⟩,
  -- STR_SEMs (R165)
  ⟨0x108400, 256, 4, true, [⟨0, 16, .ro, 0, .job⟩, ⟨16, 16, .ro, 0, .job⟩]⟩,
  -- STR_TNSt_0 (R165)
  ⟨0x108800, 64, 16, true, [⟨5, 27, .fw, 0, .job⟩]⟩,
  -- STR_TNSt_1 (R165)
  ⟨0x108804, 64, 16, true, [⟨0, 16, .fw, 0, .job⟩, ⟨16, 8, .fw, 0, .job⟩, ⟨31, 1, .fw, 0, .job⟩]⟩
  ]

/-- Registers of block STR, part 1. -/
def regsStr1 : List RegSpec := [
  -- STR_TNSt_2 (R165)
  ⟨0x108808, 64, 16, true, [⟨0, 20, .fw, 0, .job⟩]⟩,
  -- STR_TNSt_3 (R165)
  ⟨0x10880C, 64, 16, true, [⟨0, 16, .fw, 0, .job⟩, ⟨16, 16, .fw, 0, .job⟩]⟩,
  -- STR_TILEt (R165)
  ⟨0x108C00, 128, 4, true, [⟨0, 2, .ro, 0, .job⟩, ⟨2, 1, .ro, 0, .job⟩, ⟨3, 1, .ro, 0, .job⟩, ⟨4, 5, .ro, 0, .job⟩]⟩
  ]

/-- Registers of block STR. -/
def regsStr : List RegSpec := regsStr0 ++ regsStr1

/-- Registers of block LEAF. -/
def regsLeaf : List RegSpec := [
  -- LEAF_BANK_STS (R316)
  ⟨0x10A000, 2, 4, true, [⟨0, 32, .ro, 0, .por⟩]⟩,
  -- LEAF_CE_CNT (R316)
  ⟨0x10A010, 1, 4, true, [⟨0, 32, .rc, 0, .job⟩]⟩,
  -- LEAF_UE_CNT (R316)
  ⟨0x10A014, 1, 4, true, [⟨0, 32, .rc, 0, .job⟩]⟩,
  -- LEAF_WIN_BUSY_CNT (R316)
  ⟨0x10A018, 1, 4, true, [⟨0, 32, .rc, 0, .job⟩]⟩,
  -- LEAF_WAKE_CNT (R316)
  ⟨0x10A01C, 1, 4, true, [⟨0, 32, .rc, 0, .job⟩]⟩,
  -- LEAF_BANK_CONF_CNT (R316)
  ⟨0x10A020, 1, 4, true, [⟨0, 32, .rc, 0, .job⟩]⟩,
  -- LEAF_UE_ADDR_LO (R316)
  ⟨0x10A024, 1, 4, true, [⟨0, 32, .ro, 0, .job⟩]⟩,
  -- LEAF_UE_ADDR_HI (R316)
  ⟨0x10A028, 1, 4, true, [⟨0, 16, .ro, 0, .job⟩]⟩,
  -- LEAF_SCL_BASE (R127)
  ⟨0x10A800, 1, 4, true, [⟨12, 11, .fw, 0, .job⟩]⟩,
  -- LEAF_SCL_STEP (R127)
  ⟨0x10A804, 1, 4, true, [⟨0, 8, .fw, 0, .job⟩, ⟨8, 8, .fw, 0, .job⟩, ⟨16, 1, .fw, 0, .job⟩]⟩,
  -- LEAF_SAT_CNT (R127)
  ⟨0x10A810, 1, 4, true, [⟨0, 32, .rc, 0, .job⟩]⟩,
  -- LEAF_OVERRUN_CNT (R127)
  ⟨0x10A814, 1, 4, true, [⟨0, 32, .rc, 0, .job⟩]⟩,
  -- LEAF_NAN_CNT (R127)
  ⟨0x10A818, 1, 4, true, [⟨0, 32, .rc, 0, .job⟩]⟩,
  -- LEAF_SHIFT_LIM_CNT (R127)
  ⟨0x10A81C, 1, 4, true, [⟨0, 32, .rc, 0, .job⟩]⟩
  ]

/-- Number of the register of a table that lies at an address: its index counted over fronds and copies, or none. -/
def RegSpec.at? (r : RegSpec) (a : Nat) : Bool :=
  let off := a - r.base
  let loc := if r.frond then off % 0x10000 else off
  decide (r.base ≤ a) && (if r.frond then decide (off / 0x10000 < 6) else true) &&
    decide (loc % r.stride = 0) && decide (loc / r.stride < r.count)

/-- The tables of the block that holds an address (R28). -/
def regTables (a : Nat) : List RegSpec :=
  match a / 0x10000 with
  | 0x0 => regsSys
  | 0x1 => regsSec
  | 0x2 => regsImg
  | 0x3 => regsPwr
  | 0x4 => regsTime
  | 0x5 => regsFlt
  | 0x6 => regsJob
  | 0x7 => regsFh
  | 0x8 => regsRz
  | 0x9 => regsGrn
  | 0xA => regsBrn
  | 0xB => regsTel
  | _ =>
    if 0x100000 ≤ a ∧ a < 0x160000 then
      match a % 0x10000 / 0x2000 with
      | 0 => regsArr
      | 1 => regsVec
      | 2 => regsSig
      | 3 => regsThr
      | 4 => regsStr
      | 5 => regsLeaf
      | _ => []
    else []

/-- The table of the register at an address; none where no table gives one. -/
def regSpecAt (a : Nat) : Option RegSpec := (regTables a).find? (·.at? a)

/-- The value of a register at reset, from its table's Reset column; 0 where no table gives a register. -/
def regReset (a : Nat) : Word :=
  match regSpecAt a with
  | none => 0
  | some r => r.fields.foldl (fun w f => w ||| BitVec.ofNat 32 (f.reset <<< f.lo)) 0

/-! Field names: register name as the spec writes it, then the field name where the register has more than one field. -/

def Reg.SYS_ID_PART_PART : Fld := ⟨0x0, 0, 16⟩
def Reg.SYS_ID_PART_REV_MIN : Fld := ⟨0x0, 16, 4⟩
def Reg.SYS_ID_PART_REV_MAJ : Fld := ⟨0x0, 20, 4⟩
def Reg.SYS_ID_PART_PAIR : Fld := ⟨0x0, 24, 1⟩
def Reg.SYS_ID_LOT_LO : Fld := ⟨0x4, 0, 30⟩
def Reg.SYS_ID_LOT_HI_LOT_C5 : Fld := ⟨0x8, 0, 6⟩
def Reg.SYS_ID_LOT_HI_WAFER : Fld := ⟨0x8, 6, 5⟩
def Reg.SYS_ID_LOT_HI_DIE_X : Fld := ⟨0x8, 11, 7⟩
def Reg.SYS_ID_LOT_HI_DIE_Y : Fld := ⟨0x8, 18, 7⟩
def Reg.SYS_ID_UID_LO : Fld := ⟨0xC, 0, 32⟩
def Reg.SYS_ID_UID_HI : Fld := ⟨0x10, 0, 32⟩
def Reg.SYS_EVR_BASE_BASE_BLK : Fld := ⟨0x100, 0, 11⟩
def Reg.SYS_EVR_BASE_SET : Fld := ⟨0x100, 31, 1⟩
def Reg.SYS_EVR_WR_IDX : Fld := ⟨0x104, 0, 12⟩
def Reg.SYS_EVR_RD_IDX : Fld := ⟨0x108, 0, 12⟩
def Reg.SYS_EVR_OVF_CNT : Fld := ⟨0x10C, 0, 32⟩
def Reg.SYS_EVR_MIRROR_DROP_CNT : Fld := ⟨0x110, 0, 32⟩
def Reg.SYS_EVR_SEQ : Fld := ⟨0x114, 0, 32⟩
def Reg.SYS_EVR_MIRROR_MASK : Fld := ⟨0x118, 0, 16⟩
def Reg.SYS_UNMAPPED_CNT : Fld := ⟨0x120, 0, 32⟩
def Reg.SYS_UNMAPPED_ADDR_LO : Fld := ⟨0x124, 0, 32⟩
def Reg.SYS_UNMAPPED_ADDR_HI_ADDR_HI : Fld := ⟨0x128, 0, 16⟩
def Reg.SYS_UNMAPPED_ADDR_HI_AGENT : Fld := ⟨0x128, 16, 8⟩
def Reg.SYS_UNMAPPED_ADDR_HI_WRITE : Fld := ⟨0x128, 31, 1⟩
def Reg.SYS_WR_IGN_CNT : Fld := ⟨0x12C, 0, 32⟩
def Reg.MG_PEER_MAC_LO : Fld := ⟨0x130, 0, 32⟩
def Reg.MG_PEER_MAC_HI : Fld := ⟨0x134, 0, 16⟩
def Reg.MG_DROP_CNT : Fld := ⟨0x138, 0, 32⟩
def Reg.SYS_PIN_STS_WARM_N : Fld := ⟨0x200, 0, 1⟩
def Reg.SYS_PIN_STS_WAKE_N : Fld := ⟨0x200, 1, 1⟩
def Reg.SYS_PIN_STS_CAPLIM_N : Fld := ⟨0x200, 2, 1⟩
def Reg.SYS_PIN_STS_PPS_IN : Fld := ⟨0x200, 3, 1⟩
def Reg.SYS_PIN_STS_REF_PRESENT : Fld := ⟨0x200, 4, 1⟩
def Reg.SYS_PIN_STS_XO_OK : Fld := ⟨0x200, 5, 1⟩
def Reg.SYS_PIN_STS_TEST_MODE : Fld := ⟨0x200, 6, 1⟩
def Reg.SYS_PIN_STS_SMB_ADDR : Fld := ⟨0x200, 7, 3⟩
def Reg.SYS_PIN_STS_TRIP : Fld := ⟨0x200, 10, 1⟩
def Reg.SYS_PIN_STS_CAP_ALARM : Fld := ⟨0x200, 11, 1⟩
def Reg.SYS_RAIL_STS_LOW_STK : Fld := ⟨0x204, 0, 8⟩
def Reg.SYS_RAIL_STS_OK : Fld := ⟨0x204, 8, 8⟩
def Reg.SYS_PPS_RUNT_CNT : Fld := ⟨0x210, 0, 32⟩
def Reg.SYS_PPS_EARLY_CNT : Fld := ⟨0x214, 0, 32⟩
def Reg.SYS_CAPLIM_GLITCH_CNT : Fld := ⟨0x218, 0, 32⟩
def Reg.SYS_SD_FLAP_CNT : Fld := ⟨0x21C, 0, 32⟩
def Reg.SMB_PEC_ERR_CNT : Fld := ⟨0x220, 0, 32⟩
def Reg.SMB_TIMEOUT_CNT : Fld := ⟨0x224, 0, 32⟩
def Reg.SEC_LC : Fld := ⟨0x10000, 0, 3⟩
def Reg.SEC_KEY_STS_FUSED : Fld := ⟨0x10004, 0, 4⟩
def Reg.SEC_KEY_STS_REVOKED : Fld := ⟨0x10004, 4, 4⟩
def Reg.SEC_KEY_STS_OIK : Fld := ⟨0x10004, 8, 1⟩
def Reg.SEC_KEY_STS_MIK : Fld := ⟨0x10004, 9, 1⟩
def Reg.SEC_KEY_STS_SEED : Fld := ⟨0x10004, 10, 1⟩
def Reg.SEC_KEY_STS_DUS : Fld := ⟨0x10004, 11, 1⟩
def Reg.SEC_ARB : Fld := ⟨0x10008, 0, 7⟩
def Reg.SEC_DBG_STS_SCOPE : Fld := ⟨0x1000C, 0, 8⟩
def Reg.SEC_DBG_STS_OPEN : Fld := ⟨0x1000C, 8, 1⟩
def Reg.SEC_DBG_STS_AGENT : Fld := ⟨0x1000C, 9, 1⟩
def Reg.SEC_DBG_STS_ZEROISED : Fld := ⟨0x1000C, 10, 1⟩
def Reg.SEC_DBG_STS_AUTH : Fld := ⟨0x1000C, 11, 4⟩
def Reg.SEC_DBG_LEFT : Fld := ⟨0x10010, 0, 17⟩
def Reg.SEC_LOCK_LEFT : Fld := ⟨0x10014, 0, 12⟩
def Reg.SEC_AUTH_FAIL_CNT : Fld := ⟨0x10018, 0, 32⟩
def Reg.SEC_ZERO_CNT : Fld := ⟨0x1001C, 0, 32⟩
def Reg.IMG_SLOT_STS_STATE_A : Fld := ⟨0x20000, 0, 8⟩
def Reg.IMG_SLOT_STS_STATE_B : Fld := ⟨0x20000, 8, 8⟩
def Reg.IMG_SLOT_STS_PREF : Fld := ⟨0x20000, 16, 1⟩
def Reg.IMG_SLOT_STS_RUN_VALID : Fld := ⟨0x20000, 17, 1⟩
def Reg.IMG_SLOT_STS_RUN_SLOT : Fld := ⟨0x20000, 18, 1⟩
def Reg.IMG_SLOT_STS_OPEN : Fld := ⟨0x20000, 19, 1⟩
def Reg.IMG_SLOT_STS_OPEN_SLOT : Fld := ⟨0x20000, 20, 1⟩
def Reg.IMG_SLOT_STS_ADOPT : Fld := ⟨0x20000, 21, 1⟩
def Reg.IMG_DIR_GEN : Fld := ⟨0x20004, 0, 32⟩
def Reg.PWR_CAP : Fld := ⟨0x30000, 0, 10⟩
def Reg.PWR_CAP_CFG_CAP_INIT : Fld := ⟨0x30004, 0, 10⟩
def Reg.PWR_CAP_CFG_LIM : Fld := ⟨0x30004, 16, 10⟩
def Reg.PWR_ISL_CFG_AR_MIN : Fld := ⟨0x30008, 0, 3⟩
def Reg.PWR_ISL_CFG_AR_MAX : Fld := ⟨0x30008, 3, 3⟩
def Reg.PWR_ISL_CFG_LN_MIN : Fld := ⟨0x30008, 6, 3⟩
def Reg.PWR_ISL_CFG_LN_MAX : Fld := ⟨0x30008, 9, 3⟩
def Reg.PWR_ISL_CFG_FB_MIN : Fld := ⟨0x30008, 12, 3⟩
def Reg.PWR_ISL_CFG_FB_MAX : Fld := ⟨0x30008, 15, 3⟩
def Reg.PWR_STS_STATE : Fld := ⟨0x3000C, 0, 2⟩
def Reg.PWR_STS_DUTY : Fld := ⟨0x3000C, 2, 6⟩
def Reg.PWR_STS_CMP_CEIL : Fld := ⟨0x3000C, 8, 3⟩
def Reg.PWR_STS_FB_CEIL : Fld := ⟨0x3000C, 11, 3⟩
def Reg.PWR_STS_ALARM : Fld := ⟨0x3000C, 14, 1⟩
def Reg.PWR_STS_THROTTLE : Fld := ⟨0x3000C, 15, 1⟩
def Reg.PWR_STS_SHED : Fld := ⟨0x3000C, 16, 16⟩
def Reg.PWR_POWER : Fld := ⟨0x30010, 0, 16⟩
def Reg.PWR_EFF_CAP : Fld := ⟨0x30014, 0, 16⟩
def Reg.PWR_TEMP_T : Fld := ⟨0x30018, 0, 16⟩
def Reg.PWR_TEMP_SENSOR : Fld := ⟨0x30018, 16, 5⟩
def Reg.PWR_CEIL_AR_CEIL : Fld := ⟨0x3001C, 0, 3⟩
def Reg.PWR_CEIL_LN_CEIL : Fld := ⟨0x3001C, 3, 3⟩
def Reg.PWR_CEIL_FB_CEIL : Fld := ⟨0x3001C, 6, 3⟩
def Reg.PWR_BUBBLE_CNT : Fld := ⟨0x30020, 0, 32⟩
def Reg.PWR_SHED_CNT : Fld := ⟨0x30024, 0, 32⟩
def Reg.PWR_DROOP_CNT : Fld := ⟨0x30028, 0, 32⟩
def Reg.PWR_OP_ABANDON_CNT : Fld := ⟨0x3002C, 0, 32⟩
def Reg.PWR_THROTTLE_CNT : Fld := ⟨0x30030, 0, 32⟩
def Reg.TIME_STS_REF : Fld := ⟨0x40000, 0, 1⟩
def Reg.TIME_STS_PPS_OK : Fld := ⟨0x40000, 1, 1⟩
def Reg.TIME_PPS_CFG_DOM : Fld := ⟨0x40004, 0, 1⟩
def Reg.TIME_PPS_CFG_ALWAYS : Fld := ⟨0x40004, 1, 1⟩
def Reg.TIME_PPS_CFG_WIDTH : Fld := ⟨0x40004, 2, 9⟩
def Reg.TIME_HO_CFG_AUTO : Fld := ⟨0x40008, 0, 1⟩
def Reg.TIME_HO_CFG_SLEW : Fld := ⟨0x40008, 1, 7⟩
def Reg.TIME_HO_CFG_HO_MAX : Fld := ⟨0x40008, 8, 16⟩
def Reg.TIME_HO_CTL : Fld := ⟨0x4000C, 0, 2⟩
def Reg.TIME_PPS_FAIL_CNT : Fld := ⟨0x40010, 0, 32⟩
def Reg.TIME_d_CFG_PORT (n : Nat) : Fld := ⟨0x40100 + 0x100 * n, 0, 5⟩
def Reg.TIME_d_CFG_EN (n : Nat) : Fld := ⟨0x40100 + 0x100 * n, 5, 1⟩
def Reg.TIME_d_CFG_SERVO (n : Nat) : Fld := ⟨0x40100 + 0x100 * n, 6, 1⟩
def Reg.TIME_d_CFG_PPS_USE (n : Nat) : Fld := ⟨0x40100 + 0x100 * n, 7, 1⟩
def Reg.TIME_d_CFG_ONESTEP (n : Nat) : Fld := ⟨0x40100 + 0x100 * n, 8, 1⟩
def Reg.TIME_d_CFG_PTPDOM (n : Nat) : Fld := ⟨0x40100 + 0x100 * n, 16, 8⟩
def Reg.TIME_d_CFG2_STEP_MAX (n : Nat) : Fld := ⟨0x40104 + 0x100 * n, 0, 16⟩
def Reg.TIME_d_CFG2_ASYM (n : Nat) : Fld := ⟨0x40104 + 0x100 * n, 16, 16⟩
def Reg.TIME_d_INCR_LO (n : Nat) : Fld := ⟨0x40108 + 0x100 * n, 0, 32⟩
def Reg.TIME_d_INCR_HI (n : Nat) : Fld := ⟨0x4010C + 0x100 * n, 0, 16⟩
def Reg.TIME_d_STEP_NS (n : Nat) : Fld := ⟨0x40110 + 0x100 * n, 0, 32⟩
def Reg.TIME_d_STEP_CTL_FR (n : Nat) : Fld := ⟨0x40114 + 0x100 * n, 0, 16⟩
def Reg.TIME_d_STEP_CTL_GO (n : Nat) : Fld := ⟨0x40114 + 0x100 * n, 16, 1⟩
def Reg.TIME_d_STEP_CTL_FORCE (n : Nat) : Fld := ⟨0x40114 + 0x100 * n, 17, 1⟩
def Reg.TIME_d_SET_SEC_LO (n : Nat) : Fld := ⟨0x40118 + 0x100 * n, 0, 32⟩
def Reg.TIME_d_SET_SEC_HI (n : Nat) : Fld := ⟨0x4011C + 0x100 * n, 0, 32⟩
def Reg.TIME_d_SET_NS_SET_NS (n : Nat) : Fld := ⟨0x40120 + 0x100 * n, 0, 30⟩
def Reg.TIME_d_SET_NS_GO (n : Nat) : Fld := ⟨0x40120 + 0x100 * n, 31, 1⟩
def Reg.TIME_d_CTL_LOCK (n : Nat) : Fld := ⟨0x40124 + 0x100 * n, 0, 1⟩
def Reg.TIME_d_CTL_UNLOCK (n : Nat) : Fld := ⟨0x40124 + 0x100 * n, 1, 1⟩
def Reg.TIME_d_STS_STATE (n : Nat) : Fld := ⟨0x40128 + 0x100 * n, 0, 3⟩
def Reg.TIME_d_STS_VALID (n : Nat) : Fld := ⟨0x40128 + 0x100 * n, 3, 1⟩
def Reg.TIME_d_STS_COUPLED (n : Nat) : Fld := ⟨0x40128 + 0x100 * n, 4, 1⟩
def Reg.TIME_d_STS_SRC_OK (n : Nat) : Fld := ⟨0x40128 + 0x100 * n, 5, 1⟩
def Reg.TIME_d_NOW_SEC_LO (n : Nat) : Fld := ⟨0x4012C + 0x100 * n, 0, 32⟩
def Reg.TIME_d_NOW_SEC_HI (n : Nat) : Fld := ⟨0x40130 + 0x100 * n, 0, 32⟩
def Reg.TIME_d_NOW_NS (n : Nat) : Fld := ⟨0x40134 + 0x100 * n, 0, 30⟩
def Reg.TIME_d_NOW_FR (n : Nat) : Fld := ⟨0x40138 + 0x100 * n, 0, 16⟩
def Reg.TIME_d_PPS_PPS_NS (n : Nat) : Fld := ⟨0x4013C + 0x100 * n, 0, 30⟩
def Reg.TIME_d_PPS_PPS_SEC (n : Nat) : Fld := ⟨0x4013C + 0x100 * n, 30, 2⟩
def Reg.TIME_d_FRAME_OFS (n : Nat) : Fld := ⟨0x40140 + 0x100 * n, 0, 24⟩
def Reg.TIME_d_XCH0_NS (n : Nat) : Fld := ⟨0x40144 + 0x100 * n, 0, 30⟩
def Reg.TIME_d_XCH0_SECM4 (n : Nat) : Fld := ⟨0x40144 + 0x100 * n, 30, 2⟩
def Reg.TIME_d_XCH1_NS (n : Nat) : Fld := ⟨0x40148 + 0x100 * n, 0, 30⟩
def Reg.TIME_d_XCH1_SECM4 (n : Nat) : Fld := ⟨0x40148 + 0x100 * n, 30, 2⟩
def Reg.TIME_d_XCH2_NS (n : Nat) : Fld := ⟨0x4014C + 0x100 * n, 0, 30⟩
def Reg.TIME_d_XCH2_SECM4 (n : Nat) : Fld := ⟨0x4014C + 0x100 * n, 30, 2⟩
def Reg.TIME_d_XCH3_NS (n : Nat) : Fld := ⟨0x40150 + 0x100 * n, 0, 30⟩
def Reg.TIME_d_XCH3_SECM4 (n : Nat) : Fld := ⟨0x40150 + 0x100 * n, 30, 2⟩
def Reg.TIME_d_XCH4 (n : Nat) : Fld := ⟨0x40154 + 0x100 * n, 0, 32⟩
def Reg.TIME_d_XCH5 (n : Nat) : Fld := ⟨0x40158 + 0x100 * n, 0, 32⟩
def Reg.TIME_d_XCH6 (n : Nat) : Fld := ⟨0x4015C + 0x100 * n, 0, 32⟩
def Reg.TIME_d_XCH7 (n : Nat) : Fld := ⟨0x40160 + 0x100 * n, 0, 32⟩
def Reg.TIME_d_CFG3 (n : Nat) : Fld := ⟨0x40164 + 0x100 * n, 0, 16⟩
def Reg.TIME_d_REJ_CNT (n : Nat) : Fld := ⟨0x40170 + 0x100 * n, 0, 32⟩
def Reg.TIME_d_PTP_DROP_CNT (n : Nat) : Fld := ⟨0x40174 + 0x100 * n, 0, 32⟩
def Reg.TIME_d_SYNC_CNT (n : Nat) : Fld := ⟨0x40178 + 0x100 * n, 0, 32⟩
def Reg.FLT_CFG_TO_US : Fld := ⟨0x50000, 0, 10⟩
def Reg.FLT_CFG_WD : Fld := ⟨0x50000, 10, 10⟩
def Reg.FLT_CFG_CE_THR : Fld := ⟨0x50000, 20, 8⟩
def Reg.FLT_STS_GRN_SPARE_FREE : Fld := ⟨0x50004, 0, 6⟩
def Reg.FLT_STS_FROND_RET : Fld := ⟨0x50004, 6, 6⟩
def Reg.FLT_STS_SIG_RET : Fld := ⟨0x50004, 12, 6⟩
def Reg.FLT_UPTIME : Fld := ⟨0x50008, 0, 32⟩
def Reg.FLT_LANE_RET : Fld := ⟨0x5000C, 0, 32⟩
def Reg.FLT_HIST_SEL : Fld := ⟨0x50010, 0, 8⟩
def Reg.FLT_HIST_LOC_LOC : Fld := ⟨0x50014, 0, 24⟩
def Reg.FLT_HIST_LOC_VALID : Fld := ⟨0x50014, 31, 1⟩
def Reg.FLT_HIST_T : Fld := ⟨0x50018, 0, 32⟩
def Reg.FLT_TRANSIENT_CNT : Fld := ⟨0x50020, 0, 32⟩
def Reg.FLT_PERM_CNT : Fld := ⟨0x50024, 0, 32⟩
def Reg.FLT_NONRET_CNT : Fld := ⟨0x50028, 0, 32⟩
def Reg.FLT_HIST_OVF_CNT : Fld := ⟨0x5002C, 0, 32⟩
def Reg.FLT_TIMEOUT_CNT : Fld := ⟨0x50030, 0, 32⟩
def Reg.FLT_WD_CNT : Fld := ⟨0x50034, 0, 32⟩
def Reg.FLT_GLEAN_PASS_CNT : Fld := ⟨0x50038, 0, 32⟩
def Reg.FLT_GLEAN_LATE_CNT : Fld := ⟨0x5003C, 0, 32⟩
def Reg.FLT_JRNL_WR_CNT : Fld := ⟨0x50040, 0, 32⟩
def Reg.FLT_JRNL_DROP_CNT : Fld := ⟨0x50044, 0, 32⟩
def Reg.JOB_RESTART_JOB : Fld := ⟨0x60000, 0, 4⟩
def Reg.JOB_RESTART_GO : Fld := ⟨0x60000, 4, 1⟩
def Reg.JOB_FAULT_LIM_MAX : Fld := ⟨0x60004, 0, 4⟩
def Reg.JOB_FAULT_LIM_WIN : Fld := ⟨0x60004, 8, 8⟩
def Reg.JOB_SLICE_OVR_CNT : Fld := ⟨0x60010, 0, 32⟩
def Reg.JOB_SWITCH_CNT : Fld := ⟨0x60014, 0, 32⟩
def Reg.JOB_REBIND_CNT : Fld := ⟨0x60018, 0, 32⟩
def Reg.JOB_XACCESS_CNT : Fld := ⟨0x6001C, 0, 32⟩
def Reg.JOB_jSTS_STATE (n : Nat) : Fld := ⟨0x60100 + 0x10 * n, 0, 3⟩
def Reg.JOB_jSTS_KIND (n : Nat) : Fld := ⟨0x60100 + 0x10 * n, 3, 1⟩
def Reg.JOB_jSTS_PROT (n : Nat) : Fld := ⟨0x60100 + 0x10 * n, 4, 1⟩
def Reg.JOB_jSTS_PRIO (n : Nat) : Fld := ⟨0x60100 + 0x10 * n, 8, 4⟩
def Reg.JOB_jSTS_FRONDS (n : Nat) : Fld := ⟨0x60100 + 0x10 * n, 16, 6⟩
def Reg.JOB_jCHAN (n : Nat) : Fld := ⟨0x60104 + 0x10 * n, 0, 24⟩
def Reg.JOB_jWAYS (n : Nat) : Fld := ⟨0x60108 + 0x10 * n, 0, 16⟩
def Reg.JOB_jRESTART_CNT (n : Nat) : Fld := ⟨0x6010C + 0x10 * n, 0, 32⟩
def Reg.JOB_RX_CFG_NPORT : Fld := ⟨0x60800, 0, 9⟩
def Reg.JOB_RX_CFG_NPRB : Fld := ⟨0x60800, 9, 9⟩
def Reg.JOB_RX_CFG_SCS : Fld := ⟨0x60800, 18, 2⟩
def Reg.JOB_RX_CFG_K : Fld := ⟨0x60800, 20, 2⟩
def Reg.JOB_RX_CFG_TDOM : Fld := ⟨0x60800, 22, 1⟩
def Reg.JOB_RX_CFG_GRAN : Fld := ⟨0x60800, 23, 2⟩
def Reg.JOB_RX_ALIGN_WIN : Fld := ⟨0x60804, 0, 8⟩
def Reg.JOB_RX_ALIGN_ABSENT_SYM : Fld := ⟨0x60804, 8, 6⟩
def Reg.JOB_RX_ALIGN_PLAN_LEAD : Fld := ⟨0x60804, 16, 8⟩
def Reg.JOB_RX_ALIGN_RE_ERASE : Fld := ⟨0x60804, 24, 8⟩
def Reg.JOB_RX_GUARD_RES_MARGIN : Fld := ⟨0x60808, 0, 8⟩
def Reg.JOB_RX_GUARD_LLR_MARGIN : Fld := ⟨0x60808, 8, 8⟩
def Reg.JOB_RX_GUARD_CLAMP_MAX : Fld := ⟨0x60808, 16, 8⟩
def Reg.JOB_RX_GUARD_ERASE_MAX : Fld := ⟨0x60808, 24, 8⟩
def Reg.JOB_RX_GUARD_T : Fld := ⟨0x6080C, 0, 10⟩
def Reg.JOB_RX_TRACK_KP : Fld := ⟨0x60810, 0, 5⟩
def Reg.JOB_RX_TRACK_KI : Fld := ⟨0x60810, 5, 5⟩
def Reg.JOB_RX_TRACK_KT : Fld := ⟨0x60810, 10, 5⟩
def Reg.JOB_RX_TRACK_LOCK_THR : Fld := ⟨0x60810, 16, 8⟩
def Reg.JOB_RX_TRACK_RESET_SLOTS : Fld := ⟨0x60810, 24, 8⟩
def Reg.JOB_RX_NF_BASE : Fld := ⟨0x60814, 0, 12⟩
def Reg.JOB_RX_ALLOC_CNT : Fld := ⟨0x60840, 0, 32⟩
def Reg.JOB_RX_FALLBACK_CNT : Fld := ⟨0x60844, 0, 32⟩
def Reg.JOB_RX_NOREF_CNT : Fld := ⟨0x60848, 0, 32⟩
def Reg.JOB_RX_LATE_CNT : Fld := ⟨0x6084C, 0, 32⟩
def Reg.JOB_RX_PLAN_REJ_CNT : Fld := ⟨0x60850, 0, 32⟩
def Reg.JOB_RX_LATE_SECT_CNT : Fld := ⟨0x60854, 0, 32⟩
def Reg.JOB_RX_STRAY_SECT_CNT : Fld := ⟨0x60858, 0, 32⟩
def Reg.JOB_RX_ERASED_RE_CNT : Fld := ⟨0x6085C, 0, 32⟩
def Reg.JOB_RX_UNLOCK_CNT : Fld := ⟨0x60860, 0, 32⟩
def Reg.JOB_RX_LATE_MARK_CNT : Fld := ⟨0x60864, 0, 32⟩
def Reg.JOB_RX_NORM_SAT_CNT : Fld := ⟨0x60868, 0, 32⟩
def Reg.JOB_RX_PORT_ABSENTn (n : Nat) : Fld := ⟨0x60880 + 0x4 * n, 0, 32⟩
def Reg.JOB_RX_RHMAPn_RH0 (n : Nat) : Fld := ⟨0x60A00 + 0x4 * n, 0, 8⟩
def Reg.JOB_RX_RHMAPn_RH1 (n : Nat) : Fld := ⟨0x60A00 + 0x4 * n, 8, 8⟩
def Reg.JOB_RX_RHMAPn_RH2 (n : Nat) : Fld := ⟨0x60A00 + 0x4 * n, 16, 8⟩
def Reg.JOB_RX_RHMAPn_RH3 (n : Nat) : Fld := ⟨0x60A00 + 0x4 * n, 24, 8⟩
def Reg.JOB_TX_CFG_NPORT : Fld := ⟨0x60C00, 0, 9⟩
def Reg.JOB_TX_CFG_NPRB : Fld := ⟨0x60C00, 9, 9⟩
def Reg.JOB_TX_CFG_SCS : Fld := ⟨0x60C00, 18, 2⟩
def Reg.JOB_TX_CFG_TDOM : Fld := ⟨0x60C00, 20, 1⟩
def Reg.JOB_TX_CFG_GRAN : Fld := ⟨0x60C00, 21, 2⟩
def Reg.JOB_TX_TIME_LEAD : Fld := ⟨0x60C04, 0, 10⟩
def Reg.JOB_TX_TIME_TB_LEAD : Fld := ⟨0x60C04, 10, 10⟩
def Reg.JOB_TX_TIME_PSHIFT : Fld := ⟨0x60C04, 20, 5⟩
def Reg.JOB_TX_ALLOC_CNT : Fld := ⟨0x60C40, 0, 32⟩
def Reg.JOB_TX_PLAN_REJ_CNT : Fld := ⟨0x60C44, 0, 32⟩
def Reg.JOB_TX_TB_LATE_CNT : Fld := ⟨0x60C48, 0, 32⟩
def Reg.JOB_TX_COMP_SAT_CNT : Fld := ⟨0x60C4C, 0, 32⟩
def Reg.JOB_TRN_CFG_BATCH : Fld := ⟨0x61000, 0, 10⟩
def Reg.JOB_TRN_CFG_HOLD_MOD : Fld := ⟨0x61000, 10, 7⟩
def Reg.JOB_TRN_CFG_EVERY : Fld := ⟨0x61000, 17, 7⟩
def Reg.JOB_TRN_LABEL_WPRB : Fld := ⟨0x61004, 0, 9⟩
def Reg.JOB_TRN_LABEL_SILO_BW : Fld := ⟨0x61004, 9, 9⟩
def Reg.JOB_TRN_SILO_BASE_TBASE : Fld := ⟨0x61008, 0, 16⟩
def Reg.JOB_TRN_SILO_BASE_HBASE : Fld := ⟨0x61008, 16, 16⟩
def Reg.JOB_TRN_TRING_NREC : Fld := ⟨0x6100C, 0, 18⟩
def Reg.JOB_TRN_TRING_TSLOT : Fld := ⟨0x6100C, 18, 14⟩
def Reg.JOB_TRN_HRING_NHREC : Fld := ⟨0x61010, 0, 18⟩
def Reg.JOB_TRN_HRING_HSLOT : Fld := ⟨0x61010, 18, 14⟩
def Reg.JOB_TRN_RES : Fld := ⟨0x61014, 0, 18⟩
def Reg.JOB_TRN_SEED : Fld := ⟨0x61018, 0, 32⟩
def Reg.JOB_TRN_CKPT_CKPT_STEPS : Fld := ⟨0x6101C, 0, 12⟩
def Reg.JOB_TRN_CKPT_CKBASE : Fld := ⟨0x6101C, 12, 16⟩
def Reg.JOB_TRN_WATCH_WATCH : Fld := ⟨0x61020, 0, 16⟩
def Reg.JOB_TRN_WATCH_ROLL_THR : Fld := ⟨0x61020, 16, 8⟩
def Reg.JOB_TRN_PERSIST_MIN_INT : Fld := ⟨0x61024, 0, 11⟩
def Reg.JOB_TRN_PERSIST_EN : Fld := ⟨0x61024, 11, 1⟩
def Reg.JOB_TRN_CTL_ROLLBACK : Fld := ⟨0x61030, 0, 1⟩
def Reg.JOB_TRN_CTL_PAUSE : Fld := ⟨0x61030, 1, 1⟩
def Reg.JOB_TRN_STS_STATE : Fld := ⟨0x61034, 0, 3⟩
def Reg.JOB_TRN_STS_CAND : Fld := ⟨0x61034, 3, 1⟩
def Reg.JOB_TRN_EPOCH : Fld := ⟨0x61038, 0, 32⟩
def Reg.JOB_TRN_STEP : Fld := ⟨0x6103C, 0, 32⟩
def Reg.JOB_TRN_MSET : Fld := ⟨0x61040, 0, 32⟩
def Reg.JOB_TRN_RSEQ_LO : Fld := ⟨0x61044, 0, 32⟩
def Reg.JOB_TRN_RSEQ_HI : Fld := ⟨0x61048, 0, 32⟩
def Reg.JOB_TRN_LABEL_CNT : Fld := ⟨0x61080, 0, 32⟩
def Reg.JOB_TRN_LABEL_SKIP_CNT : Fld := ⟨0x61084, 0, 32⟩
def Reg.JOB_TRN_LABEL_DROP_CNT : Fld := ⟨0x61088, 0, 32⟩
def Reg.JOB_TRN_SILO_FULL_CNT : Fld := ⟨0x6108C, 0, 32⟩
def Reg.JOB_TRN_SILO_BAD_CNT : Fld := ⟨0x61090, 0, 32⟩
def Reg.JOB_TRN_PROMO_CNT : Fld := ⟨0x61094, 0, 32⟩
def Reg.JOB_TRN_REJECT_CNT : Fld := ⟨0x61098, 0, 32⟩
def Reg.JOB_TRN_ROLLBACK_CNT : Fld := ⟨0x6109C, 0, 32⟩
def Reg.JOB_TRN_PERSIST_CNT : Fld := ⟨0x610A0, 0, 32⟩
def Reg.FH_MAC_CFG : Fld := ⟨0x70000, 0, 4⟩
def Reg.FH_MAC_ADDR_LO : Fld := ⟨0x70004, 0, 32⟩
def Reg.FH_MAC_ADDR_HI : Fld := ⟨0x70008, 0, 16⟩
def Reg.FH_BASE_ADDR_LO : Fld := ⟨0x7000C, 0, 32⟩
def Reg.FH_BASE_ADDR_HI : Fld := ⟨0x70010, 0, 16⟩
def Reg.FH_Pp_CFG_MODE (n : Nat) : Fld := ⟨0x70100 + 0x100 * n, 0, 2⟩
def Reg.FH_Pp_CFG_VLAN_EN (n : Nat) : Fld := ⟨0x70100 + 0x100 * n, 2, 1⟩
def Reg.FH_Pp_CFG_TXMW (n : Nat) : Fld := ⟨0x70100 + 0x100 * n, 3, 2⟩
def Reg.FH_Pp_CFG_VID (n : Nat) : Fld := ⟨0x70100 + 0x100 * n, 8, 12⟩
def Reg.FH_Pp_CFG_PCP (n : Nat) : Fld := ⟨0x70100 + 0x100 * n, 20, 3⟩
def Reg.FH_Pp_STS_LINK_UP (n : Nat) : Fld := ⟨0x70104 + 0x100 * n, 0, 4⟩
def Reg.FH_Pp_STS_DROP_WHY (n : Nat) : Fld := ⟨0x70104 + 0x100 * n, 4, 4⟩
def Reg.FH_P_RX_FRAME_CNT (n : Nat) : Fld := ⟨0x70110 + 0x100 * n, 0, 32⟩
def Reg.FH_P_RX_DROP_CNT (n : Nat) : Fld := ⟨0x70114 + 0x100 * n, 0, 32⟩
def Reg.FH_P_FCS_ERR_CNT (n : Nat) : Fld := ⟨0x70118 + 0x100 * n, 0, 32⟩
def Reg.FH_P_BAD_SECT_CNT (n : Nat) : Fld := ⟨0x7011C + 0x100 * n, 0, 32⟩
def Reg.FH_P_SEQ_GAP_CNT (n : Nat) : Fld := ⟨0x70120 + 0x100 * n, 0, 32⟩
def Reg.FH_P_DECOMP_SAT_CNT (n : Nat) : Fld := ⟨0x70124 + 0x100 * n, 0, 32⟩
def Reg.FH_P_CTL_BAD_CNT (n : Nat) : Fld := ⟨0x70128 + 0x100 * n, 0, 32⟩
def Reg.FH_P_TX_FRAME_CNT (n : Nat) : Fld := ⟨0x7012C + 0x100 * n, 0, 32⟩
def Reg.FH_P_LATE_LAUNCH_CNT (n : Nat) : Fld := ⟨0x70130 + 0x100 * n, 0, 32⟩
def Reg.FH_P_SHARE_HOLD_CNT (n : Nat) : Fld := ⟨0x70134 + 0x100 * n, 0, 32⟩
def Reg.FH_P_EGQ_FULL_CNT (n : Nat) : Fld := ⟨0x70138 + 0x100 * n, 0, 32⟩
def Reg.RZ_GRP_CFG_BUDGET : Fld := ⟨0x80000, 0, 10⟩
def Reg.RZ_GRP_CFG_LTO : Fld := ⟨0x80000, 10, 1⟩
def Reg.RZ_GRP_STS_ROLE : Fld := ⟨0x80004, 0, 2⟩
def Reg.RZ_GRP_STS_TIME_OK : Fld := ⟨0x80004, 2, 1⟩
def Reg.RZ_GRP_STS_SELF_ID : Fld := ⟨0x80004, 16, 16⟩
def Reg.RZ_GRP_M : Fld := ⟨0x80008, 0, 17⟩
def Reg.RZ_GRP_LEAD_LEADER : Fld := ⟨0x8000C, 0, 16⟩
def Reg.RZ_GRP_LEAD_RANK : Fld := ⟨0x8000C, 16, 16⟩
def Reg.RZ_GRP_OFS : Fld := ⟨0x80010, 0, 32⟩
def Reg.RZ_PAIR_STS_ACTIVE : Fld := ⟨0x80014, 0, 1⟩
def Reg.RZ_PAIR_STS_INSTEP : Fld := ⟨0x80014, 16, 16⟩
def Reg.RZ_DROP_CNT : Fld := ⟨0x80020, 0, 32⟩
def Reg.RZ_HOP_DROP_CNT : Fld := ⟨0x80024, 0, 32⟩
def Reg.RZ_NOROUTE_CNT : Fld := ⟨0x80028, 0, 32⟩
def Reg.RZ_RED_FAIL_CNT : Fld := ⟨0x8002C, 0, 32⟩
def Reg.RZ_BAR_LATE_CNT : Fld := ⟨0x80030, 0, 32⟩
def Reg.RZ_PAIR_DIV_CNT : Fld := ⟨0x80034, 0, 32⟩
def Reg.RZ_Pp_STS_DELAY (n : Nat) : Fld := ⟨0x80080 + 0x4 * n, 0, 24⟩
def Reg.RZ_Pp_STS_UP (n : Nat) : Fld := ⟨0x80080 + 0x4 * n, 24, 1⟩
def Reg.RZ_Pp_STS_ROLE (n : Nat) : Fld := ⟨0x80080 + 0x4 * n, 25, 2⟩
def Reg.RZ_CMDf_W0 (n : Nat) : Fld := ⟨0x80100 + 0x40 * n, 0, 32⟩
def Reg.RZ_CMDf_W1 (n : Nat) : Fld := ⟨0x80104 + 0x40 * n, 0, 32⟩
def Reg.RZ_CMDf_W2 (n : Nat) : Fld := ⟨0x80108 + 0x40 * n, 0, 32⟩
def Reg.RZ_CMDf_W3 (n : Nat) : Fld := ⟨0x8010C + 0x40 * n, 0, 32⟩
def Reg.RZ_CMDf_W4 (n : Nat) : Fld := ⟨0x80110 + 0x40 * n, 0, 32⟩
def Reg.RZ_CMDf_W5 (n : Nat) : Fld := ⟨0x80114 + 0x40 * n, 0, 32⟩
def Reg.RZ_CMDf_W6 (n : Nat) : Fld := ⟨0x80118 + 0x40 * n, 0, 32⟩
def Reg.RZ_CMDf_W7 (n : Nat) : Fld := ⟨0x8011C + 0x40 * n, 0, 32⟩
def Reg.RZ_CMDf_PUSH (n : Nat) : Fld := ⟨0x80120 + 0x40 * n, 0, 1⟩
def Reg.RZ_CMDf_STS (n : Nat) : Fld := ⟨0x80124 + 0x40 * n, 0, 4⟩
def Reg.GRN_SEM_BASE : Fld := ⟨0x90000, 0, 16⟩
def Reg.GRN_KEEP : Fld := ⟨0x90004, 0, 1⟩
def Reg.GRN_BANK_SEL : Fld := ⟨0x90008, 0, 10⟩
def Reg.GRN_BANK_STS_STATE : Fld := ⟨0x9000C, 0, 2⟩
def Reg.GRN_BANK_STS_SYSTEM : Fld := ⟨0x9000C, 2, 1⟩
def Reg.GRN_BANK_STS_SPARED : Fld := ⟨0x9000C, 3, 1⟩
def Reg.GRN_BANK_STS_CHANNEL : Fld := ⟨0x9000C, 4, 5⟩
def Reg.GRN_BANK_STS_SPARE : Fld := ⟨0x9000C, 9, 5⟩
def Reg.GRN_CE_CNT : Fld := ⟨0x90010, 0, 32⟩
def Reg.GRN_UE_CNT : Fld := ⟨0x90014, 0, 32⟩
def Reg.GRN_WAKE_CNT : Fld := ⟨0x90018, 0, 32⟩
def Reg.GRN_RMW_CNT : Fld := ⟨0x9001C, 0, 32⟩
def Reg.GRN_UE_ADDR_LO : Fld := ⟨0x90020, 0, 32⟩
def Reg.GRN_UE_ADDR_HI : Fld := ⟨0x90024, 0, 16⟩
def Reg.GRN_CHn_BIND_OWNER (n : Nat) : Fld := ⟨0x90100 + 0x4 * n, 0, 8⟩
def Reg.GRN_CHn_BIND_NORET (n : Nat) : Fld := ⟨0x90100 + 0x4 * n, 8, 1⟩
def Reg.GRN_SPAREs_BANK (n : Nat) : Fld := ⟨0x90200 + 0x4 * n, 0, 10⟩
def Reg.GRN_SPAREs_USED (n : Nat) : Fld := ⟨0x90200 + 0x4 * n, 10, 1⟩
def Reg.GRN_SPAREs_FIELD (n : Nat) : Fld := ⟨0x90200 + 0x4 * n, 11, 1⟩
def Reg.GRN_FADDc_ADDR_LO (n : Nat) : Fld := ⟨0x90300 + 0x10 * n, 0, 32⟩
def Reg.GRN_FADDc_ADDR_HI (n : Nat) : Fld := ⟨0x90304 + 0x10 * n, 0, 16⟩
def Reg.GRN_FADDc_VAL (n : Nat) : Fld := ⟨0x90308 + 0x10 * n, 0, 32⟩
def Reg.BRN_CFG_FITTED : Fld := ⟨0xA0000, 0, 8⟩
def Reg.BRN_CFG_USABLE : Fld := ⟨0xA0000, 8, 8⟩
def Reg.BRN_WAY_SEL : Fld := ⟨0xA0004, 0, 8⟩
def Reg.BRN_WAY_MASK : Fld := ⟨0xA0008, 0, 16⟩
def Reg.BRN_SYS_WAYS : Fld := ⟨0xA000C, 0, 16⟩
def Reg.BRN_HIT_CNT : Fld := ⟨0xA0010, 0, 32⟩
def Reg.BRN_MISS_CNT : Fld := ⟨0xA0014, 0, 32⟩
def Reg.BRN_WB_CNT : Fld := ⟨0xA0018, 0, 32⟩
def Reg.BRN_CE_CNT : Fld := ⟨0xA001C, 0, 32⟩
def Reg.BRN_UE_CNT : Fld := ⟨0xA0020, 0, 32⟩
def Reg.BRN_UE_ADDR_LO : Fld := ⟨0xA0024, 0, 32⟩
def Reg.BRN_UE_ADDR_HI : Fld := ⟨0xA0028, 0, 16⟩
def Reg.TEL_XQ_SEL_CROSS : Fld := ⟨0xB0000, 0, 4⟩
def Reg.TEL_XQ_SEL_INST : Fld := ⟨0xB0000, 4, 3⟩
def Reg.TEL_XQ_SEL_QUEUE : Fld := ⟨0xB0000, 7, 2⟩
def Reg.TEL_XQ_STALL_CNT : Fld := ⟨0xB0004, 0, 32⟩
def Reg.TEL_DROP_CNT : Fld := ⟨0xB0080, 0, 32⟩
def Reg.TEL_LISTk (n : Nat) : Fld := ⟨0xB0100 + 0x4 * n, 0, 24⟩
def Reg.ARR_STS (f : Nat) : Fld := ⟨0x100000 + 0x10000 * f, 0, 32⟩
def Reg.ARR_PANE_APPLY_APPLY (f : Nat) : Fld := ⟨0x100004 + 0x10000 * f, 0, 1⟩
def Reg.ARR_PANE_APPLY_ERR (f : Nat) : Fld := ⟨0x100004 + 0x10000 * f, 1, 1⟩
def Reg.ARR_PANE_APPLY_ERR_PANE (f : Nat) : Fld := ⟨0x100004 + 0x10000 * f, 2, 5⟩
def Reg.ARR_PANE_APPLY_ERR_CODE (f : Nat) : Fld := ⟨0x100004 + 0x10000 * f, 8, 4⟩
def Reg.ARR_CMD_ERR_CODE (f : Nat) : Fld := ⟨0x100008 + 0x10000 * f, 0, 4⟩
def Reg.ARR_CMD_ERR_PANE (f : Nat) : Fld := ⟨0x100008 + 0x10000 * f, 4, 5⟩
def Reg.ARR_CMD_ERR_SEQ_LO (f : Nat) : Fld := ⟨0x100008 + 0x10000 * f, 16, 16⟩
def Reg.ARR_SPARE_STS_SROW_MAP (f : Nat) : Fld := ⟨0x10000C + 0x10000 * f, 0, 4⟩
def Reg.ARR_SPARE_STS_SROW_USED (f : Nat) : Fld := ⟨0x10000C + 0x10000 * f, 4, 1⟩
def Reg.ARR_SPARE_STS_SROW_FIELD (f : Nat) : Fld := ⟨0x10000C + 0x10000 * f, 5, 1⟩
def Reg.ARR_SPARE_STS_SCOL_MAP (f : Nat) : Fld := ⟨0x10000C + 0x10000 * f, 8, 4⟩
def Reg.ARR_SPARE_STS_SCOL_USED (f : Nat) : Fld := ⟨0x10000C + 0x10000 * f, 12, 1⟩
def Reg.ARR_SPARE_STS_SCOL_FIELD (f : Nat) : Fld := ⟨0x10000C + 0x10000 * f, 13, 1⟩
def Reg.ARR_SPARE_STS_MASK_ROW (f : Nat) : Fld := ⟨0x10000C + 0x10000 * f, 16, 4⟩
def Reg.ARR_SPARE_STS_MASKED (f : Nat) : Fld := ⟨0x10000C + 0x10000 * f, 20, 1⟩
def Reg.ARR_PASS_CNT (f : Nat) : Fld := ⟨0x100010 + 0x10000 * f, 0, 32⟩
def Reg.ARR_STAT_HOLD_CNT (f : Nat) : Fld := ⟨0x100014 + 0x10000 * f, 0, 32⟩
def Reg.ARR_BUBBLE_CNT (f : Nat) : Fld := ⟨0x100018 + 0x10000 * f, 0, 32⟩
def Reg.ARR_LANE_WAIT_CNT (f : Nat) : Fld := ⟨0x10001C + 0x10000 * f, 0, 32⟩
def Reg.ARR_PARITY_CNT (f : Nat) : Fld := ⟨0x100020 + 0x10000 * f, 0, 32⟩
def Reg.ARR_PANE_CFGp_I0 (f n : Nat) : Fld := ⟨0x100100 + 0x10000 * f + 0x4 * n, 0, 4⟩
def Reg.ARR_PANE_CFGp_H_LOG2 (f n : Nat) : Fld := ⟨0x100100 + 0x10000 * f + 0x4 * n, 4, 3⟩
def Reg.ARR_PANE_CFGp_J0 (f n : Nat) : Fld := ⟨0x100100 + 0x10000 * f + 0x4 * n, 8, 4⟩
def Reg.ARR_PANE_CFGp_W_LOG2 (f n : Nat) : Fld := ⟨0x100100 + 0x10000 * f + 0x4 * n, 12, 3⟩
def Reg.ARR_PANE_CFGp_EN (f n : Nat) : Fld := ⟨0x100100 + 0x10000 * f + 0x4 * n, 16, 1⟩
def Reg.VEC_STS_FREE (f : Nat) : Fld := ⟨0x102000 + 0x10000 * f, 0, 5⟩
def Reg.VEC_STS_BUSY (f : Nat) : Fld := ⟨0x102000 + 0x10000 * f, 5, 1⟩
def Reg.VEC_STS_VPERM_OOR_STK (f : Nat) : Fld := ⟨0x102000 + 0x10000 * f, 6, 1⟩
def Reg.VEC_STS_VSAT_STK (f : Nat) : Fld := ⟨0x102000 + 0x10000 * f, 7, 1⟩
def Reg.VEC_STS_SUM_CNT (f : Nat) : Fld := ⟨0x102000 + 0x10000 * f, 8, 5⟩
def Reg.VEC_CMD_PUSH (f : Nat) : Fld := ⟨0x102004 + 0x10000 * f, 0, 1⟩
def Reg.VEC_ERR_CODE (f : Nat) : Fld := ⟨0x102008 + 0x10000 * f, 0, 4⟩
def Reg.VEC_ERR_PROG (f : Nat) : Fld := ⟨0x102008 + 0x10000 * f, 4, 9⟩
def Reg.VEC_ERR_TAG (f : Nat) : Fld := ⟨0x102008 + 0x10000 * f, 16, 16⟩
def Reg.VEC_CMD_CNT (f : Nat) : Fld := ⟨0x102010 + 0x10000 * f, 0, 32⟩
def Reg.VEC_SAT_CNT (f : Nat) : Fld := ⟨0x102014 + 0x10000 * f, 0, 32⟩
def Reg.VEC_OOR_CNT (f : Nat) : Fld := ⟨0x102018 + 0x10000 * f, 0, 32⟩
def Reg.VEC_SUM_FULL_CNT (f : Nat) : Fld := ⟨0x10201C + 0x10000 * f, 0, 32⟩
def Reg.VEC_CMD_Ww (f n : Nat) : Fld := ⟨0x102040 + 0x10000 * f + 0x4 * n, 0, 32⟩
def Reg.VEC_SUM_Ss (f n : Nat) : Fld := ⟨0x102100 + 0x10000 * f + 0x4 * n, 0, 32⟩
def Reg.VEC_SUM_TAG_TAG (f : Nat) : Fld := ⟨0x102140 + 0x10000 * f, 0, 16⟩
def Reg.VEC_SUM_TAG_VALID (f : Nat) : Fld := ⟨0x102140 + 0x10000 * f, 16, 1⟩
def Reg.VEC_SUM_POP (f : Nat) : Fld := ⟨0x102144 + 0x10000 * f, 0, 1⟩
def Reg.SIG_PRESENT (f : Nat) : Fld := ⟨0x104000 + 0x10000 * f, 0, 8⟩
def Reg.SIG_OVF_CNT (f : Nat) : Fld := ⟨0x104004 + 0x10000 * f, 0, 32⟩
def Reg.SIG_Cc_CTL_PC (f n : Nat) : Fld := ⟨0x104100 + 0x10000 * f + 0x40 * n, 0, 13⟩
def Reg.SIG_Cc_CTL_IRQ (f n : Nat) : Fld := ⟨0x104100 + 0x10000 * f + 0x40 * n, 29, 1⟩
def Reg.SIG_Cc_CTL_STOP (f n : Nat) : Fld := ⟨0x104100 + 0x10000 * f + 0x40 * n, 30, 1⟩
def Reg.SIG_Cc_CTL_START (f n : Nat) : Fld := ⟨0x104100 + 0x10000 * f + 0x40 * n, 31, 1⟩
def Reg.SIG_Cc_STS_STATE (f n : Nat) : Fld := ⟨0x104104 + 0x10000 * f + 0x40 * n, 0, 3⟩
def Reg.SIG_Cc_STS_FAULT (f n : Nat) : Fld := ⟨0x104104 + 0x10000 * f + 0x40 * n, 3, 4⟩
def Reg.SIG_Cc_STS_OVF_STK (f n : Nat) : Fld := ⟨0x104104 + 0x10000 * f + 0x40 * n, 7, 1⟩
def Reg.SIG_Cc_STS_MBI_CNT (f n : Nat) : Fld := ⟨0x104104 + 0x10000 * f + 0x40 * n, 8, 4⟩
def Reg.SIG_Cc_STS_MBO_CNT (f n : Nat) : Fld := ⟨0x104104 + 0x10000 * f + 0x40 * n, 12, 4⟩
def Reg.SIG_Cc_STS_PC_AT (f n : Nat) : Fld := ⟨0x104104 + 0x10000 * f + 0x40 * n, 16, 13⟩
def Reg.SIG_Cc_MBI (f n : Nat) : Fld := ⟨0x104108 + 0x10000 * f + 0x40 * n, 0, 32⟩
def Reg.SIG_Cc_MBO (f n : Nat) : Fld := ⟨0x10410C + 0x10000 * f + 0x40 * n, 0, 32⟩
def Reg.SIG_Cc_TCMP (f n : Nat) : Fld := ⟨0x104110 + 0x10000 * f + 0x40 * n, 0, 32⟩
def Reg.SIG_Cc_TCFG_TDOM (f n : Nat) : Fld := ⟨0x104114 + 0x10000 * f + 0x40 * n, 0, 1⟩
def Reg.SIG_Cc_TCFG_ARM (f n : Nat) : Fld := ⟨0x104114 + 0x10000 * f + 0x40 * n, 1, 1⟩
def Reg.SIG_Cc_STALL_CNT (f n : Nat) : Fld := ⟨0x104118 + 0x10000 * f + 0x40 * n, 0, 32⟩
def Reg.SIG_Cc_BUSY_CNT (f n : Nat) : Fld := ⟨0x10411C + 0x10000 * f + 0x40 * n, 0, 32⟩
def Reg.THR_STS_FREE (f : Nat) : Fld := ⟨0x106000 + 0x10000 * f, 0, 6⟩
def Reg.THR_STS_BUSY (f : Nat) : Fld := ⟨0x106000 + 0x10000 * f, 6, 1⟩
def Reg.THR_CMD_PUSH (f : Nat) : Fld := ⟨0x106004 + 0x10000 * f, 0, 1⟩
def Reg.THR_ERR_CODE (f : Nat) : Fld := ⟨0x106008 + 0x10000 * f, 0, 4⟩
def Reg.THR_ERR_TAG (f : Nat) : Fld := ⟨0x106008 + 0x10000 * f, 16, 16⟩
def Reg.THR_CANCEL_TAG (f : Nat) : Fld := ⟨0x10600C + 0x10000 * f, 0, 16⟩
def Reg.THR_CANCEL_GO (f : Nat) : Fld := ⟨0x10600C + 0x10000 * f, 16, 1⟩
def Reg.THR_CFG_ITER_DEF (f : Nat) : Fld := ⟨0x106010 + 0x10000 * f, 0, 5⟩
def Reg.THR_CFG_ACTIVE (f : Nat) : Fld := ⟨0x106010 + 0x10000 * f, 5, 1⟩
def Reg.THR_CFG_FAIL_EV (f : Nat) : Fld := ⟨0x106010 + 0x10000 * f, 6, 1⟩
def Reg.THR_TB_CNT (f : Nat) : Fld := ⟨0x106020 + 0x10000 * f, 0, 32⟩
def Reg.THR_CB_CNT (f : Nat) : Fld := ⟨0x106024 + 0x10000 * f, 0, 32⟩
def Reg.THR_ITER_CNT (f : Nat) : Fld := ⟨0x106028 + 0x10000 * f, 0, 32⟩
def Reg.THR_ES_CNT (f : Nat) : Fld := ⟨0x10602C + 0x10000 * f, 0, 32⟩
def Reg.THR_CB_CRC_FAIL_CNT (f : Nat) : Fld := ⟨0x106030 + 0x10000 * f, 0, 32⟩
def Reg.THR_TB_CRC_FAIL_CNT (f : Nat) : Fld := ⟨0x106034 + 0x10000 * f, 0, 32⟩
def Reg.THR_CB_ERASED_CNT (f : Nat) : Fld := ⟨0x106038 + 0x10000 * f, 0, 32⟩
def Reg.THR_ENC_CB_CNT (f : Nat) : Fld := ⟨0x10603C + 0x10000 * f, 0, 32⟩
def Reg.THR_CMD_Ww (f n : Nat) : Fld := ⟨0x106040 + 0x10000 * f + 0x4 * n, 0, 32⟩
def Reg.THR_ETBL0_c_OFFSET (f n : Nat) : Fld := ⟨0x106200 + 0x10000 * f + 0x4 * n, 0, 8⟩
def Reg.THR_ETBL0_c_SCALE (f n : Nat) : Fld := ⟨0x106200 + 0x10000 * f + 0x4 * n, 8, 8⟩
def Reg.THR_ETBL1_c_OFFSET (f n : Nat) : Fld := ⟨0x106300 + 0x10000 * f + 0x4 * n, 0, 8⟩
def Reg.THR_ETBL1_c_SCALE (f n : Nat) : Fld := ⟨0x106300 + 0x10000 * f + 0x4 * n, 8, 8⟩
def Reg.STR_CFG_ACC_LIMIT (f : Nat) : Fld := ⟨0x108000 + 0x10000 * f, 0, 8⟩
def Reg.STR_CFG_MC_SLACK (f : Nat) : Fld := ⟨0x108000 + 0x10000 * f, 8, 11⟩
def Reg.STR_SEM_POST_SEM (f : Nat) : Fld := ⟨0x108004 + 0x10000 * f, 0, 11⟩
def Reg.STR_SEM_POST_SIDE (f : Nat) : Fld := ⟨0x108004 + 0x10000 * f, 11, 1⟩
def Reg.STR_SEM_POST_VALUE (f : Nat) : Fld := ⟨0x108004 + 0x10000 * f, 16, 16⟩
def Reg.STR_DONE_STK (f : Nat) : Fld := ⟨0x108008 + 0x10000 * f, 0, 32⟩
def Reg.STR_ERR_STK (f : Nat) : Fld := ⟨0x10800C + 0x10000 * f, 0, 32⟩
def Reg.STR_BS_MAP_SB8 (f : Nat) : Fld := ⟨0x108010 + 0x10000 * f, 0, 11⟩
def Reg.STR_BS_MAP_SB4 (f : Nat) : Fld := ⟨0x108010 + 0x10000 * f, 16, 11⟩
def Reg.STR_MC_RX_STS (f : Nat) : Fld := ⟨0x108014 + 0x10000 * f, 0, 6⟩
def Reg.STR_OUTST_FULL_CNT (f : Nat) : Fld := ⟨0x108020 + 0x10000 * f, 0, 32⟩
def Reg.STR_WAIT_WD_CNT (f : Nat) : Fld := ⟨0x108024 + 0x10000 * f, 0, 32⟩
def Reg.STR_ACC_SHORT_CNT (f : Nat) : Fld := ⟨0x108028 + 0x10000 * f, 0, 32⟩
def Reg.STR_SPILL_TILE_CNT (f : Nat) : Fld := ⟨0x10802C + 0x10000 * f, 0, 32⟩
def Reg.STR_DESYNC_CNT (f : Nat) : Fld := ⟨0x108030 + 0x10000 * f, 0, 32⟩
def Reg.STR_MC_DETACH_CNT (f : Nat) : Fld := ⟨0x108034 + 0x10000 * f, 0, 32⟩
def Reg.STR_BALE_CNT (f : Nat) : Fld := ⟨0x108038 + 0x10000 * f, 0, 32⟩
def Reg.STR_Sn_CTL_HEAD (f n : Nat) : Fld := ⟨0x108100 + 0x10000 * f + 0x10 * n, 0, 23⟩
def Reg.STR_Sn_CTL_ABORT (f n : Nat) : Fld := ⟨0x108100 + 0x10000 * f + 0x10 * n, 30, 1⟩
def Reg.STR_Sn_CTL_RUN (f n : Nat) : Fld := ⟨0x108100 + 0x10000 * f + 0x10 * n, 31, 1⟩
def Reg.STR_Sn_STS_STATE (f n : Nat) : Fld := ⟨0x108104 + 0x10000 * f + 0x10 * n, 0, 3⟩
def Reg.STR_Sn_STS_WKIND (f n : Nat) : Fld := ⟨0x108104 + 0x10000 * f + 0x10 * n, 3, 4⟩
def Reg.STR_Sn_STS_ERR (f n : Nat) : Fld := ⟨0x108104 + 0x10000 * f + 0x10 * n, 7, 4⟩
def Reg.STR_Sn_STS_WOBJ (f n : Nat) : Fld := ⟨0x108104 + 0x10000 * f + 0x10 * n, 12, 11⟩
def Reg.STR_Sn_WAIT (f n : Nat) : Fld := ⟨0x108108 + 0x10000 * f + 0x10 * n, 0, 32⟩
def Reg.STR_Sn_POS (f n : Nat) : Fld := ⟨0x10810C + 0x10000 * f + 0x10 * n, 0, 23⟩
def Reg.STR_SEMs_FULL (f n : Nat) : Fld := ⟨0x108400 + 0x10000 * f + 0x4 * n, 0, 16⟩
def Reg.STR_SEMs_FREE (f n : Nat) : Fld := ⟨0x108400 + 0x10000 * f + 0x4 * n, 16, 16⟩
def Reg.STR_TNSt_0 (f n : Nat) : Fld := ⟨0x108800 + 0x10000 * f + 0x10 * n, 5, 27⟩
def Reg.STR_TNSt_1_BASE_HI (f n : Nat) : Fld := ⟨0x108804 + 0x10000 * f + 0x10 * n, 0, 16⟩
def Reg.STR_TNSt_1_FILL (f n : Nat) : Fld := ⟨0x108804 + 0x10000 * f + 0x10 * n, 16, 8⟩
def Reg.STR_TNSt_1_VALID (f n : Nat) : Fld := ⟨0x108804 + 0x10000 * f + 0x10 * n, 31, 1⟩
def Reg.STR_TNSt_2 (f n : Nat) : Fld := ⟨0x108808 + 0x10000 * f + 0x10 * n, 0, 20⟩
def Reg.STR_TNSt_3_ROW_BYTES (f n : Nat) : Fld := ⟨0x10880C + 0x10000 * f + 0x10 * n, 0, 16⟩
def Reg.STR_TNSt_3_PITCH (f n : Nat) : Fld := ⟨0x10880C + 0x10000 * f + 0x10 * n, 16, 16⟩
def Reg.STR_TILEt_STATE (f n : Nat) : Fld := ⟨0x108C00 + 0x10000 * f + 0x4 * n, 0, 2⟩
def Reg.STR_TILEt_ERASED (f n : Nat) : Fld := ⟨0x108C00 + 0x10000 * f + 0x4 * n, 2, 1⟩
def Reg.STR_TILEt_CLAIMED (f n : Nat) : Fld := ⟨0x108C00 + 0x10000 * f + 0x4 * n, 3, 1⟩
def Reg.STR_TILEt_CLAIMANT (f n : Nat) : Fld := ⟨0x108C00 + 0x10000 * f + 0x4 * n, 4, 5⟩
def Reg.LEAF_BANK_STS (f n : Nat) : Fld := ⟨0x10A000 + 0x10000 * f + 0x4 * n, 0, 32⟩
def Reg.LEAF_CE_CNT (f : Nat) : Fld := ⟨0x10A010 + 0x10000 * f, 0, 32⟩
def Reg.LEAF_UE_CNT (f : Nat) : Fld := ⟨0x10A014 + 0x10000 * f, 0, 32⟩
def Reg.LEAF_WIN_BUSY_CNT (f : Nat) : Fld := ⟨0x10A018 + 0x10000 * f, 0, 32⟩
def Reg.LEAF_WAKE_CNT (f : Nat) : Fld := ⟨0x10A01C + 0x10000 * f, 0, 32⟩
def Reg.LEAF_BANK_CONF_CNT (f : Nat) : Fld := ⟨0x10A020 + 0x10000 * f, 0, 32⟩
def Reg.LEAF_UE_ADDR_LO (f : Nat) : Fld := ⟨0x10A024 + 0x10000 * f, 0, 32⟩
def Reg.LEAF_UE_ADDR_HI (f : Nat) : Fld := ⟨0x10A028 + 0x10000 * f, 0, 16⟩
def Reg.LEAF_SCL_BASE (f : Nat) : Fld := ⟨0x10A800 + 0x10000 * f, 12, 11⟩
def Reg.LEAF_SCL_STEP_FIRST (f : Nat) : Fld := ⟨0x10A804 + 0x10000 * f, 0, 8⟩
def Reg.LEAF_SCL_STEP_LAST (f : Nat) : Fld := ⟨0x10A804 + 0x10000 * f, 8, 8⟩
def Reg.LEAF_SCL_STEP_GO (f : Nat) : Fld := ⟨0x10A804 + 0x10000 * f, 16, 1⟩
def Reg.LEAF_SAT_CNT (f : Nat) : Fld := ⟨0x10A810 + 0x10000 * f, 0, 32⟩
def Reg.LEAF_OVERRUN_CNT (f : Nat) : Fld := ⟨0x10A814 + 0x10000 * f, 0, 32⟩
def Reg.LEAF_NAN_CNT (f : Nat) : Fld := ⟨0x10A818 + 0x10000 * f, 0, 32⟩
def Reg.LEAF_SHIFT_LIM_CNT (f : Nat) : Fld := ⟨0x10A81C + 0x10000 * f, 0, 32⟩

end Sys2Proof.Machine
end

