-- ==== Sys2Proof/Machine/State.lean ====
section
/-!
DEFINITION. The state of the FZ7160 as plain data, the reasons a step can stop, and the state after reset.
Registers are in `regs` by device address; everything the spec gives the machine beside its register tables has a field of its own.
-/
namespace Sys2Proof.Machine

open Sys2Proof (Byte Word XqSrc)

/-- Why a step stops with a fault. The model raises none: every error the spec describes is reported in the state (registers, events, job faults). -/
inductive Fault where
  /-- Raised by nothing; kept so that the type names what a stop would be called. Safe: the machine never goes on falsely. -/
  | noSuchBehaviour
  deriving DecidableEq, Repr

/-- Why a step is refused. -/
inductive Refusal where
  /-- Raised by an arm of `exec` whose command has no meaning yet. Safe: no next state is claimed. -/
  | notModelled (mnemonic : String)
  deriving DecidableEq, Repr

/-! ### Reset, start and image (18 R459 R460, 02 R39 to R69) -/

/-- The device's start phase: POR held, WARM held, starting, SAFE, started (R5, R55, R460). -/
inductive Phase where
  | por | warm | starting | safe | started
  deriving DecidableEq, Repr

/-- Pins, supplies and straps that the device sees, the steps of the start sequence already made, the ring base block in force before the last WARM or SAFE until an image sets a base, the bank of an event ring given up that still waits for its test, whether a slot plan has been accepted (R56), the ticks of the last assertion of CAPLIM_N (R406), of the last entry into RUN (R52) and of the start of the last WARM (R460) (R55, R459 to R462). -/
structure Boot where
  phase     : Phase
  porN      : Bool
  warmN     : Bool
  railLow   : BitVec 8
  warmCause : Bool
  testMode  : Bool
  smbAddr   : BitVec 3
  xoOk      : Bool
  refOk     : Bool
  caplimN   : Bool
  caplimAt  : Nat
  wakeN     : Bool
  ppsLevel  : Bool
  longRaised : Bool
  selfOk    : Bool
  memOk     : Bool
  flashOk   : Bool
  dirOk     : Bool
  barnOk    : Bool
  loaded    : Nat
  bootSlot  : Fin 2
  second    : Bool
  ringKept  : Option Nat
  oldBank   : Option Nat
  planned   : Bool
  confirmed : Bool
  runAt     : Nat
  warmDue   : Bool
  hotWait   : Bool
  safeAt    : Nat
  warmAt    : Nat
  deriving DecidableEq, Repr

/-- One section of an image after its checks: TYPE, TARGET, unpacked bytes, and what the loader reads of a section whose layout the spec does not give (log 8). -/
structure Section where
  typ    : Byte
  target : BitVec 16
  bytes  : List Byte
  extra  : SecExtra
  deriving DecidableEq, Repr

/-- An image: its slot, its 256-byte header and section table as read, and the sections loaded so far, in table order (R42 to R44). -/
structure Image where
  slot     : Fin 2
  header   : List Byte
  table    : List Byte
  sections : List Section
  deriving DecidableEq, Repr

/-- The slot open for SLOT_WRITE and the 4 KiB sectors erased since it was opened (R63). -/
structure OpenSlot where
  slot    : Fin 2
  touched : List Nat
  deriving DecidableEq, Repr

/-- An adoption in progress (R66 to R68): the new image, the boundary asked for, whether its background check has passed, the jobs still to restart in order, the jobs that run under it in order, and those of them that took it without a restart. -/
structure Adopt where
  image   : Image
  atSec   : Nat
  atNs    : Nat
  started : Bool
  checked : Bool
  todo    : List Nat
  done    : List Nat
  idle    : List Nat
  deriving DecidableEq, Repr

/-- An adoption being undone (R68): the image that failed, and the jobs that still run under it, in the order of their adoption. -/
structure Undo where
  image   : Image
  left    : List Nat
  deriving DecidableEq, Repr

/-! ### Jobs (11 R317 to R338) -/

/-- A barn region entry (R320): BASE and SIZE in MiB, MODE. -/
structure BarnRegion where
  base : Nat
  size : Nat
  mode : Nat
  deriving DecidableEq, Repr

/-- A job record (R319). -/
structure JobRec where
  valid    : Bool
  kind     : Bool
  prot     : Bool
  role     : Nat
  prio     : Nat
  frondMin : Nat
  fronds   : BitVec 6
  sliceMs  : Nat
  channels : BitVec 24
  ways     : BitVec 16
  fhShare  : List Nat
  rzShare  : List Nat
  save     : Nat
  pfloor   : Nat
  barn     : List BarnRegion
  deriving DecidableEq, Repr

/-- The record of a job that does not exist (R319). -/
def JobRec.none : JobRec := ⟨false, false, false, 0, 0, 1, 0, 0, 0, 0, [0, 0, 0, 0], [0, 0, 0, 0], 0, 0, []⟩

/-- A restart in progress (R329): tick of its start, whether the job was re-bound for it (R330), whether it is an adoption restart (R66) and under which image's sections. -/
structure Restart where
  since   : Nat
  rebound : Bool
  adopt   : Bool
  newImg  : Bool
  deriving DecidableEq, Repr

/-- A re-binding waiting for its boundary (R335): the boundary and the new records. -/
structure Rebind where
  atSec : Nat
  atNs  : Nat
  recs  : List (Nat × JobRec)
  named : List Nat
  deriving DecidableEq, Repr

/-- The slice ring of the fronds in a mask (R326, R327): the member whose slice runs, at which nanosecond of domain A that slice began, whether it has ended and at which tick, whether the switch has started. -/
structure Ring where
  fronds  : BitVec 6
  running : Nat
  began   : Nat
  endedAt : Option Nat
  switch  : Bool
  deriving DecidableEq, Repr

/-! ### Time (14 R382 to R401) -/

/-- The counter of one domain (R383) and its increment in force, the tick of the last servo write (R389), the tick HOLDOVER was entered, the ticks of the last step and of the last SET, 1 more than the tick (R387; 0: none yet), whether the domain has been LOCKED (R55, R390), and the slot edge of the receive spacing that has fired last, 1 more than its nanosecond (R388; 0: none yet). -/
structure Domain where
  sec    : BitVec 64
  ns     : BitVec 30
  frac   : BitVec 40
  incr   : BitVec 48
  servoAt : Nat
  holdAt : Nat
  stepAt : Nat
  setAt  : Nat
  reached : Bool
  edgeAt : Nat
  deriving DecidableEq, Repr

/-- The PPS_IN judge (R395, R462): last accepted edge by tick, runs of bad and good seconds, whether the second under way is bad, holds a stuck pulse, holds a runt; and PPS_OUT (R396). -/
structure Pps where
  lastEdge : Option Nat
  badRun   : Nat
  goodRun  : Nat
  badNow   : Bool
  stuckNow : Bool
  runtNow  : Bool
  outUntil : Nat
  outLevel : Bool
  deriving DecidableEq, Repr

/-- The PTP state of one domain (R391, R394): the master selected and its rank, the Sync awaiting its Follow_Up, the last Sync's number, t1 and t2, the Delay_Req sent with t3, and the corrections of Sync and Follow_Up summed, in 2^-16 ns. -/
structure Ptp where
  master   : Option (BitVec 64)
  announceRank : Nat
  twoStep  : Option (BitVec 16)
  syncSeq  : BitVec 16
  t1       : Option FullTime
  t2       : Option FullTime
  reqSeq   : BitVec 16
  t3       : Option FullTime
  corr     : Int
  deriving DecidableEq, Repr

/-! ### Management, SMBus, events -/

/-- A management message leaving the device (R60): OPCODE, SEQ, STATUS, payload. -/
structure MgMsg where
  opcode  : Nat
  seq     : Nat
  status  : Nat
  payload : List Byte
  deriving DecidableEq, Repr

/-- The MG port: link, frames waiting, the device's SEQ counter (R35, R60, R61). -/
structure Mg where
  up     : Bool
  queue  : List MgMsg
  devSeq : Word
  deriving DecidableEq, Repr

/-! ### Cube array, accumulator, drain (03, 04) -/

/-- An installed pane (R77): first row, height, first column, width, in cubes. -/
structure PaneCfg where
  i0 : Nat
  h  : Nat
  j0 : Nat
  w  : Nat
  deriving DecidableEq, Repr

/-- A pass command (R85), with the stream whose ARRAY_LOOP generated it and that descriptor's place in the granary. -/
structure PassCmd where
  pane : Nat
  op : Nat
  fmtS : Nat
  fmtT : Nat
  newstat : Bool
  conjT : Bool
  transT : Bool
  accInc : Bool
  lastK : Bool
  stat : Nat
  strm : Nat
  pitch : Nat
  stride : Nat
  blocks : Nat
  tile : Nat
  mValid : Nat
  nValid : Nat
  kValid : Nat
  zpS : Nat
  zpT : Nat
  seq : Nat
  rsvd : Bool
  stream : Nat
  pos : Nat
  deriving DecidableEq, Repr

/-- The contents of one stationary register set (R91): pass tag, the bytes loaded, the shift bytes that came with them, and whether a word was poisoned. -/
structure StatReg where
  tag    : Fin 4
  bytes  : List Byte
  shifts : List Byte
  poison : Bool
  deriving DecidableEq, Repr

/-- One pane: its place in the installed plan, its command queue, the stationaries loaded for queued passes in order, the stationary of the current pass, the number of its next new pass, whether a matrix pass has run since installation, the passes run and not yet reported complete, and whether a check has stopped it. -/
structure Pane where
  cfg    : Option PaneCfg
  queue  : List PassCmd
  loaded : List StatReg
  cur    : Option StatReg
  nextTag : Fin 4
  everMM : Bool
  ran    : List PassCmd
  stopped : Bool
  deriving DecidableEq, Repr

/-- A pane outside every plan. -/
def Pane.empty : Pane := ⟨none, [], [], none, 0, false, [], false⟩

/-- The array of one frond: command queue, captured plan, panes, and whether a rejected command has stopped dispatch, the job faulting once the commands dispatched before it are complete (R78, R84, R90). -/
structure Arr where
  queue    : List PassCmd
  captured : Option (List Nat)
  panes    : Vector Pane 32
  halted   : Bool
  deriving DecidableEq, Repr

/-- Correction state of one 4 × 4 cell (R107), and the accumulator type of its region: 0 INT32, 1 FP32, 2 CI32, 3 INT32 of an INT4 stream (R80, R109). -/
structure Cell where
  r0 : Word
  r1 : Word
  r2 : Word
  r3 : Word
  nk : Word
  zs : Byte
  zt : Byte
  mix : Bool
  ty : Nat
  deriving DecidableEq, Repr

/-- A cell that no pass has written. -/
def Cell.zero : Cell := ⟨0, 0, 0, 0, 0, 0, 0, false, 0⟩

/-! ### Stream engine (05) -/

/-- Progress of one receiver of a multicast: frond, whether its own wait has been met, blocks delivered, whether it is detached (R145, R146). -/
structure McRx where
  frond     : Fin 6
  started   : Bool
  delivered : Nat
  detached  : Bool
  deriving DecidableEq, Repr

/-- A descriptor in flight (R132): its 256 bits and place, whether its work is done, its pass template with the number of commands generated, the passes not yet reported complete, the multicast blocks (1,024 bytes each: leaf offset, byte, whether its word is poisoned) and receivers, and the requests in flight in the first and the barn pool (R144). -/
structure Flight where
  desc   : BitVec 256
  pos    : Nat
  done   : Bool
  tmpl   : BitVec 256
  gen    : Nat
  open_  : Nat
  blocks : List (List (Nat × Byte × Bool))
  rx     : List McRx
  req1   : Nat
  reqB   : Nat
  deriving DecidableEq, Repr

/-- One stream (R131 to R136): fetched descriptors not yet issued with their places, where the next bale starts, whether a fetched bale ended with LINK or END, descriptors in flight in issue order, the repeat counter and the LINK that loaded it, whether an abort waits for the descriptors in flight, when the current wait began, and its last wait-for report (R160). -/
structure Stream where
  fetched  : List (Nat × BitVec 256)
  next     : Nat
  ended    : Bool
  flight   : List Flight
  rep      : Nat
  repAt    : Nat
  aborting : Bool
  waitAt   : Option Nat
  reports  : Nat
  deriving DecidableEq, Repr

/-- An idle stream. -/
def Stream.idle : Stream := ⟨[], 0, false, [], 0, 0, false, none, 0⟩

/-! ### Vector engine and signal cores (06) -/

/-- The vector command that is running (R168): its sixteen words, iteration, index of the next instruction, temporaries, masks M0 to M3, scalars, summary slots; and the completion it still holds. -/
structure VecRun where
  cmd   : List Word
  iter  : Nat
  pc    : Nat
  t     : Vector (BitVec 4096) 8
  m     : Vector (BitVec 512) 4
  s     : Vector Word 8
  slots : Vector Word 16
  deriving DecidableEq, Repr

/-- A summary record (R183). -/
structure SumRec where
  tag   : BitVec 16
  slots : Vector Word 16
  deriving DecidableEq, Repr

/-- The vector engine: command queue, running command, summary queue, and whether a rejected command has stopped it (R171, R172, R183). -/
structure Vec where
  queue  : List (List Word)
  run    : Option VecRun
  sums   : List SumRec
  halted : Bool
  deriving DecidableEq, Repr

/-- An active repeat level (R193): first and last body instruction, iterations left. -/
structure RepLevel where
  first : Nat
  last  : Nat
  left  : Nat
  deriving DecidableEq, Repr

/-- What a core saves when an interrupt is taken (R196). -/
structure Shadow where
  ret  : BitVec 13
  reps : List RepLevel
  ix   : Word
  ien  : BitVec 3
  src  : Fin 3
  deriving DecidableEq, Repr

/-- An entry of the mover's queue in program order (R198): a transfer, or a post that waits for the transfers before it, with the index of its PST. -/
inductive MovItem where
  | move (loc : Nat) (dev : Nat) (toLocal : Bool) (len : Nat)
  | post (sem : Nat) (side : Bool) (count : Nat) (at_ : Nat)
  deriving DecidableEq, Repr

/-- A transfer of control waiting for its delay slots (R192): slots left, where it goes (none: not taken), and whether it is a branch, a call or return, or a return from a handler. -/
structure Delay where
  left   : Nat
  target : Option (BitVec 13)
  kind   : Fin 3
  deriving DecidableEq, Repr

/-- The state of one signal core beside its registers in the register map (R186 to R199). Of the repeat cache (R194): the body it holds (first and last index), the words captured so far by index, and the body that is captured again at its level's next iteration. -/
structure SigCore where
  d     : Vector Word 16
  p     : Vector (BitVec 18) 8
  n     : Vector (BitVec 18) 8
  l     : Vector Word 8
  accRe : Vector (BitVec 40) 4
  accIm : Vector (BitVec 40) 4
  ph    : Word
  frq   : Word
  ix    : Word
  ien   : BitVec 3
  ivec  : BitVec 13
  pc    : BitVec 13
  delay : Option Delay
  reps  : List RepLevel
  cache : Option (Nat × Nat)
  held  : List (Nat × BitVec 64)
  recap : Option (Nat × Nat)
  calls : List (BitVec 13)
  di    : Nat
  atRep : Bool
  shadow : Option Shadow
  pend  : BitVec 3
  mbi   : List Word
  mbo   : List Word
  mover : List MovItem
  stop  : Bool
  asleep : Bool
  deriving DecidableEq, Repr

/-- A signal core after JOB reset: every register 0 (R186). -/
def SigCore.zero : SigCore :=
  ⟨Vector.replicate 16 0, Vector.replicate 8 0, Vector.replicate 8 0, Vector.replicate 8 0, Vector.replicate 4 0,
   Vector.replicate 4 0, 0, 0, 0, 0, 0, 0, none, [], none, [], none, [], 0, false, none, 0, [], [], [], false, false⟩

/-! ### Thresher and group command queues of a frond -/

/-- The thresher command that is running and what it has computed (R248, R255, R258): its sixteen words, whether its computation is done, whether THR_CANCEL has ended it, and its status record. -/
structure ThrRun where
  cmd       : List Word
  computed  : Bool
  cancelled : Bool
  status    : List Byte
  deriving DecidableEq, Repr

/-- The thresher: queue, running command, and whether a rejected command has stopped it (R242, R257). -/
structure Thr where
  queue  : List (List Word)
  run    : Option ThrRun
  halted : Bool
  deriving DecidableEq, Repr

/-- One frond (R18): array, correction state of its tiles (key 256 × tile + 16 × cell row + cell column), array loops still generating, streams and the one served last (R162), vector engine, signal cores, thresher, group command queue. -/
structure Frond where
  arr   : Arr
  cells : List (Nat × Cell)
  gens  : List (Nat × Nat)
  streams : Vector Stream 32
  served  : Nat
  vec   : Vec
  sig   : Vector SigCore 8
  thr   : Thr
  grp   : List (List Word)
  deriving DecidableEq, Repr

/-- A frond after JOB reset: every queue empty, every unit idle. -/
def Frond.idle : Frond :=
  { arr := ⟨[], none, Vector.replicate 32 Pane.empty, false⟩, cells := [], gens := [],
    streams := Vector.replicate 32 Stream.idle, served := 31, vec := ⟨[], none, [], false⟩,
    sig := Vector.replicate 8 SigCore.zero, thr := ⟨[], none, false⟩, grp := [] }

/-- A frond saved with its registers by a slice switch (R328). -/
structure SavedFrond where
  f     : Fin 6
  unit  : Frond
  regs  : List (Nat × Word)
  deriving DecidableEq, Repr

/-- One job (R317): the record in force, the ticks of its faults that count (R331), a restart in progress, the slice's remaining and shortened time in µs (R327), the state saved by a switch, whether its first slice starts from JOB-reset state (R328), and the layers whose spill has been reported since its last restart (R153). -/
structure Job where
  bind   : JobRec
  faults : List Nat
  restart : Option Restart
  short  : Nat
  saved  : List SavedFrond
  fresh  : Bool
  spilled : List Nat
  deriving DecidableEq, Repr

/-- A job that does not exist. -/
def Job.none : Job := ⟨JobRec.none, [], Option.none, 0, [], true, []⟩

/-! ### Memories (10) and crossings (01) -/

/-- A loft-cache line held (R312): barn line number (offset / 256), way, and for a dirty line the bytes that the barn itself still holds. The list that holds them runs from the least to the most recently used; the bytes that an access sees are in `mem`. -/
structure LoftLine where
  line  : Nat
  way   : Fin 16
  stale : Option (List Byte)
  deriving DecidableEq, Repr

/-- Granary and barn state beside their contents: bank states that differ from OFF (1 ON, 2 RETENTION, 3 MASKED; R304), leaf banks and signal-core memories in RETENTION, LR reservations by controller and word address (R300), loft lines, way masks by job (R313). -/
structure Mems where
  bank   : List (Nat × Nat)
  resv   : List (Nat × Nat)
  loft   : List LoftLine
  ways   : List (Nat × BitVec 16)
  deriving DecidableEq, Repr

/-- One queue of one crossing (R23, R24, R241): the items that the consumer sees in order, those that the producer holds for want of a credit with their source, its credits, and the source last served of thresher and movers. -/
structure Crossing where
  items   : List (List Byte)
  waiting : List (XqSrc × List Byte)
  credits : Nat
  last    : XqSrc
  deriving DecidableEq, Repr

/-! ### Faults (16) -/

/-- One history entry (R419): location code and uptime of its first fault. -/
structure Hist where
  loc   : BitVec 24
  first : Nat
  deriving DecidableEq, Repr

/-- One remedy in force (R422): the words of its EV_RETIRED ARG. -/
structure Remedy where
  loc    : BitVec 24
  remedy : Nat
  cause  : Nat
  uptime : Nat
  deriving DecidableEq, Repr

/-- A journal record waiting for flash (R430): its 32 bytes and whether it is an event record. -/
structure JrnlRec where
  bytes : List Byte
  event : Bool
  deriving DecidableEq, Repr

/-- Fault state: history table, remedies in force, corrected words of the hour by location, pattern tests due with their result, banks to be tested for their corrected words (R421), permanent locations whose remedy waits for its restart with their cause, gleaner position and pass start, journal sectors skipped for good, erase credit, records waiting, sensor readings. -/
structure Flt where
  hist    : List Hist
  remedies : List Remedy
  ce      : List (Nat × Nat)
  tests   : List (BitVec 24 × Bool)
  rateTests : List Nat
  perm    : List (BitVec 24 × Nat)
  gleanBank : Nat
  gleanStart : Nat
  skipped : List Nat
  credit  : Nat
  waiting : List JrnlRec
  sensors : List (BitVec 16)
  deriving DecidableEq, Repr

/-! ### Security, fuses, JTAG (17) -/

/-- A fuse write that waits for RUN or SAFE without a thermal cap (R440): the anti-rollback counter, a life-cycle transition, a revocation, or a key (slot 1 to 3, 0 for OIK) with its bytes. -/
inductive FuseDue where
  | arb
  | transition (target : Nat)
  | revoke (slot : Nat)
  | key (slot : Nat) (bytes : List Byte)
  deriving DecidableEq, Repr

/-- The fuses (02 R59, 17 R435 to R442, 03 R97, 10 R308). -/
structure Fuses where
  pair    : Bool
  lot     : BitVec 36
  wafer   : BitVec 5
  dieX    : BitVec 7
  dieY    : BitVec 7
  uid     : BitVec 64
  life    : Nat
  slots   : Vector (Option (List Byte)) 4
  revoked : BitVec 4
  mik     : Option (List Byte)
  oik     : Option (List Byte)
  dus     : Bool
  seed    : Bool
  arb     : Nat
  cert    : List Byte
  spareRow : Vector (Option (Nat × Bool)) 6
  spareCol : Vector (Option (Nat × Bool)) 6
  badRow  : Vector Bool 6
  badCol  : Vector Bool 6
  grnSpare : List (Nat × Nat × Bool)
  badSpare : List Nat
  due     : List FuseDue
  deriving DecidableEq, Repr

/-- A DEBUG_UNLOCK session (R448): scope, authority, whether over JTAG, tick at which DURATION ends (none: open from POR in MAKER). -/
structure Session where
  scope : BitVec 8
  auth  : BitVec 4
  jtag  : Bool
  until_ : Option Nat
  dur   : Nat
  deriving DecidableEq, Repr

/-- A zeroisation under way (R449): the session it opens at its end, or none for a life-cycle transition, its cause, and the tick it started. -/
structure Zeroise where
  open_ : Option Session
  cause : Nat
  since : Nat
  deriving DecidableEq, Repr

/-- What the security controller holds beside its registers: the challenge (bytes, tick it was drawn), the open session, the run of failures and the tick at which the lockout ends (R447), a zeroisation under way, whether one has run since WARM (R449), whether key RAM has been cleared, a life-cycle change to report after the reset (R453), controllers halted by debug, the JTAG instruction register code, the mailbox words received and the words to return (R445, R448). -/
structure Sec where
  chal    : Option (List Byte × Nat)
  session : Option Session
  failRun : Nat
  lockEnd : Nat
  zero    : Option Zeroise
  zeroised : Bool
  keysGone : Bool
  owedLc  : Option (Nat × Nat)
  halted  : List Nat
  jtagIr  : Nat
  tlr     : Bool
  mboxIn  : List Word
  mboxOut : List Word
  bscan   : List Bool
  deriving DecidableEq, Repr

/-! ### Receiver (07) -/

/-- One allocation of an accepted uplink plan (R205, R210) with its guard record (R229): frond, whether role 0 and role 1 had active models (R212), marks, erased and total port-REs (R216), path results, decision and REASON, whether it is in flight to the MAC: queued, reported or delivered, how far its label work is (0 none, 1 started, 2 coded, 3 over), and the codeword of its label ENCODE. Of its buffers (R226, R228, R232), as granary offsets / 32: the reference and the learned path's LLR8, the one handed to the thresher, the decoded bits; and the sum of the scaling commands' slot 14 so far. -/
structure Alloc where
  index  : Nat
  layers : Nat
  path   : Nat
  ueid   : Nat
  prb0   : Nat
  nprb   : Nat
  sym0   : Nat
  nsym   : Nat
  qm     : Nat
  pilotMap : Nat
  ppat   : Nat
  layer0 : Nat
  seqId  : Nat
  decode : List Byte
  frond  : Fin 6
  models : Bool
  marks  : Nat
  erased : Nat
  res    : Nat
  refDone : Bool
  lrnDone : Bool
  resL   : Nat
  resR   : Nat
  mllrL  : Nat
  mllrR  : Nat
  clampL : Nat
  nllr   : Nat
  tL     : Nat
  tR     : Nat
  tG     : Nat
  decision : Option Nat
  reason : Nat
  done   : Bool
  crcOk  : Bool
  labelled : Nat
  bits   : List Byte
  bufR   : Nat
  bufL   : Nat
  buf    : Option Nat
  dec    : Option Nat
  clamps : Nat
  deriving DecidableEq, Repr

/-- One uplink slot with an accepted plan (R208, R213, R214): slot index, the start edge in nanoseconds of its domain, IDLE_MASK, allocations, symbols released, REs written so far (key: see `gridKey`; CI16 value), whether its start edge has passed, the model set in use for it (R212), whether D(n) has passed, the CI8 copy (R217; key as the grid's), the least-squares estimates (R223; key: see `lsKey`), and each user's phase and ramp at the symbols released (R218; key: see `turnKey`). -/
structure RxSlot where
  idx      : Nat
  start    : Nat
  idleMask : Nat
  allocs   : List Alloc
  released : BitVec 14
  grid     : List (Nat × Word)
  edge     : Bool
  mset     : Nat
  ended     : Bool
  copies    : List (Nat × BitVec 16)
  est       : List (Nat × Word)
  turns     : List (Nat × (Word × Word))
  deriving DecidableEq, Repr

/-- A pilot symbol as a tracking loop remembers it (R219): its symbol number since the epoch, the pilot REs its pattern has, and the estimates of those not erased. -/
structure PilotSeen where
  sym : Nat
  res : List (Nat × Nat × Nat)
  obs : List ((Nat × Nat × Nat) × (Int × Int))
  deriving DecidableEq, Repr

/-- One tracking loop (R218 to R221): phase at a symbol (numbered since the epoch), frequency integrator, ramp, current frequency, the last pilot symbol, runs of good and bad updates, LOCKED; and for a user its UEID and the slot number last seen. -/
structure Loop where
  id    : Nat
  ph    : Word
  at_   : Nat
  fo    : Word
  foI   : Word
  ramp  : Word
  prev  : Option PilotSeen
  good  : Nat
  bad   : Nat
  locked : Bool
  seen  : Nat
  deriving DecidableEq, Repr

/-- The receiver: slots with an accepted plan, consecutive silent symbols by port (R215), radio-head loops, user loops (oldest entry number first), noise sums and counts by port and 4-PRB group (R233), last noise codes (R234), count of slots started. -/
structure Rx where
  slots  : List RxSlot
  silent : List (Nat × Nat)
  heads  : List Loop
  users  : List Loop
  noise  : List (Nat × (Nat × Nat))
  codes  : List (Nat × Nat)
  deriving DecidableEq, Repr

/-! ### Fronthaul (12) -/

/-- A control or one-way delay frame waiting at a port's control queue (R346, R351, R352): link, destination address, job (16: none), message type (2 control, 5 one-way delay), the message's bytes after the eCPRI common header. -/
structure CtlOut where
  link  : Nat
  addr  : BitVec 48
  job   : Nat
  typ   : Nat
  body  : List Byte
  deriving DecidableEq, Repr

/-- A launch queue entry (R264, R352): link, destination address, job, compact launch time in its job's domain, slot index, antenna port, symbol and range of PRBs, INDEXes of the allocations that it belongs to, the message's bytes after SEQ_ID. -/
structure Launch where
  link   : Nat
  addr   : BitVec 48
  job    : Nat
  time   : Nat
  idx    : Nat
  port   : Nat
  sym    : Nat
  prb0   : Nat
  nprb   : Nat
  allocs : List Nat
  body   : List Byte
  deriving DecidableEq, Repr

/-- A frame sent by a fronthaul link, or by MG for PTP (the model's log, log 4): link (16: MG), destination address, VLAN tag, what it carries (eCPRI type 0, 2 or 5; 7 PTP), and the bytes after the eCPRI common header, or of the PTP message. -/
structure FhFrame where
  link : Nat
  addr : BitVec 48
  tag  : Option Nat
  typ  : Nat
  body : List Byte
  deriving DecidableEq, Repr

/-- One fronthaul port: launch queue, control queue, token buckets by job (credit in 1/64 byte at a tick; a job not listed has a full bucket) (R353), whether a frame is on the line, the job served last in the control round robin, PTP frames waiting with their link. -/
structure FhPort where
  launch  : List Launch
  ctl     : List CtlOut
  bucket  : List (Nat × (Nat × Nat))
  busy    : Bool
  lastJob : Nat
  ptp     : List (Nat × List Byte)
  deriving DecidableEq, Repr

/-- A one-way delay measurement waiting for its follow-up (R351): link, requester, measurement identity, receive stamp. -/
structure Owd where
  link  : Nat
  addr  : BitVec 48
  id    : Nat
  stamp : FullTime
  deriving DecidableEq, Repr

/-- The fronthaul: ports, last SEQ number received by (link-independent) PC_ID or RTC_ID key, next number to send by key, measurements open. -/
structure Fh where
  ports  : Vector FhPort 4
  rxSeq  : List (Nat × Option Nat)
  txSeq  : List (Nat × Nat)
  owd    : List Owd
  deriving DecidableEq, Repr

/-! ### Transmit (08 R259 R260, 12 R348) -/

/-- One allocation of an accepted downlink plan (R259): plan fields, the bytes of its transport block and precoder received so far, whether it was dropped at the cut-off or has started, and whether a launch of it has already been reported missed (R32). -/
structure TxAlloc where
  index  : Nat
  layers : Nat
  pmode  : Nat
  ueid   : Nat
  prb0   : Nat
  nprb   : Nat
  sym0   : Nat
  nsym   : Nat
  qm     : Nat
  pilotMap : Nat
  ppat   : Nat
  layer0 : Nat
  seqId  : Nat
  encode : List Byte
  tb     : List (Nat × Option Byte)
  prec   : List (Nat × Option Byte)
  dropped : Bool
  started : Bool
  missed : Bool
  deriving DecidableEq, Repr

/-- What a downlink section carries (R32, R264): an antenna port's symbol over `nprb` PRBs from `prb0` on. -/
structure TxRange where
  port : Nat
  sym  : Nat
  prb0 : Nat
  nprb : Nat
  deriving DecidableEq, Repr

/-- One downlink slot with an accepted plan: slot index, start edge in nanoseconds of the transmit domain, allocations, whether the cut-off has passed, and the sections that have been queued, or have been handled as late (R32). -/
structure TxSlot where
  idx    : Nat
  start  : Nat
  allocs : List TxAlloc
  cut    : Bool
  queued : List TxRange
  late   : List TxRange
  deriving DecidableEq, Repr
/-! ### On-site training (09) -/

/-- A promotion or rollback waiting for a slot start edge (R286, R288): earliest time of the edge in nanoseconds of the receive domain; for a rollback whether it was requested and whether the CRC test fired. -/
inductive Pending where
  | promote (at_ : Nat) (set : CandSub)
  | rollback (requested crc : Bool)
  deriving DecidableEq, Repr

/-- A watch (R287): start edge of slot p in nanoseconds of the receive domain, the roles swapped, the edge-class table in force before (none: the set was not an edge-class set), and MSET before. -/
structure Watch where
  start  : Nat
  roles  : BitVec 2
  edge   : Option (Option (List (Byte × Byte)))
  mset   : Nat
  deriving DecidableEq, Repr

/-- The figures of one model over one held-out record (R284): members decoded with CRC pass, LLRs, mutual information, iterations. -/
structure GateFigures where
  s  : Nat
  nl : Nat
  mi : Int
  it : Nat
  deriving DecidableEq, Repr

/-- What the gate computes over one held-out record: its RSEQ, and the incumbent's and the candidate's figures (R284). -/
structure GateRec where
  rseq : Nat
  inc  : GateFigures
  cand : GateFigures
  deriving DecidableEq, Repr

/-- Training state beside its registers: active slot of roles 0 and 1 (R266), contents of the model slots, promoted edge-class table, highest MSET used since the last IMG reset (R267), candidate set, a gate under way with its figures, a pending promotion or rollback, the watch, outcome counts of the slots concerned: start edge, allocations, REFERENCE decisions, CRC_FAIL results (R287), settled and persisted MSET with the promotion's seconds, tick of the last persist, half being written with its MSET, next held-out RSEQ and its value at the last IMG reset, label bucket in bytes and the tick it was last filled, snapshot, whether an epoch runs, next draw, masters, their BF16 working copies, moments, checkpoints written so far, the first of them that may be resumed from (R292) and steps since the last, number of the latest epoch (R277). -/
structure Trn where
  active   : BitVec 2
  slots    : List (Nat × List Layer)
  edge     : Option (List (Byte × Byte))
  edgeCand : Option (List (Byte × Byte))
  maxMset  : Nat
  cand     : Option CandSub
  gate     : Option (List GateRec)
  pending  : Option Pending
  watch    : Option Watch
  past     : List (Nat × (Nat × Nat × Nat))
  settled  : Option (Nat × Nat)
  persisted : Option Nat
  persistAt : Nat
  writing  : Option (Nat × Nat)
  promoSec : Nat
  heldSeq  : Nat
  heldBase : Nat
  credit   : Nat
  creditAt : Nat
  snap     : Option (Nat × Nat)
  running  : Bool
  draw     : Nat
  w        : List Word
  wb       : List (BitVec 16)
  mom1     : List Word
  mom2     : List Word
  ckpt     : Nat
  ckptFrom : Nat
  since    : Nat
  epoch    : Nat
  deriving DecidableEq, Repr

/-! ### Power (15) -/

/-- One island with operating points (R402 to R405): present point, the point a change under way leads to, whether the change is stopped by droop and since which tick it waits, whether droop is present. -/
structure IslandPt where
  point  : Nat
  target : Option Nat
  waitAt : Option Nat
  droop  : Bool
  deriving DecidableEq, Repr

/-- A power state transition in progress (R412): target, cause code of EV_PWR_STATE. -/
structure Trans where
  target : Nat
  cause  : Nat
  deriving DecidableEq, Repr

/-- Power state beside its registers: islands (0 to 5 arrays, 6 to 11 lanes, 12 fabric), cap controller decisions (10 µs each) and sensor readings (100 µs each) made, control average and 1 ms average in 0.125 W, decisions in a row that relaxed, decision at which the floor was reached or the last shed was made, shed jobs with their savings (latest first), the shed being measured with P at its moment, whether the device holds at the floor, decisions since which the average has been at or below C and the restore test has held, thermal cap in 0.125 W with the reading of its next step and since which reading it is cool, transition, wake time. -/
structure Pwr where
  isl     : Vector IslandPt 13
  clock   : Nat
  tclock  : Nat
  p       : Nat
  avg     : Nat
  relax   : Nat
  floorAt : Option Nat
  sheds   : List (Nat × Nat)
  measure : Option (Nat × Nat)
  hold    : Bool
  okAt    : Option Nat
  restAt  : Option Nat
  therm   : Option Nat
  thermAt : Nat
  coolAt  : Option Nat
  trans   : Option Trans
  wake    : Option (Nat × Nat)
  tripped : Bool
  deriving DecidableEq, Repr

/-! ### Group operation (13) -/

/-- One rhizome port (R356, R361, R362): the peer's address from HELLO, frames waiting by priority level 1 to 4 (level 4 with their job), whether a frame is on the line, token buckets by job as for a fronthaul port, the job served last, the stamp of the DELAY_REQ that is open, and the last delay measurements in 1/64 ns, latest first. -/
structure RzPort where
  peer    : Option (BitVec 48)
  q1      : List RzFrame
  q2      : List RzFrame
  q3      : List RzFrame
  q4      : List (Nat × RzFrame)
  busy    : Bool
  bucket  : List (Nat × (Nat × Nat))
  lastJob : Nat
  t1      : Option FullTime
  delays  : List Nat
  deriving DecidableEq, Repr

/-- One 8,192-byte part of a group operation at this node (R374): its number, the inputs arrived by child rank, whether it has been combined and sent, and whether its result is known. -/
structure OpPart where
  part   : Nat
  inputs : List (Nat × List Byte)
  sent   : Bool
  result : Option (List Byte)
  deriving DecidableEq, Repr

/-- A group operation at this node (R373 to R376), its own or one that only its subtree has started: job, RTAG, slot index, frond and command words once issued, parts, barrier arrivals by child rank, whether the arrival has gone up, the local release time of a barrier in compact time, and whether it has failed. -/
structure GrpOp where
  job    : Nat
  rtag   : Nat
  slot   : Nat
  frond  : Option (Fin 6)
  cmd    : List Word
  parts  : List OpPart
  arrived : List Nat
  upSent : Bool
  release : Option Nat
  failed : Bool
  deriving DecidableEq, Repr

/-- A membership change waiting for its edge (R367): the edge's full time, admitted and fenced IDs with their cause, the version and the leader it names. -/
structure MemEdge where
  sec    : Nat
  ns     : Nat
  joins  : List Nat
  fence  : List (Nat × Nat)
  version : Nat
  leader : Nat
  deriving DecidableEq, Repr

/-- The group and the rhizome ports (R356 to R377): frame SEQ counter, members ascending, membership version, changes waiting, the member set of slots in flight by slot index, tick of the last BEACON, digests of members (arrived since the last check, missed in a row), the member set that an ADMIT has named, operations. -/
structure Grp where
  ports    : Vector RzPort 4
  seq      : Word
  members  : List Nat
  version  : Nat
  edges    : List MemEdge
  sets     : List (Nat × List Nat)
  beaconAt : Nat
  digests  : List (Nat × Bool × Nat)
  joinSet  : List Nat
  ops      : List GrpOp
  deriving DecidableEq, Repr

/-- An output block of a real-time job kept for the pair's digest (R378): job, slot index, place in the order of R378, bytes. -/
structure PairBlock where
  job  : Nat
  idx  : Nat
  key  : Nat
  crc  : Nat
  bytes : List Byte
  deriving DecidableEq, Repr

/-- The lock-step pair (R378 to R380): blocks of the last 4 slots, own digests by job and slot index, runs of matching slots by job, slots since the last PAIR_SYNC, a takeover due with its cause, a model set sent and not yet acknowledged, the peer's digests not yet compared, whether the device was the active primary before the link came up, bytes of a model set received so far. -/
structure Pair where
  blocks  : List PairBlock
  sds     : List (Nat × Nat × List Byte)
  runs    : List (Nat × Nat)
  silent  : Nat
  due     : Option Nat
  waiting : Bool
  peer    : List (Nat × Nat × List Byte)
  was     : Bool
  rxModel : List Byte
  deriving DecidableEq, Repr

/-- One SerDes lane (R463): filtered signal detect, tick of a loss of alignment that waits for its judgement. -/
structure Lane where
  detect : Bool
  lossAt : Option Nat
  deriving DecidableEq, Repr


/-! ### The whole state -/

/-- The state of the FZ7160. Registers by device address in `regs` (unlisted: the reset value of the register map); memory bytes by device address in `mem` (unlisted: 0, log 3); flash bytes by flash offset (unlisted: 0xFF). -/
structure State where
  /-- Commands waiting, first in first out. -/
  pending : List Instr
  /-- Registers (R7), canonical sparse map over their reset values. -/
  regs    : List (Nat × Word)
  /-- Granary, leaf stores, signal-core memories and barn (R28). -/
  mem     : List Host.Cell
  /-- Aligned addresses of poisoned ECC words (R303). -/
  poison  : List Nat
  /-- Flash contents (R39). -/
  flash   : List Host.Cell
  /-- Flash size in bytes; 0 while absent or unusable (R39). -/
  flashSize : Nat
  /-- 1 GHz ticks of the time island since POR: the model's measure of elapsed time (log 7). -/
  ticks   : Nat
  boot    : Boot
  image   : Option Image
  openSlot : Option OpenSlot
  adopt   : Option Adopt
  undo    : Option Undo
  mg      : Mg
  /-- Event hold buffer (R38), oldest first. -/
  hold    : List (List Byte)
  fuses   : Fuses
  sec     : Sec
  domA    : Domain
  domB    : Domain
  pps     : Pps
  ptpA    : Ptp
  ptpB    : Ptp
  jobs    : Vector Job 16
  rings   : List Ring
  rebind  : Option Rebind
  fronds  : Vector Frond 6
  mems    : Mems
  cross   : List (Nat × Crossing)
  /-- Stall counter of each queue of each crossing (R24, R27), 0 where not listed. -/
  stalls  : List (Nat × Word)
  gated   : List Nat
  flt     : Flt
  rx      : Rx
  tx      : List TxSlot
  fh      : Fh
  trn     : Trn
  pwr     : Pwr
  grp     : Grp
  pair    : Pair
  /-- SerDes lanes in the order of R416's lane index. -/
  lanes   : Vector Lane 33
  /-- Frames sent by the rhizome ports (the model's own log, log 4). -/
  rzOut   : List (Nat × RzFrame)
  /-- Frames sent by the fronthaul ports (the model's own log, log 4). -/
  fhOut   : List FhFrame
  /-- Frames and messages sent over MG (the model's own log, log 4). -/
  mgOut   : List MgMsg
  /-- SMBus target: alarm bits set (R64), SMB_ALERT_N asserted (R466). -/
  smbAlarms : BitVec 5
  smbAlert : Bool
  /-- Answers given over SMBus, latest last (the model's own log, log 4); none: NACK. -/
  smbOut  : List (Option (List Byte))
  /-- Interrupts given to frond controllers: frond, SOURCE code of the unit, and the stream, frond or TAG concerned (R135, R146, R151, R171, R255; the model's own log, log 4). -/
  irqOut  : List (Nat × Nat × Nat)
  /-- Values read by register and JTAG accesses, latest last (the model's own log, log 4). -/
  readOut : List Word
  /-- Index of the next free value (the model's own, log 5). -/
  freeCtr : Nat
  deriving DecidableEq, Repr

/-! ### Reset -/

/-- Boot state while POR_N is low: inputs at their idle levels (log 2). -/
def Boot.reset : Boot :=
  { phase := .por, porN := false, warmN := true, railLow := 0, warmCause := false, testMode := false, smbAddr := 0,
    xoOk := false, refOk := false, caplimN := true, caplimAt := 0, wakeN := true, ppsLevel := false, longRaised := false, selfOk := false,
    memOk := false, flashOk := false, dirOk := false, barnOk := false, loaded := 0, bootSlot := 0, second := false,
    ringKept := none, oldBank := none, planned := false, confirmed := false, runAt := 0, warmDue := false, hotWait := false, safeAt := 0, warmAt := 0 }

/-- The fuses of a part in MAKER with nothing fused (log 2). -/
def Fuses.blank : Fuses :=
  { pair := false, lot := 0, wafer := 0, dieX := 0, dieY := 0, uid := 0, life := 0, slots := Vector.replicate 4 none,
    revoked := 0, mik := none, oik := none, dus := false, seed := false, arb := 0, cert := [],
    spareRow := Vector.replicate 6 none, spareCol := Vector.replicate 6 none, badRow := Vector.replicate 6 false,
    badCol := Vector.replicate 6 false, grnSpare := [], badSpare := [], due := [] }

/-- Security state at POR (R445 to R449). -/
def Sec.reset : Sec :=
  { chal := none, session := none, failRun := 0, lockEnd := 0, zero := none, zeroised := false, keysGone := false,
    owedLc := none, halted := [], jtagIr := 1, tlr := true, mboxIn := [], mboxOut := [], bscan := [] }

/-- A domain's counter at POR: UNSET, zero, nominal increment (R383, R389). -/
def Domain.reset : Domain := ⟨0, 0, 0, 0x010000000000, 0, 0, 0, 0, false, 0⟩

/-- No PTP master, no exchange (R391). -/
def Ptp.reset : Ptp := ⟨none, 0, none, 0, none, none, 0, none, 0⟩

/-- Fault state of a part without a journal (R416 to R430). -/
def Flt.reset : Flt :=
  { hist := [], remedies := [], ce := [], tests := [], rateTests := [], perm := [], gleanBank := 0, gleanStart := 0, skipped := [], credit := 0, waiting := [], sensors := [] }

/-- Fronthaul with nothing queued. -/
def Fh.reset : Fh := ⟨Vector.replicate 4 ⟨[], [], [], false, 0, []⟩, [], [], []⟩

/-- Training with the image's own models (R266, R267). -/
def Trn.reset : Trn :=
  { active := 0, slots := [], edge := none, edgeCand := none, maxMset := 0, cand := none, gate := none, pending := none,
    watch := none, past := [], settled := none, persisted := none, persistAt := 0, writing := none, promoSec := 0,
    heldSeq := 0, heldBase := 0, credit := 0, creditAt := 0, snap := none, running := false, draw := 0, w := [], wb := [], mom1 := [],
    mom2 := [], ckpt := 0, ckptFrom := 0, since := 0, epoch := 0 }

/-- Power state at WARM: every island at point 0 (log 2), nothing capped. -/
def Pwr.reset : Pwr :=
  { isl := Vector.replicate 13 ⟨0, none, none, false⟩, clock := 0, tclock := 0, p := 0, avg := 0, relax := 0, floorAt := none, sheds := [],
    measure := none, hold := false, okAt := none, restAt := none, therm := none, thermAt := 0, coolAt := none,
    trans := none, wake := none, tripped := false }

/-- Outside every group: a member set of the device alone (R369; its ID is 0 until an identity section is loaded). -/
def Grp.reset : Grp :=
  { ports := Vector.replicate 4 ⟨none, [], [], [], [], false, [], 0, none, []⟩, seq := 0, members := [], version := 0,
    edges := [], sets := [], beaconAt := 0, digests := [], joinSet := [], ops := [] }

/-- No pair (R378). -/
def Pair.reset : Pair := ⟨[], [], [], 0, none, false, [], false, []⟩

/-- The machine right after reset: POR_N low, every register at its reset value, memory with nothing listed (R10, R460; log 2, log 12). -/
def State.reset : State :=
  { pending := [], regs := [], mem := [], poison := [], flash := [], flashSize := 0, ticks := 0, boot := Boot.reset,
    image := none, openSlot := none, adopt := none, undo := none, mg := ⟨false, [], 0⟩, hold := [], fuses := Fuses.blank, sec := Sec.reset,
    domA := Domain.reset, domB := Domain.reset, pps := ⟨none, 0, 0, false, false, false, 0, false⟩, ptpA := Ptp.reset, ptpB := Ptp.reset,
    jobs := Vector.replicate 16 Job.none, rings := [], rebind := none, fronds := Vector.replicate 6 Frond.idle,
    mems := ⟨[], [], [], []⟩, cross := [], stalls := [], gated := [], flt := Flt.reset, rx := ⟨[], [], [], [], [], []⟩, tx := [],
    fh := Fh.reset, trn := Trn.reset, pwr := Pwr.reset, grp := Grp.reset, pair := Pair.reset,
    lanes := Vector.replicate 33 ⟨false, none⟩, rzOut := [], fhOut := [], mgOut := [], smbAlarms := 0, smbAlert := false,
    smbOut := [], irqOut := [], readOut := [], freeCtr := 0 }

end Sys2Proof.Machine
end

