-- ==== Sys2Proof/Machine/Ops.lean ====
section
/-!
DEFINITION. The named operations every chapter uses: registers and counters (R7, R8, R12), free values, memory regions and bytes (R6, R28), poison (R303), bank states (R304 to R306), time stamps (R474), events (R33 to R38), management messages leaving the device (R60), reset of registers (R10, R11).
-/
namespace Sys2Proof.Machine

open Sys2Proof (Byte Word)

/-! ### Registers -/

/-- A register word. -/
def State.reg (s : State) (a : Nat) : Word := sget (regReset a) s.regs a

/-- The state with a register word written by the device itself. -/
def State.setReg (s : State) (a : Nat) (v : Word) : State := { s with regs := sset (regReset a) s.regs a v }

/-- A register field's value. -/
def State.g (s : State) (F : Fld) : Nat := bits (s.reg F.addr).toNat F.lo F.width

/-- The state with a register field set by the device itself. -/
def State.p (s : State) (F : Fld) (v : Nat) : State :=
  s.setReg F.addr (BitVec.ofNat 32 (setBits (s.reg F.addr).toNat F.lo F.width v))

/-- Whether a one-bit field is 1. -/
def State.on (s : State) (F : Fld) : Bool := s.g F == 1

/-- A counter register raised by an amount; it stops at 0xFFFF_FFFF (R12). -/
def State.addc (s : State) (F : Fld) (n : Nat) : State := s.p F (min (s.g F + n) 0xFFFFFFFF)

/-- A counter register raised by 1 (R12). -/
def State.inc (s : State) (F : Fld) : State := s.addc F 1

/-- A write that another rule says the device ignores: counted in SYS_WR_IGN_CNT (R30). -/
def State.ignore (s : State) : State := s.inc Reg.SYS_WR_IGN_CNT

/-- A 64-bit value held in two registers, low word first. -/
def State.g64 (s : State) (L H : Fld) : Nat := s.g L + s.g H <<< 32

/-- Whether a device address is a register's: a word that some register table gives (R28, R29). -/
def isReg (a : Nat) : Bool := a % 4 == 0 && (regSpecAt a).isSome

/-- The word of a register whose fields restored by a source are back at their reset values (R10, R11). -/
def restoreWord (r : Src) (a : Nat) (v : Word) : Word :=
  match regSpecAt a with
  | none => v
  | some t => t.fields.foldl (fun (w : Word) f =>
      if f.src.rank ≤ r.rank then BitVec.ofNat 32 (setBits w.toNat f.lo f.width f.reset) else w) v

/-- A reset source acting on the registers whose addresses a predicate keeps (R10, R11); the map is rebuilt in canonical form. -/
def resetRegs (r : Src) (p : Nat → Bool) (m : List (Nat × Word)) : List (Nat × Word) :=
  m.foldr (fun e acc => sset (regReset e.1) acc e.1 (if p e.1 then restoreWord r e.1 e.2 else e.2)) []

/-- The state after a reset source has acted on the registers that a predicate keeps. -/
def State.resetRegs (s : State) (r : Src) (p : Nat → Bool) : State := { s with regs := Machine.resetRegs r p s.regs }

/-! ### Writes by agents (R8, R30, R34, R448) -/

/-- Whether a SOURCE code is firmware's: the system controller or a frond controller (R34). -/
def isFw (agent : Nat) : Bool := agent == 0 || (agent % 16 == 6 && decide (1 ≤ agent / 16 ∧ agent / 16 ≤ 6))

/-- Whether the scope MEMW is open, so that management and debug agents write FW fields too (R448); in MAKER every scope is. -/
def State.memw (s : State) : Bool :=
  s.fuses.life == 0 || (match s.sec.session with | some x => x.scope.getLsbD 2 | none => false)

/-- Whether an agent may write a field of an access code (R8). -/
def State.mayWrite (s : State) (agent : Nat) : Acc → Bool
  | .fw => isFw agent || (s.memw && (agent == 0x70 || agent == 0x71))
  | .fwmg => isFw agent || agent == 0x70 || (s.memw && agent == 0x71)
  | .mg => agent == 0x70
  | .w1c => true
  | .ro | .rc | .img => false

/-- A write by an agent, field by field (R8): fields the agent may write take the value, the others are ignored, and the write counts once when an ignored or reserved field would have changed what the register shows (R30). -/
def State.writeSeen (s : State) (shown agent a v : Nat) : State :=
  match regSpecAt a with
  | none => s
  | some t =>
    let old := (s.reg a).toNat
    let new : Nat := t.fields.foldl (fun (w : Nat) f =>
      if !s.mayWrite agent f.acc then w
      else if f.acc = .w1c then setBits w f.lo f.width (bits w f.lo f.width &&& (2 ^ f.width - 1 - bits v f.lo f.width))
      else setBits w f.lo f.width (bits v f.lo f.width)) old
    let named : Nat := t.fields.foldl (fun (m : Nat) f => m ||| (2 ^ f.width - 1) <<< f.lo) 0
    let bad := t.fields.any (fun f => !s.mayWrite agent f.acc && bits v f.lo f.width != bits shown f.lo f.width)
      || (v % 4294967296 &&& named) != v % 4294967296
    let s := s.setReg a (BitVec.ofNat 32 new)
    if bad then s.ignore else s

/-- A write by an agent to a register that shows what it holds. -/
def State.writeFields (s : State) (agent a v : Nat) : State := s.writeSeen (s.reg a).toNat agent a v

/-- A write to a register that has a command of its own: the fields the agent may write take the value (R8, R30); when the agent may write the field that acts, and it is written 1, the action happens; that field reads 0 again. -/
def State.trigger (s : State) (agent : Nat) (acc : Acc) (v : Nat) (pulse : Fld) (g : State → State) : State :=
  let s' := (s.writeFields agent pulse.addr v).p pulse 0
  if s.mayWrite agent acc && v.testBit pulse.lo then g s' else s'

/-! ### Free values (log 5) -/

/-- The next free value and the state that has used it. -/
def State.free (s : State) : Word × State := (Config.freeWord s.freeCtr, { s with freeCtr := s.freeCtr + 1 })

/-- The next `n` free bytes and the state that has used them. -/
def State.freeBytes (s : State) (n : Nat) : List Byte × State :=
  (((Config.freeBytes s.freeCtr n).take n ++ zeros n).take n, { s with freeCtr := s.freeCtr + 1 })

/-! ### Fronds and jobs -/

/-- One frond. -/
def State.fr (s : State) (f : Fin 6) : Frond := s.fronds.get f

/-- The state with one frond replaced. -/
def State.setFr (s : State) (f : Fin 6) (x : Frond) : State := { s with fronds := s.fronds.set f x }

/-- The state with one frond changed. -/
def State.modFr (s : State) (f : Fin 6) (g : Frond → Frond) : State := s.setFr f (g (s.fr f))

/-- One job; a number above 15 names none (R317). -/
def State.job (s : State) (j : Nat) : Job := if h : j < 16 then s.jobs[j] else Job.none

/-- The state with one job replaced. -/
def State.setJob (s : State) (j : Nat) (x : Job) : State := if h : j < 16 then { s with jobs := s.jobs.set j x } else s

/-- The state with one job changed. -/
def State.modJob (s : State) (j : Nat) (g : Job → Job) : State := s.setJob j (g (s.job j))

/-- The code of JOB_jSTS.STATE (R338): 0 NONE, 1 RUNNING, 2 SLICED_OUT, 3 RESTARTING, 4 SHED, 5 FAILED. -/
def State.jst (s : State) (j : Nat) : Nat := if j < 16 then s.g (Reg.JOB_jSTS_STATE j) else 0

/-- The state with a job's STATE code set. -/
def State.setJst (s : State) (j : Nat) (c : Nat) : State := if j < 16 then s.p (Reg.JOB_jSTS_STATE j) c else s

/-- The jobs that exist, ascending. -/
def State.jobNums (s : State) : List Nat := (List.range 16).filter (fun j => (s.job j).bind.valid)

/-- The job of a role (R319): 1 receive, 2 transmit, 3 training. -/
def State.roleJob (s : State) (r : Nat) : Option Nat := s.jobNums.find? (fun j => (s.job j).bind.role == r)

/-- Whether a job binds a frond. -/
def State.binds (s : State) (j : Nat) (f : Nat) : Bool := (s.job j).bind.valid && (s.job j).bind.fronds.getLsbD f

/-- The slice ring a frond lies in (R326). -/
def State.ringOf (s : State) (f : Nat) : Option Ring := s.rings.find? (fun r => r.fronds.getLsbD f)

/-- The job a frond works for at the moment: its real-time job, or the ring member whose slice runs (R324, R326). -/
def State.jobOf (s : State) (f : Nat) : Option Nat :=
  match s.ringOf f with
  | some r => some r.running
  | none => s.jobNums.find? (fun j => s.binds j f)

/-- Whether a frond issues new work: its job is RUNNING, its slice has not ended, and the device is in RUN with no transition to HOLD or KEEP under way (R327, R412). -/
def State.frondRuns (s : State) (f : Nat) : Bool :=
  match s.jobOf f with
  | some j => s.jst j == 1 && s.g Reg.PWR_STS_STATE == 0 && s.pwr.trans.isNone &&
      (match s.ringOf f with | some r => r.endedAt.isNone | none => true)
  | none => false

/-- The fronds bound to a job, ascending. -/
def State.jobFronds (s : State) (j : Nat) : List (Fin 6) :=
  (List.finRange 6).filter (fun f => s.binds j f)

/-- A unit interrupts the controller of a frond (R135, R146, R151, R171, R255): the model's log of it (log 4). -/
def State.irq (s : State) (f u n : Nat) : State := { s with irqOut := s.irqOut ++ [(f, u, n)] }

/-- SOURCE code of a frond unit (R34). -/
def unitSrc (f : Nat) (u : Nat) : Nat := 16 * (f + 1) + u

/-! ### Memory (R6, R28, R309) -/

/-- Base of the granary (R28). -/
def grnBase : Nat := 0x0100000000
/-- Base of a frond's leaf store (R28). -/
def leafBase (f : Nat) : Nat := 0x0200000000 + f * 0x01000000
/-- Base of a signal core's local memory (R28). -/
def sigBase (f c : Nat) : Nat := 0x0200800000 + f * 0x01000000 + c * 0x40000
/-- Base of the barn (R28). -/
def brnBase : Nat := 0x1000000000

/-- What lies at a device address (R28): a register, granary, leaf store, signal-core memory or barn offset, or nothing. -/
inductive Region where
  | reg
  | granary (off : Nat)
  | leaf (f : Nat) (off : Nat)
  | sig (f c : Nat) (off : Nat)
  | barn (off : Nat)
  | none
  deriving DecidableEq, Repr

/-- The usable barn in bytes (R315). -/
def State.barnBytes (s : State) : Nat := s.g Reg.BRN_CFG_USABLE * 2 ^ 30

/-- The region of a device address (R28); barn offsets at or above the usable barn lie nowhere (R315). -/
def State.region (s : State) (a : Nat) : Region :=
  if a < 0x160000 then (if isReg (a / 4 * 4) then .reg else .none)
  else if grnBase ≤ a ∧ a < grnBase + 0x10000000 then .granary (a - grnBase)
  else if 0x0200000000 ≤ a ∧ a < 0x0206000000 then
    let f := (a - 0x0200000000) / 0x01000000
    let o := (a - 0x0200000000) % 0x01000000
    if o < 0x800000 then .leaf f o
    else if o < 0xA00000 then .sig f ((o - 0x800000) / 0x40000) ((o - 0x800000) % 0x40000)
    else .none
  else if brnBase ≤ a ∧ a < brnBase + s.barnBytes then .barn (a - brnBase)
  else .none

/-- One byte of memory; 0 where nothing has been written (R305; log 3). -/
def State.ld1 (s : State) (a : Nat) : Byte := sget 0 s.mem a

/-- `n` bytes of memory from an address. -/
def State.ld (s : State) (a : Nat) : Nat → List Byte
  | 0 => []
  | n + 1 => s.ld1 a :: s.ld (a + 1) n

/-- A little-endian value of `n` bytes in memory (R6). -/
def State.ldN (s : State) (a n : Nat) : Nat := leOf (s.ld a n)

/-- The memory with bytes written from an address upward. -/
def storeBytes (m : List Host.Cell) (a : Nat) : List Byte → List Host.Cell
  | [] => m
  | b :: bs => storeBytes (sset 0 m a b) (a + 1) bs

/-- Bytes of the ECC word that holds an address (R301): 32 in the granary, 8 elsewhere. -/
def eccSize (a : Nat) : Nat := if grnBase ≤ a ∧ a < grnBase + 0x10000000 then 32 else 8

/-- The ECC word of an address. -/
def eccWord (a : Nat) : Nat := a / eccSize a * eccSize a

/-- Whether any word of a range is poisoned (R303). -/
def State.poisoned (s : State) (a n : Nat) : Bool :=
  s.poison.any (fun w => decide (w < a + n ∧ a < w + eccSize w))

/-- The state with the word of an address poisoned (R303). -/
def State.setPoison (s : State) (a : Nat) : State :=
  if s.poison.contains (eccWord a) then s else { s with poison := s.poison ++ [eccWord a] }

/-- The loft lines after a store: a line held and written becomes dirty and keeps what the barn itself still holds (R312). -/
def State.dirtied (s : State) (a n : Nat) : List LoftLine :=
  if a + n ≤ brnBase then s.mems.loft
  else s.mems.loft.map (fun l =>
    let b := brnBase + 256 * l.line
    if a < b + 256 ∧ b < a + n then (match l.stale with | some _ => l | none => { l with stale := some (s.ld b 256) }) else l)

/-- A store of bytes: memory holds them, words written whole lose their poison, and reservations on the words written are lost (R300, R303). -/
def State.st (s : State) (a : Nat) (bs : List Byte) : State :=
  { s with
    mem := storeBytes s.mem a bs,
    poison := s.poison.filter (fun w => !decide (a ≤ w ∧ w + eccSize w ≤ a + bs.length)),
    mems := { s.mems with loft := s.dirtied a bs.length, resv := s.mems.resv.filter (fun r => !decide (r.2 < a + bs.length ∧ a < r.2 + 32)) } }

/-- A store of a number of `n` bytes, little-endian (R6). -/
def State.stN (s : State) (a n v : Nat) : State := s.st a (toLE n v)

/-- The loft cache loses its lines without writing them back: the barn holds what it held before (R414, R449). -/
def State.loftDrop (s : State) : State :=
  let s' := { s with mems := { s.mems with loft := [] } }
  s.mems.loft.foldl (fun t l => match l.stale with
    | some b => { t with mem := storeBytes t.mem (brnBase + 256 * l.line) b }
    | none => t) s'

/-- Every dirty line that a predicate keeps is written back and clean; each counts (R312, R336, R412). -/
def State.loftFlush (s : State) (p : LoftLine → Bool) : State :=
  let n := s.mems.loft.countP (fun l => p l && l.stale.isSome)
  ({ s with mems := { s.mems with loft := s.mems.loft.map (fun l => if p l then { l with stale := none } else l) } }).addc Reg.BRN_WB_CNT n

/-- A range of memory zero-filled with valid ECC (R305). -/
def State.zeroFill (s : State) (a n : Nat) : State :=
  { s with
    mem := s.mem.filter (fun c => !decide (a ≤ c.1 ∧ c.1 < a + n)),
    poison := s.poison.filter (fun w => !decide (a ≤ w ∧ w < a + n)),
    mems := { s.mems with resv := s.mems.resv.filter (fun r => !decide (a ≤ r.2 + 31 ∧ r.2 < a + n)) } }

/-! ### Granary banks (R295, R298, R304, R306) -/

/-- The channel of a logical bank (R295). -/
def bankChannel (b : Nat) : Nat := if b < 688 then b / 43 else 16 + (b - 688) / 42

/-- The banks of a channel (R295). -/
def channelBanks (c : Nat) : List Nat :=
  if c < 16 then (List.range 43).map (· + 43 * c) else (List.range 42).map (· + (688 + 42 * (c - 16)))

/-- A bank's state code (R304): 0 OFF, 1 ON, 2 RETENTION, 3 MASKED. -/
def State.bank (s : State) (b : Nat) : Nat := sget 0 s.mems.bank b

/-- The state with a bank's state set. -/
def State.setBank (s : State) (b c : Nat) : State := { s with mems := { s.mems with bank := sset 0 s.mems.bank b c } }

/-- The state with a bank OFF, unless it is MASKED (R304, R308). -/
def State.dropBank (s : State) (b : Nat) : State := if s.bank b = 3 then s else s.setBank b 0

/-- Base address of the event ring (R33). -/
def State.ringBase (s : State) : Nat := grnBase + s.g Reg.SYS_EVR_BASE_BASE_BLK * 0x20000

/-- Base address of the granary semaphore table (R299). -/
def State.semBase (s : State) : Nat := grnBase + s.g Reg.GRN_SEM_BASE * 0x1000

/-- Whether a bank is a system bank (R298): it holds the event ring or the semaphore table. -/
def State.sysBank (s : State) (b : Nat) : Bool :=
  b == (s.ringBase - grnBase) / 0x40000 || b == (s.semBase - grnBase) / 0x40000

/-- An access to a granary bank wakes it when it is in RETENTION (R306). -/
def State.wakeBank (s : State) (b : Nat) : State :=
  if s.bank b = 2 then (s.setBank b 1).inc Reg.GRN_WAKE_CNT else s

/-- Key of a leaf-store bank (0 to 31) or signal-core memory (32 + core) of a frond among the bank states: listed as 2 while it is in RETENTION on its own (R306). -/
def leafBankKey (f k : Nat) : Nat := 1024 + 40 * f + k

/-- The bank of a general 128-byte line of a leaf store (R309). -/
def lineBank (l : Nat) : Nat := (l + l / 20) % 20

/-- A leaf-store bank or signal-core memory wakes at an access (R306). -/
def State.wakeLeaf (s : State) (f k : Nat) : State :=
  if s.bank (leafBankKey f k) = 2 then (s.setBank (leafBankKey f k) 0).inc (Reg.LEAF_WAKE_CNT f) else s

/-- The banks that a range touches wake (R306). -/
def State.wakeRange (s : State) (a n : Nat) : State :=
  match s.region a with
  | .granary o => ((List.range ((o % 0x40000 + n + 0x3FFFF) / 0x40000)).foldl (fun t i => t.wakeBank (o / 0x40000 + i)) s)
  | .leaf f o =>
    (List.range ((o % 128 + n + 127) / 128)).foldl (fun t i => if (o / 128 + i) * 128 < 0x500000 then t.wakeLeaf f (lineBank (o / 128 + i)) else t) s
  | .sig f c _ => s.wakeLeaf f (32 + c)
  | _ => s

/-- ECC words of 32 bytes that a granary write covers in part (R302). -/
def partWords (a n : Nat) : Nat :=
  if n = 0 then 0
  else if a / 32 = (a + n - 1) / 32 then (if n = 32 then 0 else 1)
  else b2n (a % 32 != 0) + b2n ((a + n) % 32 != 0)

/-- A write by an agent at run time: banks in RETENTION wake (R306), and each granary ECC word written in part counts (R302). -/
def State.store (s : State) (a : Nat) (bs : List Byte) : State :=
  match s.region a with
  | .granary _ => ((s.wakeRange a bs.length).st a bs).addc Reg.GRN_RMW_CNT (partWords a bs.length)
  | _ => (s.wakeRange a bs.length).st a bs

/-! ### Loft cache (R312, R313) -/

/-- The loft line of a barn offset. -/
def State.loftHas (s : State) (line : Nat) : Bool := s.mems.loft.any (fun l => l.line == line)

/-- A line held becomes the most recently used. -/
def State.loftTouch (s : State) (line : Nat) : State :=
  { s with mems := { s.mems with loft := s.mems.loft.filter (fun l => l.line != line) ++ s.mems.loft.filter (fun l => l.line == line) } }

/-- The ways a requester allocates into: its job's mask, or the ways in no job's mask for system agents (R313). -/
def State.waysOf (s : State) : Option Nat → Nat
  | some j => (sget 0 s.mems.ways j).toNat
  | none => s.g Reg.BRN_SYS_WAYS

/-- A line enters the requester's ways: the lowest free way of its set, else the least recently used line's, which is written back when dirty; without ways nothing is allocated (R312, R313). -/
def State.loftAlloc (s : State) (mask line : Nat) : State :=
  let set_ := s.mems.loft.filter (fun l => l.line % 512 == line % 512)
  let mine := (List.finRange 16).filter (fun w => mask.testBit w.val)
  match mine.find? (fun w => !set_.any (fun l => l.way == w)) with
  | some w => { s with mems := { s.mems with loft := s.mems.loft ++ [⟨line, w, none⟩] } }
  | none =>
    match set_.find? (fun l => mask.testBit l.way.val) with
    | none => s
    | some v =>
      let s := if v.stale.isSome then s.inc Reg.BRN_WB_CNT else s
      { s with mems := { s.mems with loft := s.mems.loft.erase v ++ [⟨line, v.way, none⟩] } }

/-- An access to a barn line through the loft cache: a hit in any way, or a miss that allocates (R312, R313). -/
def State.loftAccess (s : State) (job : Option Nat) (line : Nat) : State :=
  if s.loftHas line then (s.inc Reg.BRN_HIT_CNT).loftTouch line
  else (s.inc Reg.BRN_MISS_CNT).loftAlloc (s.waysOf job) line

/-- The barn lines that a range of addresses touches go through the loft cache (R144, R312). -/
def State.loftRange (s : State) (job : Option Nat) (a n : Nat) : State :=
  match s.region a with
  | .barn o => (List.range ((o % 256 + n + 255) / 256)).foldl (fun t i => t.loftAccess job (o / 256 + i)) s
  | _ => s

/-- A write to the barn by a job's agent or a system agent: its lines go through the loft cache (R312). -/
def State.loftStore (s : State) (job : Option Nat) (a : Nat) (bs : List Byte) : State := (s.loftRange job a bs.length).store a bs

/-- Writing a number of `n` bytes at run time, little-endian (R6). -/
def State.storeN (s : State) (a n v : Nat) : State := s.store a (toLE n v)

/-! ### Time (R16, R383, R390, R474) -/

/-- A domain's counter. Every island's local copy of compact time is this one: R26 lets a copy stay within 1 ns, and the model takes a deviation of 0 (DESIGN CHOICE, log 7). -/
def State.dom (s : State) : Dom → Domain
  | .a => s.domA
  | .b => s.domB

/-- The state with a domain's counter replaced. -/
def State.setDom (s : State) (d : Dom) (x : Domain) : State :=
  match d with
  | .a => { s with domA := x }
  | .b => { s with domB := x }

/-- Number of a domain: 0 for A, 1 for B. -/
def domNo : Dom → Nat
  | .a => 0
  | .b => 1

/-- The domain of a number. -/
def domOf (n : Nat) : Dom := if n % 2 = 1 then .b else .a

/-- Whether a domain's time is valid (R390). -/
def State.valid (s : State) (d : Dom) : Bool := s.on (Reg.TIME_d_STS_VALID (domNo d))

/-- Whole nanoseconds of a domain since its epoch. -/
def Domain.nanos (d : Domain) : Nat := d.sec.toNat * 1000000000 + d.ns.toNat

/-- Compact time of a domain (R383). -/
def State.compact (s : State) (d : Dom) : Nat := (s.dom d).nanos % 2 ^ 32

/-- Full time of a domain (R16): the top 16 bits of the fraction. -/
def Domain.full (d : Domain) : FullTime := ⟨d.sec, d.ns, BitVec.ofNat 16 (d.frac.toNat / 2 ^ 24)⟩

/-- The domain of the group identity when the image in force holds one (R359). -/
def State.groupSect (s : State) : Option (List Byte) :=
  match s.image with
  | none => none
  | some im => (im.sections.find? (fun x => x.typ == 8)).map (·.bytes)

/-- The domain an event is stamped in by R474 before validity is looked at. -/
def State.stampDom (s : State) (code job : Nat) : Dom :=
  let role := (s.job job).bind.role
  if (s.job job).bind.valid && role == 1 then domOf (s.g Reg.JOB_RX_CFG_TDOM)
  else if (s.job job).bind.valid && role == 2 then domOf (s.g Reg.JOB_TX_CFG_TDOM)
  else if code / 256 == 9 then
    (match s.groupSect with
     | some g => domOf (byteAt g 5)
     | none => .a)
  else .a

/-- TDOM code and time of an event or sample (R474). -/
def State.stamp (s : State) (code job : Nat) : Nat × FullTime :=
  let d := s.stampDom code job
  let o : Dom := match d with | .a => .b | .b => .a
  if s.valid d then (domNo d, (s.dom d).full)
  else if s.valid o then (domNo o, (s.dom o).full)
  else (2, s.domA.full)

/-! ### Messages leaving over MG (R35, R60, R61) -/

/-- Whether the MG port can take a message of the device's own: link up and queue not full (R35). -/
def State.mgRoom (s : State) : Bool := s.mg.up && decide (s.mg.queue.length < Config.mgQueueDepth)

/-- A message of the device's own enters the MG queue with the next device SEQ (R61). -/
def State.mgSend (s : State) (opcode : Nat) (payload : List Byte) : State :=
  { s with mg := { s.mg with queue := s.mg.queue ++ [⟨opcode, s.mg.devSeq.toNat, 0, payload⟩], devSeq := s.mg.devSeq + 1 } }

/-- A response enters the MG queue: OPCODE + 0x8000, the request's SEQ, a status; no payload unless OK or given all the same (R60 to R63). -/
def State.mgAnswer (s : State) (opcode : Nat) (seq : Word) (status : Nat) (payload : List Byte) : State :=
  { s with mg := { s.mg with queue := s.mg.queue ++ [⟨opcode + 0x8000, seq.toNat, status, payload⟩] } }

/-- A management request (R60 to R63): no request arrives while the link is down; another VER is answered VERSION, and a message not served in SAFE is answered STATE there (R54). -/
def State.mgServe (s : State) (op : Nat) (inSafe : Bool) (r : MgReq) (f : State → State) : State :=
  if !s.mg.up then s
  else if r.ver ≠ 1 then s.mgAnswer op r.seq 2 []
  else if s.boot.phase = .safe ∧ inSafe = false then s.mgAnswer op r.seq 3 []
  else f s

/-! ### Events (R14, R33 to R38) -/

/-- The 32 bytes of an event ring entry (R33). -/
def eventEntry (code src job seq tdom : Nat) (t : FullTime) (arg : Nat) : List Byte :=
  toLE 2 code ++ toLE 1 src ++ toLE 1 job ++ toLE 4 seq ++ toLE 8 t.sec.toNat ++
    toLE 4 (t.ns.toNat + tdom <<< 30) ++ toLE 2 t.frac.toNat ++ toLE 2 0 ++ toLE 8 arg

/-- Whether the ring can be written: its base is set and its bank is not in RETENTION or OFF (R38). -/
def State.ringReady (s : State) : Bool :=
  s.on Reg.SYS_EVR_BASE_SET && s.bank ((s.ringBase - grnBase) / 0x40000) == 1

/-- An entry is written to the ring, or counted as overflow while 4,095 entries are unread (R37). -/
def State.ringWrite (s : State) (e : List Byte) : State :=
  let w := s.g Reg.SYS_EVR_WR_IDX
  let r := s.g Reg.SYS_EVR_RD_IDX
  if (w + 4096 - r) % 4096 = 4095 then s.inc Reg.SYS_EVR_OVF_CNT
  else (s.st (s.ringBase + 32 * w) e).p Reg.SYS_EVR_WR_IDX ((w + 1) % 4096)

/-- Held events go to the ring in SEQ order before any newer event (R38). -/
def State.flushHold (s : State) : State :=
  if s.ringReady then s.hold.foldl (fun t e => t.ringWrite e) { s with hold := [] } else s

/-- Whether the journal takes an event: classes 0x0B to 0x0E and EV_JOB_FAILED (R430). -/
def journalled (code : Nat) : Bool := (0x0B ≤ code / 256 && code / 256 ≤ 0x0E) || code == 0x0706

/-- EVENT_RAISE (R35): an event takes its SEQ, goes to the ring or the hold buffer or is counted as overflow (R37, R38), is mirrored to MG when its class is unmasked (R35, R36), and is journalled when R430 says so. -/
def State.raise (s : State) (code src job arg : Nat) : State :=
  let seq := s.g Reg.SYS_EVR_SEQ
  let (tdom, t) := s.stamp code job
  let e := eventEntry code src job seq tdom t arg
  let s := s.p Reg.SYS_EVR_SEQ (seq + 1)
  let s := if journalled code then { s with flt := { s.flt with waiting := s.flt.waiting ++ [⟨e, true⟩] } } else s
  let s := if s.ringReady then s.flushHold.ringWrite e
           else if s.hold.length < 16 then { s with hold := s.hold ++ [e] }
           else s.inc Reg.SYS_EVR_OVF_CNT
  if (s.g Reg.SYS_EVR_MIRROR_MASK).testBit (code / 256) then
    (if s.mgRoom then s.mgSend 0x0011 e else s.inc Reg.SYS_EVR_MIRROR_DROP_CNT)
  else s

/-- An event of no job. -/
def State.ev (s : State) (code src arg : Nat) : State := s.raise code src 0xFF arg

/-- A bit of SMBus ALARMS becomes set (R64): SMB_ALERT_N is asserted when it was not set before (R466). -/
def State.alarm (s : State) (b : Nat) : State :=
  if s.smbAlarms.getLsbD b then s
  else { s with smbAlarms := s.smbAlarms ||| BitVec.ofNat 5 (1 <<< b), smbAlert := true }

/-- The JOB byte of an optional job. -/
def jobByte : Option Nat → Nat
  | some j => j
  | none => 0xFF

/-! ### Image in force -/

/-- The header field of an image. -/
def Image.hdr (im : Image) (o n : Nat) : Nat := le im.header o n

/-- FLAGS of the running image (R42): bit 0 ENC, 1 DET, 2 NEED_PAIR; 0 without an image. -/
def State.flags (s : State) : Nat := match s.image with | some im => im.hdr 12 4 | none => 0

/-- The DET bit in force (R124). -/
def State.det (s : State) : Bool := s.flags.testBit 1

/-- The sections of a type in the image in force. -/
def State.sects (s : State) (t : Byte) : List Section :=
  match s.image with
  | some im => im.sections.filter (fun x => x.typ == t)
  | none => []

/-- The image that a job runs under: during an adoption the new one once the job has restarted for it, and while an adoption is undone the failed one until the job's restart (R66, R68); else the image in force. -/
def State.jobImage (s : State) (j : Option Nat) : Option Image :=
  match j with
  | none => s.image
  | some k =>
    match s.undo, s.adopt with
    | some u, _ => if u.left.contains k then some u.image else s.image
    | none, some a => if a.done.contains k then some a.image else s.image
    | none, none => s.image

/-- The sections of a type in the image of a job. -/
def State.jobSects (s : State) (j : Option Nat) (t : Byte) : List Section :=
  match s.jobImage j with
  | some im => im.sections.filter (fun x => x.typ == t)
  | none => []

/-- The section of a type that names a frond with the fewest "all" codes (R44), in the image of the job that the frond works for. -/
def State.frondSect (s : State) (t : Byte) (f : Nat) : Option Section :=
  let l := s.jobSects (s.jobOf f) t
  match l.find? (fun x => x.target.toNat == f) with
  | some x => some x
  | none => l.find? (fun x => x.target.toNat == 7)

/-- What the stream graph section of a job holds (R44; log 8). -/
def State.graph (s : State) (j : Nat) : Option GraphInfo :=
  match (s.jobSects (some j) 4).find? (fun x => x.target.toNat == j) with
  | some ⟨_, _, _, .graph g⟩ => some g
  | _ => none

/-- Whether an IMG_ADOPT is in progress (R66): from its OK answer until EV_IMG_ADOPTED with job 0xFF or EV_IMG_ADOPT_FAIL. -/
def State.adopting (s : State) : Bool := s.adopt.isSome

/-- Whether the device is held in POR or WARM: no command but a pin's reaches it (R460). -/
def State.held (s : State) : Bool :=
  match s.boot.phase with
  | .por => true
  | .warm => true
  | _ => false

/-- Whether the device is started and in power state RUN (R5, R412). -/
def State.inRun (s : State) : Bool :=
  decide (s.boot.phase = .started) && s.g Reg.PWR_STS_STATE == 0

/-- What no command reaches but its own kind: the queue belongs to the step, and items and credits of the crossings to the crossing commands (R23, R24); in POR and WARM the crossings are empty. -/
def State.settle (s t : State) : State := { t with pending := s.pending, cross := if t.held then [] else s.cross }

/-- A command's effect as a next state; while the device is held in POR or WARM nothing acts and the command is lost (R460). -/
def act (f : State → State) (s : State) : Host.Outcome State Fault Refusal :=
  .next (if s.held then s else s.settle (f s))

/-- A command's effect as a next state, held or not: pins, straps and supplies. -/
def actPin (f : State → State) (s : State) : Host.Outcome State Fault Refusal := .next (s.settle (f s))

end Sys2Proof.Machine
end

