-- ==== Sys2Proof/Machine/FhPort.lean ====
section
/-!
DEFINITION. The egress of a fronthaul port: queues, launch, token buckets (12 R352 to R354, 14 R400, 01 R32).
-/
namespace Sys2Proof.Machine

open Sys2Proof (Byte Word)

/-- Slots per 10 ms frame of a spacing code (R202). -/
def spf (scs : Nat) : Nat := 20 * 2 ^ scs

/-- Slot length of a spacing code in nanoseconds (R202). -/
def slotNs (scs : Nat) : Nat := 500000 / 2 ^ scs

/-- The tag of an allocation (R211). -/
def allocTag (slotIdx scs index : Nat) : Nat := (slotIdx % spf scs % 4) <<< 14 + index

/-- One port of the fronthaul. -/
def State.fhp (s : State) (p : Fin 4) : FhPort := s.fh.ports.get p

/-- The state with one port changed. -/
def State.modFhp (s : State) (p : Fin 4) (g : FhPort → FhPort) : State :=
  { s with fh := { s.fh with ports := s.fh.ports.set p (g (s.fhp p)) } }

/-- The port of a link (R339). -/
def linkPort (l : Nat) : Fin 4 := Fin.ofNat 4 (l / 4)

/-- The VLAN tag that a port puts on every frame it sends: PCP and VID (R354). -/
def State.fhTag (s : State) (p : Fin 4) : Option Nat :=
  if s.on (Reg.FH_Pp_CFG_VLAN_EN p) then some (s.g (Reg.FH_Pp_CFG_PCP p) <<< 13 + s.g (Reg.FH_Pp_CFG_VID p)) else none

/-- Bytes of a frame from destination address through FCS that carries an eCPRI message of a size (R340). -/
def State.frameLen (s : State) (p : Fin 4) (size : Nat) : Nat :=
  max 64 (14 + 4 * s.g (Reg.FH_Pp_CFG_VLAN_EN p) + 4 + size + 4)

/-- Nanoseconds a frame takes on a link of a port, by the rate of the port's mode (R339). -/
def State.frameNs (s : State) (p : Fin 4) (len : Nat) : Nat := ceilDiv (8 * len * 2 ^ s.g (Reg.FH_Pp_CFG_MODE p)) 400

/-- A frame goes on the line: the port is busy until its end, and the frame counts (R353). -/
def State.fhEmit (s : State) (p : Fin 4) (link : Nat) (addr : BitVec 48) (typ : Nat) (body : List Byte) : State :=
  let s := { s with fhOut := s.fhOut ++ [(⟨link, addr, s.fhTag p, typ, body⟩ : FhFrame)] }
  (s.modFhp p (fun x => { x with busy := true })).inc (Reg.FH_P_TX_FRAME_CNT p)

/-! ### PTP frames (R392, R393; log 30) -/

/-- Full time as a port's time stamp shows it: to 1/64 ns (R393). -/
def at64 (t : FullTime) : FullTime := { t with frac := BitVec.ofNat 16 (t.frac.toNat / 1024 * 1024) }

/-- The fields of IEEE 1588 originTimestamp: 48-bit seconds and 32-bit nanoseconds. -/
def ptpStampBytes (t : FullTime) : List Byte := toBE 6 t.sec.toNat ++ toBE 4 t.ns.toNat

/-- The two destination addresses of PTP frames (R392). -/
def ptpAddr (a : BitVec 48) : Bool := a == 0x011B19000000#48 || a == 0x0180C200000E#48

/-- The domains whose PTP runs over a link under a PTP domain number (R391). -/
def State.ptpDoms (s : State) (link ptpdom : Nat) : List Dom :=
  [Dom.a, Dom.b].filter (fun d => s.on (Reg.TIME_d_CFG_EN (domNo d)) && s.g (Reg.TIME_d_CFG_PORT (domNo d)) == link &&
    s.g (Reg.TIME_d_CFG_PTPDOM (domNo d)) == ptpdom)

/-- The PTP state of a domain. -/
def State.ptp (s : State) : Dom → Ptp
  | .a => s.ptpA
  | .b => s.ptpB

/-- The state with a domain's PTP state changed. -/
def State.modPtp (s : State) (d : Dom) (g : Ptp → Ptp) : State :=
  match d with
  | .a => { s with ptpA := g s.ptpA }
  | .b => { s with ptpB := g s.ptpB }

/-- A PTP frame leaves a link and is stamped (R393): its domain keeps t3, and a one-step frame carries it. It counts in no port counter (R392). -/
def State.ptpEmit (s : State) (link : Nat) (body : List Byte) : State :=
  match s.ptpDoms link (byteAt body 4) with
  | [] => s
  | d :: _ =>
    let t := at64 (s.dom d).full
    let out := if s.on (Reg.TIME_d_CFG_ONESTEP (domNo d)) then body.take 34 ++ ptpStampBytes t ++ body.drop 44 else body
    let tag := if link < 16 then s.fhTag (linkPort link) else none
    let s := { s with fhOut := s.fhOut ++ [(⟨link, 0x011B19000000#48, tag, 7, out⟩ : FhFrame)] }
    s.modPtp d (fun x => { x with t3 := some t })

/-- The number the next message of a PC_ID or RTC_ID key carries in SEQ_ID [15:8], and the state that has used it (R342). -/
def State.nextSeq (s : State) (key : Nat) : Nat × State :=
  let n := sget 0 s.fh.txSeq key
  (n, { s with fh := { s.fh with txSeq := sset 0 s.fh.txSeq key ((n + 1) % 256) } })

/-- RTC_ID or PC_ID and SEQ_ID as they stand in a message, big-endian (R341, R342). -/
def idBytes (id n : Nat) : List Byte := toBE 2 id ++ toBE 2 (n <<< 8 + 0x80)

/-! ### Token buckets (R353) -/

/-- A job's share of a port in 1/64 (R319, R353). -/
def State.fhShare (s : State) (p : Fin 4) (j : Nat) : Nat := (s.job j).bind.fhShare.getD p.val 0

/-- A bucket's credit in 1/64 byte now: it fills at share/64 of 400 Gb/s, which is 50 × share units a nanosecond, up to 10 µs of that rate. -/
def bucketNow (l : List (Nat × (Nat × Nat))) (j share now : Nat) : Nat :=
  let cap := 500000 * share
  match l.find? (fun e => e.1 == j) with
  | some e => min cap (e.2.1 + 50 * share * (now - e.2.2))
  | none => cap

/-- A bucket after a frame of a length. -/
def bucketTake (l : List (Nat × (Nat × Nat))) (j share now len : Nat) : List (Nat × (Nat × Nat)) :=
  l.filter (fun e => e.1 != j) ++ [(j, (bucketNow l j share now - 64 * len, now))]

/-- Whether a job has the credit for a frame on a port. -/
def State.fhCredit (s : State) (p : Fin 4) (j len : Nat) : Bool :=
  decide (64 * len ≤ bucketNow (s.fhp p).bucket j (s.fhShare p j) s.ticks)

/-- The credit of a frame is drawn. -/
def State.fhDraw (s : State) (p : Fin 4) (j len : Nat) : State :=
  s.modFhp p (fun x => { x with bucket := bucketTake x.bucket j (s.fhShare p j) s.ticks len })

/-! ### Late sections (R32) -/

/-- EV_DEADLINE_MISS of a downlink allocation whose section was not queued by its launch time: once for each allocation, over all its late sections (R32; DESIGN CHOICE, log 34). -/
def State.missAlloc (s : State) (job idx index : Nat) : State :=
  let seen := match s.tx.find? (fun x => x.idx == idx) with
    | some x => x.allocs.any (fun (a : TxAlloc) => a.index == index && a.missed)
    | none => false
  if seen then s
  else
    let s := { s with tx := s.tx.map (fun (x : TxSlot) => if x.idx = idx then
      { x with allocs := x.allocs.map (fun (a : TxAlloc) => if a.index = index then { a with missed := true } else a) } else x) }
    s.raise 0x0302 0x07 job (allocTag idx (s.g Reg.JOB_TX_CFG_SCS) index + 1 <<< 16 + 2 <<< 17 + idx <<< 32)

/-- LATE_LAUNCH (R32): a section that its port does not send counts, and each allocation that it belongs to misses its deadline. -/
def State.lateLaunch (s : State) (p : Fin 4) (job idx : Nat) (allocs : List Nat) : State :=
  allocs.foldl (fun t i => t.missAlloc job idx i) (s.inc (Reg.FH_P_LATE_LAUNCH_CNT p))

/-! ### The next frame (R352) -/

/-- The domain in which launch times count (R264). -/
def State.txDom (s : State) : Dom := domOf (s.g Reg.JOB_TX_CFG_TDOM)

/-- Nanoseconds from now to a launch time, negative once it is past (R17). -/
def State.toLaunch (s : State) (l : Launch) : Int := ctDiff l.time (s.compact s.txDom)

/-- The launch entry that goes first: the earliest launch time, then the lower job number, then queue order (R352). -/
def State.firstLaunch (s : State) : List Launch → Option Launch
  | [] => none
  | l :: r =>
    match s.firstLaunch r with
    | none => some l
    | some m => if s.toLaunch m < s.toLaunch l ∨ (s.toLaunch m = s.toLaunch l ∧ m.job < l.job) then some m else some l

/-- The control frame that goes next: the first in queue order of the first job after the one served last that has one waiting with credit; frames of no job draw from no bucket (R352, R353). -/
def State.nextCtl (s : State) (p : Fin 4) : Option CtlOut :=
  let q := (s.fhp p).ctl
  let last := (s.fhp p).lastJob
  ((List.range 17).map (fun i => (last + 1 + i) % 17)).findSome? (fun j =>
    match q.find? (fun c => c.job == j) with
    | some c => if j = 16 ∨ s.fhCredit p j (s.frameLen p c.body.length) = true then some c else none
    | none => none)

/-- A control frame starts unless its end would pass the launch time of the next launch entry (R352). -/
def State.startCtl (s : State) (p : Fin 4) : State :=
  match s.nextCtl p with
  | none => s
  | some c =>
    let len := s.frameLen p c.body.length
    let clear := match s.firstLaunch (s.fhp p).launch with
      | some l => decide ((s.frameNs p len : Int) ≤ s.toLaunch l)
      | none => true
    if !clear then s
    else
      let s := if c.job = 16 then s else s.fhDraw p c.job len
      let s := s.modFhp p (fun x => { x with ctl := x.ctl.erase c, lastJob := c.job })
      s.fhEmit p c.link c.addr c.typ c.body

/-- The next frame of a port at a frame boundary (R352): PTP first, then the due launch entry, then control. A due entry without credit is not sent, counts in FH_SHARE_HOLD_CNT, and is late (R353). -/
def State.fhPick (s : State) (p : Fin 4) : Nat → State
  | 0 => s
  | n + 1 =>
    match (s.fhp p).ptp with
    | m :: r => ((s.modFhp p (fun x => { x with ptp := r, busy := true })).ptpEmit m.1 m.2)
    | [] =>
      match s.firstLaunch ((s.fhp p).launch.filter (fun l => decide (s.toLaunch l ≤ 0))) with
      | none => s.startCtl p
      | some l =>
        let len := s.frameLen p (4 + l.body.length)
        let t := s.modFhp p (fun x => { x with launch := x.launch.erase l })
        if s.fhCredit p l.job len then
          let (n, t) := t.nextSeq l.port
          (t.fhDraw p l.job len).fhEmit p l.link l.addr 0 (idBytes l.port n ++ l.body)
        else ((t.inc (Reg.FH_P_SHARE_HOLD_CNT p)).lateLaunch p l.job l.idx l.allocs).fhPick p n

/-- PAIR byte of the group identity (R359): bit 0 LOCKSTEP, bit 1 STANDBY, bit 2 ROLE. -/
def State.pairByte (s : State) : Nat := match s.groupSect with | some g => byteAt g 22 | none => 0

/-- Whether the device stands by (R379): STANDBY is set and the peer is the active primary. -/
def State.standby (s : State) : Bool := s.pairByte.testBit 1 && !s.on Reg.RZ_PAIR_STS_ACTIVE

/-- The port picks a frame if it is idle: an idle port is always at a frame boundary (R352). A standby sends no frame (R379). -/
def State.fhServe (s : State) (p : Fin 4) : State :=
  if (s.fhp p).busy || s.standby then s else s.fhPick p ((s.fhp p).launch.length + 1)

end Sys2Proof.Machine
end

