-- ==== Sys2Proof/Machine/Outcome.lean ====
section
/-!
DEFINITION. What an allocation's outcome adds to: the watch over a promoted set (09 R287) and the output blocks kept for a lock-step pair (13 R378).
-/
namespace Sys2Proof.Machine

open Sys2Proof (Byte Word)

/-- The outcome counts of a slot, by its start edge: allocations, REFERENCE decisions, CRC_FAIL results (R287). -/
def State.outcome (s : State) (start : Nat) : Nat × (Nat × Nat) := sget (0, 0, 0) s.trn.past start

/-- The state with a slot's outcome counts replaced. -/
def State.setOutcome (s : State) (start : Nat) (x : Nat × (Nat × Nat)) : State :=
  { s with trn := { s.trn with past := sset (0, 0, 0) s.trn.past start x } }

/-- The sums of the outcome counts of the slots whose start edges lie in a range. -/
def State.outcomes (s : State) (from_ upTo : Nat) : Nat × (Nat × Nat) :=
  (s.trn.past.filter (fun (e : Nat × (Nat × (Nat × Nat))) => decide (from_ ≤ e.1 ∧ e.1 < upTo))).foldl
    (fun (a : Nat × (Nat × Nat)) (e : Nat × (Nat × (Nat × Nat))) => (a.1 + e.2.1, a.2.1 + e.2.2.1, a.2.2 + e.2.2.2)) (0, 0, 0)

/-- The rollback test of a watch (R287): 0 it does not fire, 1 its first line fires, 2 its second (the CRC line). -/
def watchRule (thr : Nat) (b a : Nat × (Nat × Nat)) : Nat :=
  if b.1 = 0 ∨ a.1 = 0 then 0
  else if 256 * a.2.1 * b.1 > (256 * b.2.1 + thr * b.1) * a.1 then 1
  else if 256 * a.2.2 * b.1 > (256 * b.2.2 + thr * b.1) * a.1 then 2
  else 0

/-- WATCH slots in nanoseconds (R287). -/
def State.watchNs (s : State) : Nat := s.g Reg.JOB_TRN_WATCH_WATCH * slotNs (s.g Reg.JOB_RX_CFG_SCS)

/-- WATCH_TEST_FIRE (R287): the test over the WATCH slots before slot p and the WATCH slots from it; when it fires, a rollback waits for the next slot edge (R288). -/
def State.watchTest (s : State) : State :=
  match s.trn.watch, s.trn.pending with
  | some w, none =>
    let len := s.watchNs
    let r := watchRule (s.g Reg.JOB_TRN_WATCH_ROLL_THR) (s.outcomes (w.start - len) w.start) (s.outcomes w.start (w.start + len))
    if r = 0 then s else { s with trn := { s.trn with pending := some (.rollback false (r == 2)) } }
  | _, _ => s

/-- Whether an allocation's decision counts for a watch (R287): PATH 0, and neither LATE nor DISCARDED. -/
def Alloc.counted (a : Alloc) : Bool := a.path == 0 && (a.decision == some 0 || a.decision == some 1 || a.decision == some 2)

/-- A decision counts for a watch (R287). -/
def State.countDecision (s : State) (start : Nat) (a : Alloc) : State :=
  let x := s.outcome start
  if a.counted then (s.setOutcome start (x.1 + 1, x.2.1 + b2n (a.decision == some 1), x.2.2)).watchTest else s

/-- A CRC_FAIL counts for a watch (R287). -/
def State.countCrc (s : State) (start : Nat) (a : Alloc) : State :=
  let x := s.outcome start
  if a.counted then (s.setOutcome start (x.1, x.2.1, x.2.2 + 1)).watchTest else s

/-- An allocation reported LATE or DISCARDED is not counted (R287): what its decision added is taken back. -/
def State.uncount (s : State) (start : Nat) (a : Alloc) : State :=
  let x := s.outcome start
  if a.counted then s.setOutcome start (x.1 - 1, x.2.1 - b2n (a.decision == some 1), x.2.2) else s

/-- An output block of a real-time job is kept for the pair's digests (R378). -/
def State.keepBlock (s : State) (job idx key : Nat) (bytes : List Byte) : State :=
  if s.pairByte.testBit 0 then { s with pair := { s.pair with blocks := s.pair.blocks ++ [(⟨job, idx, key, crc32 bytes, bytes⟩ : PairBlock)] } } else s

end Sys2Proof.Machine
end

