-- ==== Sys2Proof/Machine/Deliver.lean ====
section
/-!
DEFINITION. Control messages leaving a fronthaul port (R342, R346, R352) and the DELIVERY of an allocation (R236 to R238, R349).
-/
namespace Sys2Proof.Machine

open Sys2Proof (Byte Word)

/-- The most payload bytes of a control message part that keep its frame within 9,216 bytes (R340, R346): 14 of Ethernet header, 4 of tag, 4 of eCPRI header, 4 of identifiers, 8 of control header, 4 of FCS. -/
def partMax : Nat := 9216 - 38

/-- Splits a body into parts with their offsets (R346); a body without bytes is one part. -/
def splitParts : Nat → Nat → List Byte → List (Nat × List Byte)
  | 0, _, _ => []
  | fuel + 1, o, bs =>
    if bs.length ≤ partMax then [(o, bs)]
    else (o, bs.take partMax) :: splitParts fuel (o + partMax) (bs.drop partMax)

/-- The 8-byte control header of R346. -/
def ctlHeader (sfn slot index offset : Nat) : List Byte := toLE 2 sfn ++ toLE 1 slot ++ toLE 1 index ++ toLE 4 offset

/-- Address of the MAC processor (R347). -/
def State.macAddr (s : State) : BitVec 48 := BitVec.ofNat 48 (s.g64 Reg.FH_MAC_ADDR_LO Reg.FH_MAC_ADDR_HI)

/-- A control message to the MAC enters the control queue of FH_MAC_CFG.LINK's port, in parts (R346, R354). -/
def State.fhSendAt (s : State) (job kind sfn slot index : Nat) (body : List Byte) : State :=
  let link := s.g Reg.FH_MAC_CFG
  let parts := splitParts (body.length + 1) 0 body
  (parts.foldl (fun t pt =>
    let (n, t) := t.nextSeq (0x10000 + kind)
    let c : CtlOut := ⟨link, t.macAddr, job, 2, idBytes (kind <<< 8) n ++ ctlHeader sfn slot index pt.1 ++ pt.2⟩
    t.modFhp (linkPort link) (fun p => { p with ctl := p.ctl ++ [c] })) s).fhServe (linkPort link)

/-- A control message about a slot of a carrier (R346). -/
def State.fhSend (s : State) (job kind : Nat) (slotIdx scs index : Nat) (body : List Byte) : State :=
  s.fhSendAt job kind (slotIdx / spf scs % 1024) (slotIdx % spf scs) index body

/-- ERASE_FRAC (R216, R229). -/
def Alloc.eraseFrac (a : Alloc) : Nat := min 255 (if a.res = 0 then 0 else rneDiv (a.erased * 256) a.res)

/-- The 64-byte guard record of an allocation (R229). -/
def guardRecord (slotIdx scs : Nat) (a : Alloc) : List Byte :=
  toLE 2 (allocTag slotIdx scs a.index) ++ toLE 2 a.ueid ++ toLE 1 a.marks ++
    toLE 1 a.eraseFrac ++
    toLE 1 (a.decision.getD 0) ++ toLE 1 a.reason ++ toLE 2 a.resL ++ toLE 2 a.resR ++ toLE 4 a.mllrL ++ toLE 4 a.mllrR ++
    toLE 4 a.clampL ++ toLE 4 a.nllr ++ toLE 4 a.tL ++ toLE 4 a.tR ++ toLE 4 a.tG ++ zeros 24

/-- The state with one uplink slot's record changed. -/
def State.modRxSlot (s : State) (idx : Nat) (g : RxSlot → RxSlot) : State :=
  { s with rx := { s.rx with slots := s.rx.slots.map (fun x => if x.idx = idx then g x else x) } }

/-- The state with one allocation changed. -/
def State.modAlloc (s : State) (idx index : Nat) (g : Alloc → Alloc) : State :=
  s.modRxSlot idx (fun x => { x with allocs := x.allocs.map (fun a => if a.index = index then g a else a) })

/-- The allocation of a slot with an INDEX. -/
def State.alloc (s : State) (idx index : Nat) : Option Alloc :=
  match s.rx.slots.find? (fun x => x.idx == idx) with
  | some x => x.allocs.find? (fun a => a.index == index)
  | none => none

/-- Body of a DELIVERY (R349): head, guard record, and the decoded bits for OK and CRC_FAIL. -/
def deliveryBody (slotIdx scs : Nat) (a : Alloc) (status : Nat) (dec : List Byte) : List Byte :=
  toLE 1 status ++ toLE 1 0 ++ toLE 2 a.ueid ++ toLE 4 (le a.decode 4 3) ++ zeros 8 ++ guardRecord slotIdx scs a ++
    (if status ≤ 1 then dec else [])

/-- DELIVERY_QUEUE (R349): the DELIVERY of an allocation is queued and the allocation is done; its body is an output block of the slot (R378); one reported LATE or DISCARDED counts for no watch (R287). -/
def State.deliver (s : State) (slotIdx : Nat) (a : Alloc) (status : Nat) (dec : List Byte) : State :=
  let scs := s.g Reg.JOB_RX_CFG_SCS
  let job := (s.roleJob 1).getD 0
  let body := deliveryBody slotIdx scs a status dec
  let s := if status ≤ 1 then s else s.uncount (match s.rx.slots.find? (fun x => x.idx == slotIdx) with | some x => x.start | none => 0) a
  let s := (s.modAlloc slotIdx a.index (fun b => { b with done := true })).keepBlock job slotIdx a.index body
  s.fhSend job 0x10 slotIdx scs a.index body

/-- The allocation in flight that a tag names: of a slot that has started and whose D(n) has not passed, the latest (R211). -/
def State.tagged (s : State) (tag : Nat) : Option (RxSlot × Alloc) :=
  let scs := s.g Reg.JOB_RX_CFG_SCS
  (s.rx.slots.filter (fun x => x.edge && !x.ended)).reverse.findSome? (fun x =>
    (x.allocs.find? (fun a => allocTag x.idx scs a.index == tag)).map (fun a => (x, a)))

/-- Every allocation in flight, those of slots that have started, is reported DISCARDED (R238). -/
def State.rxDiscard (s : State) : State :=
  (s.rx.slots.filter (fun x => x.edge)).foldl (fun t x => (x.allocs.filter (fun a => !a.done)).foldl (fun t a => t.deliver x.idx a 3 []) t) s

/-- The receiver's state of a restarted job (R215, R218, R233, R234): ABSENT bits are registers; open grids are lost; loops, noise sums and codes start again. -/
def State.rxReset (s : State) : State :=
  let s := s.rxDiscard
  { s with rx := ⟨s.rx.slots.map (fun x => if x.edge then { x with ended := true, grid := [], copies := [], est := [], turns := [] } else x), [], [], [], [], []⟩ }

end Sys2Proof.Machine
end

