-- ==== Sys2Proof/Machine/Params.lean ====
section
/-!
DEFINITION. The parameters section of an image (02, R49, R50) and the records of its job table (11, R319, R320).
-/
namespace Sys2Proof.Machine

open Sys2Proof (Byte Word)

/-- The event of a failed check: code and ARG. -/
abbrev ImgFail := Nat × Nat

/-! ### Parameters (R49, R50) -/

/-- The range a field's table states: register, number of registers, stride, one per frond, lowest bit, width, least and greatest value. -/
structure ImgRange where
  base   : Nat
  count  : Nat
  stride : Nat
  frond  : Bool
  lo     : Nat
  width  : Nat
  min    : Nat
  max    : Nat
  deriving DecidableEq, Repr

/-- Stated ranges, part 1. -/
def imgRangesA : List ImgRange := [
  ⟨0x30004, 1, 4, false, 0, 10, 240, 720⟩,  -- PWR_CAP_CFG.CAP_INIT
  ⟨0x30004, 1, 4, false, 16, 10, 240, 720⟩,  -- PWR_CAP_CFG.LIM
  ⟨0x40004, 1, 4, false, 2, 9, 1, 500⟩,  -- TIME_PPS_CFG.WIDTH
  ⟨0x40008, 1, 4, false, 1, 7, 1, 100⟩,  -- TIME_HO_CFG.SLEW
  ⟨0x40008, 1, 4, false, 8, 16, 1, 65535⟩,  -- TIME_HO_CFG.HO_MAX
  ⟨0x40100, 2, 256, false, 0, 5, 0, 16⟩,  -- TIME_d_CFG.PORT
  ⟨0x40100, 2, 256, false, 16, 8, 24, 43⟩,  -- TIME_d_CFG.PTPDOM
  ⟨0x40104, 2, 256, false, 0, 16, 1, 65535⟩,  -- TIME_d_CFG2.STEP_MAX
  ⟨0x40140, 2, 256, false, 0, 24, 0, 9999999⟩,  -- TIME_d_FRAME_OFS.FRAME_OFS
  ⟨0x40164, 2, 256, false, 0, 16, 1, 65535⟩,  -- TIME_d_CFG3.HOLD_S
  ⟨0x50000, 1, 4, false, 0, 10, 10, 1000⟩,  -- FLT_CFG.TO_US
  ⟨0x50000, 1, 4, false, 10, 10, 10, 1023⟩,  -- FLT_CFG.WD
  ⟨0x50000, 1, 4, false, 20, 8, 1, 255⟩,  -- FLT_CFG.CE_THR
  ⟨0x60004, 1, 4, false, 0, 4, 2, 15⟩,  -- JOB_FAULT_LIM.MAX
  ⟨0x60004, 1, 4, false, 8, 8, 1, 255⟩,  -- JOB_FAULT_LIM.WIN
  ⟨0x60800, 1, 4, false, 0, 9, 0, 256⟩,  -- JOB_RX_CFG.NPORT
  ⟨0x60800, 1, 4, false, 9, 9, 0, 275⟩  -- JOB_RX_CFG.NPRB
]

/-- Stated ranges, part 2. -/
def imgRangesB : List ImgRange := [
  ⟨0x60800, 1, 4, false, 18, 2, 0, 2⟩,  -- JOB_RX_CFG.SCS
  ⟨0x60800, 1, 4, false, 20, 2, 1, 3⟩,  -- JOB_RX_CFG.K
  ⟨0x60800, 1, 4, false, 23, 2, 0, 2⟩,  -- JOB_RX_CFG.GRAN
  ⟨0x60804, 1, 4, false, 0, 8, 1, 200⟩,  -- JOB_RX_ALIGN.WIN
  ⟨0x60804, 1, 4, false, 8, 6, 1, 63⟩,  -- JOB_RX_ALIGN.ABSENT_SYM
  ⟨0x60804, 1, 4, false, 16, 8, 1, 250⟩,  -- JOB_RX_ALIGN.PLAN_LEAD
  ⟨0x60804, 1, 4, false, 24, 8, 1, 255⟩,  -- JOB_RX_ALIGN.RE_ERASE
  ⟨0x6080C, 1, 4, false, 0, 10, 1, 1023⟩,  -- JOB_RX_GUARD_T.LEAD
  ⟨0x60810, 1, 4, false, 16, 8, 1, 255⟩,  -- JOB_RX_TRACK.LOCK_THR
  ⟨0x60810, 1, 4, false, 24, 8, 1, 255⟩,  -- JOB_RX_TRACK.RESET_SLOTS
  ⟨0x60A00, 64, 4, false, 0, 8, 0, 63⟩,  -- JOB_RX_RHMAPn.RH0
  ⟨0x60A00, 64, 4, false, 8, 8, 0, 63⟩,  -- JOB_RX_RHMAPn.RH1
  ⟨0x60A00, 64, 4, false, 16, 8, 0, 63⟩,  -- JOB_RX_RHMAPn.RH2
  ⟨0x60A00, 64, 4, false, 24, 8, 0, 63⟩,  -- JOB_RX_RHMAPn.RH3
  ⟨0x60C00, 1, 4, false, 0, 9, 0, 256⟩,  -- JOB_TX_CFG.NPORT
  ⟨0x60C00, 1, 4, false, 9, 9, 0, 275⟩,  -- JOB_TX_CFG.NPRB
  ⟨0x60C00, 1, 4, false, 18, 2, 0, 2⟩  -- JOB_TX_CFG.SCS
]

/-- Stated ranges, part 3. -/
def imgRangesC : List ImgRange := [
  ⟨0x60C00, 1, 4, false, 21, 2, 0, 2⟩,  -- JOB_TX_CFG.GRAN
  ⟨0x60C04, 1, 4, false, 0, 10, 1, 1000⟩,  -- JOB_TX_TIME.LEAD
  ⟨0x60C04, 1, 4, false, 10, 10, 2, 1023⟩,  -- JOB_TX_TIME.TB_LEAD
  ⟨0x61000, 1, 4, false, 0, 10, 1, 1023⟩,  -- JOB_TRN_CFG.BATCH
  ⟨0x61000, 1, 4, false, 10, 7, 2, 127⟩,  -- JOB_TRN_CFG.HOLD_MOD
  ⟨0x61000, 1, 4, false, 17, 7, 1, 127⟩,  -- JOB_TRN_CFG.EVERY
  ⟨0x61004, 1, 4, false, 0, 9, 1, 275⟩,  -- JOB_TRN_LABEL.WPRB
  ⟨0x61004, 1, 4, false, 9, 9, 1, 511⟩,  -- JOB_TRN_LABEL.SILO_BW
  ⟨0x6101C, 1, 4, false, 0, 12, 1, 4095⟩,  -- JOB_TRN_CKPT.CKPT_STEPS
  ⟨0x61020, 1, 4, false, 0, 16, 80, 65535⟩,  -- JOB_TRN_WATCH.WATCH
  ⟨0x61020, 1, 4, false, 16, 8, 1, 255⟩,  -- JOB_TRN_WATCH.ROLL_THR
  ⟨0x61024, 1, 4, false, 0, 11, 60, 1440⟩,  -- JOB_TRN_PERSIST.MIN_INT
  ⟨0x70100, 4, 256, false, 0, 2, 0, 2⟩,  -- FH_Pp_CFG.MODE
  ⟨0x80000, 1, 4, false, 0, 10, 1, 1023⟩,  -- RZ_GRP_CFG.BUDGET
  ⟨0xB0100, 48, 4, false, 0, 24, 0, 1441791⟩,  -- TEL_LISTk.OFFSET
  ⟨0x106010, 1, 4, true, 0, 5, 1, 20⟩,  -- THR_CFG.ITER_DEF
  ⟨0x108000, 1, 4, true, 8, 11, 16, 1024⟩  -- STR_CFG.MC_SLACK
]

/-- Every stated range of an IMG field that is narrower than the field. -/
def imgRanges : List ImgRange := imgRangesA ++ imgRangesB ++ imgRangesC

/-- Whether a range is about a register. -/
def ImgRange.covers (r : ImgRange) (a : Nat) : Bool :=
  (List.range (if r.frond then 6 else 1)).any (fun f =>
    let b := r.base + 0x10000 * f
    decide (b ≤ a ∧ a < b + r.stride * r.count) && (a - b) % r.stride == 0)

/-- Whether a value may be loaded into a register by the parameters section (R49). -/
def paramOk (a v : Nat) : Bool :=
  match regSpecAt a with
  | none => false
  | some t =>
    let img : Nat := (t.fields.filter (fun f => f.acc == .img)).foldl (fun (m : Nat) f => m ||| (2 ^ f.width - 1) <<< f.lo) 0
    isReg a && (v &&& img) == v && imgRanges.all (fun r => !r.covers a || decide (r.min ≤ bits v r.lo r.width ∧ bits v r.lo r.width ≤ r.max))

/-- A value's IMG fields loaded into a register. -/
def State.loadParam (s : State) (a v : Nat) : State :=
  match regSpecAt a with
  | none => s
  | some t => s.setReg a (BitVec.ofNat 32 ((t.fields.filter (fun f => f.acc == .img)).foldl
      (fun w f => setBits w f.lo f.width (bits v f.lo f.width)) (s.reg a).toNat))

/-- One record's values, in order (R49). -/
def State.loadValues (s : State) (a : Nat) : List Nat → Except ImgFail State
  | [] => .ok s
  | v :: vs => if paramOk a v then (s.loadParam a v).loadValues (a + 4) vs else .error (0x0E09, a)

/-- The values of `n` words at the front of a byte sequence. -/
def wordsOf (n : Nat) (bs : List Byte) : List Nat := (List.range n).map (fun i => le bs (4 * i) 4)

/-- Whether the records of a parameters section fill it exactly (R49). -/
def paramShape : Nat → List Byte → Bool
  | 0, bs => bs.isEmpty
  | fuel + 1, bs =>
    if bs.isEmpty then true
    else
      let n := byteAt bs 3
      bs.length % 4 == 0 && n != 0 && decide (4 + 4 * n ≤ bs.length) && paramShape fuel (bs.drop (4 + 4 * n))

/-- PARAMETERS_APPLY (R49, R50): records applied in order over what is there. -/
def State.applyParams (s : State) : Nat → List Byte → Except ImgFail State
  | 0, _ => .ok s
  | fuel + 1, bs =>
    if bs.isEmpty then .ok s
    else
      let n := byteAt bs 3
      match s.loadValues (le bs 0 3) (wordsOf n (bs.drop 4)) with
      | .error e => .error e
      | .ok s' => s'.applyParams fuel (bs.drop (4 + 4 * n))

/-! ### Job records (R319, R320) -/

/-- A barn region entry (R320). -/
def regionOf (e : List Byte) : BarnRegion := ⟨le e 0 2, le e 2 2, byteAt e 4⟩

/-- The record of a job (R319). -/
def jobRecOf (r : List Byte) : JobRec :=
  if byteAt r 0 % 2 = 0 then JobRec.none
  else
    { valid := true, kind := bit (byteAt r 0) 1, prot := bit (byteAt r 0) 2, role := byteAt r 1, prio := bits (byteAt r 2) 0 4,
      frondMin := bits (byteAt r 3) 0 3, fronds := BitVec.ofNat 6 (byteAt r 4), sliceMs := byteAt r 5,
      channels := BitVec.ofNat 24 (le r 8 4), ways := BitVec.ofNat 16 (le r 12 2),
      fhShare := (List.range 4).map (fun p => byteAt r (16 + p)), rzShare := (List.range 4).map (fun p => byteAt r (20 + p)),
      save := bits (le r 24 4) 0 12, pfloor := le r 28 2,
      barn := ((List.range 4).map (fun i => regionOf (r.drop (32 + 8 * i)))).filter (fun b => b.mode != 0) }

/-- The job record of a job in the job table loaded so far. -/
def Image.jobRec (im : Image) (j : Nat) : Option JobRec :=
  match im.sections.find? (fun x => x.typ == 0x0B) with
  | none => none
  | some x => some (jobRecOf ((x.bytes.drop (64 + 256 * j)).take 256))

end Sys2Proof.Machine
end

