-- ==== Sys2Proof/Machine/Flash.lean ====
section
/-!
DEFINITION. The flash (R39): reading and writing bytes, its regions, and the slot directory (R40, R41, R472).
-/
namespace Sys2Proof.Machine

open Sys2Proof (Byte Word)

/-- One byte of flash; erased flash reads 0xFF. -/
def State.fl1 (s : State) (a : Nat) : Byte := sget 0xFF s.flash a

/-- `n` bytes of flash. -/
def State.fl (s : State) (a : Nat) : Nat → List Byte
  | 0 => []
  | n + 1 => s.fl1 a :: s.fl (a + 1) n

/-- The flash with bytes programmed. -/
def flashStore (m : List Host.Cell) (a : Nat) : List Byte → List Host.Cell
  | [] => m
  | b :: bs => flashStore (sset 0xFF m a b) (a + 1) bs

/-- The state with bytes of flash replaced. -/
def State.flSt (s : State) (a : Nat) (bs : List Byte) : State := { s with flash := flashStore s.flash a bs }

/-- The state with `n` bytes of flash erased. -/
def State.flErase (s : State) (a n : Nat) : State :=
  { s with flash := s.flash.filter (fun c => !decide (a ≤ c.1 ∧ c.1 < a + n)) }

/-- Size of a slot (R39). -/
def State.slotSize (s : State) : Nat := s.flashSize * 3 / 8
/-- Start of a slot (R39). -/
def State.slotBase (s : State) (k : Fin 2) : Nat := k.val * s.slotSize
/-- Start of a half of the checkpoint region (R39, R289). -/
def State.ckptBase (s : State) (h : Nat) : Nat := s.flashSize * 3 / 4 + h * (s.flashSize * 3 / 32)
/-- Size of a half of the checkpoint region. -/
def State.ckptSize (s : State) : Nat := s.flashSize * 3 / 32
/-- Start of the log region (R39). -/
def State.logBase (s : State) : Nat := s.flashSize * 15 / 16

/-! ### Slot directory (R40, R41, R472). Byte layout of a copy (DESIGN CHOICE, log 9): generation in bytes 0 to 3, states of slots A and B in 4 and 5, preferred slot in 6, CRC-32 in the last four. -/

/-- A directory copy with a valid CRC. -/
def State.dirCopy (s : State) (k : Nat) : Option (List Byte) :=
  let b := s.fl (s.logBase + 4096 * k) 4096
  if crc32 (b.take 4092) = le b 4092 4 then some b else none

/-- The copy in use: its number and bytes (R40). -/
def State.dirUse (s : State) : Option (Nat × List Byte) :=
  match s.dirCopy 0, s.dirCopy 1 with
  | some a, some b => if le b 0 4 > le a 0 4 then some (1, b) else some (0, a)
  | some a, none => some (0, a)
  | none, some b => some (1, b)
  | none, none => none

/-- IMG_SLOT_STS and IMG_DIR_GEN show the directory in force (R472); with no valid copy both slots are NEW, A is preferred and GEN is 0 (R40). -/
def State.dirShow (s : State) : State :=
  let (g, a, b, p) := match s.dirUse with
    | some (_, d) => (le d 0 4, byteAt d 4, byteAt d 5, byteAt d 6)
    | none => (0, 1, 1, 0)
  (((s.p Reg.IMG_DIR_GEN g).p Reg.IMG_SLOT_STS_STATE_A a).p Reg.IMG_SLOT_STS_STATE_B b).p Reg.IMG_SLOT_STS_PREF (b2n (p == 1))

/-- A directory update: the older copy takes the next generation (R40). With no valid copy the update goes to copy 0 with generation 1, and the generation after 0xFFFFFFFF is 0 (DESIGN CHOICE, log 37). -/
def State.dirWrite (s : State) (a b p : Nat) : State :=
  let (k, g) := match s.dirUse with
    | some (i, d) => (1 - i, (le d 0 4 + 1) % 4294967296)
    | none => (0, 1)
  let body := toLE 4 g ++ toLE 1 a ++ toLE 1 b ++ toLE 1 p ++ zeros 4085
  (s.flSt (s.logBase + 4096 * k) (body ++ toLE 4 (crc32 body))).dirShow

/-- The state code of a slot; a reserved code counts as BAD (R41). -/
def State.slotState (s : State) (k : Fin 2) : Nat :=
  let c := s.g (if k = 0 then Reg.IMG_SLOT_STS_STATE_A else Reg.IMG_SLOT_STS_STATE_B)
  if c > 4 then 4 else c

/-- The preferred slot. -/
def State.prefSlot (s : State) : Fin 2 := Fin.ofNat 2 (s.g Reg.IMG_SLOT_STS_PREF)

/-- The other slot. -/
def otherSlot (k : Fin 2) : Fin 2 := if k = 0 then 1 else 0

/-- A slot's state changes in the directory (R40, R41). -/
def State.markSlot (s : State) (k : Fin 2) (c : Nat) : State :=
  s.dirWrite (if k = 0 then c else s.slotState 0) (if k = 0 then s.slotState 1 else c) s.prefSlot.val

/-- A slot becomes preferred. -/
def State.preferSlot (s : State) (k : Fin 2) : State := s.dirWrite (s.slotState 0) (s.slotState 1) k.val

/-- A slot changes state and becomes preferred in one update. -/
def State.markPrefer (s : State) (k : Fin 2) (c : Nat) : State :=
  s.dirWrite (if k = 0 then c else s.slotState 0) (if k = 0 then s.slotState 1 else c) k.val

end Sys2Proof.Machine
end

