-- ==== Sys2Proof/Machine/ModelSet.lean ====
section
/-!
DEFINITION. Model slots (R44, R266, R318), placing the image's models, and persisted model sets (R289, R291).
-/
namespace Sys2Proof.Machine

open Sys2Proof (Byte Word Layer LayerFmt)

/-- Model slot of a role and kind (R318). -/
def modelSlot (role kind : Nat) : Nat := 2 * role + kind

/-- The slot that is active for role 0 or 1 (R266); for roles 2 and 3 the image's active slot. -/
def State.activeSlot (s : State) (role : Nat) : Nat := modelSlot role (if role < 2 then b2n (s.trn.active.getLsbD role) else 0)

/-- The slot that is the candidate of a role. -/
def State.candSlot (s : State) (role : Nat) : Nat := modelSlot role (1 - s.activeSlot role % 2)

/-- The layers in a model slot; none when it holds no model. -/
def State.slotLayers (s : State) (n : Nat) : Option (List Layer) := (s.trn.slots.find? (fun x => x.1 == n)).map (fun x => x.2)

/-- The state with a model slot's layers replaced. -/
def State.setLayers (s : State) (n : Nat) (l : List Layer) : State :=
  { s with trn := { s.trn with slots := s.trn.slots.filter (fun x => x.1 != n) ++ [(n, l)] } }

/-- ARCH of the job table, in bytes of barn offset (R318). -/
def State.archBase (s : State) : Nat :=
  match (s.sects 0x0B) with
  | x :: _ => le x.bytes 8 2 * 0x100000
  | [] => 0

/-- Device address of a model slot (R318). -/
def State.slotAddr (s : State) (n : Nat) : Nat := brnBase + s.archBase + n * (72 * 0x100000)

/-- The model section of a slot. -/
def State.modelSect (s : State) (n : Nat) : Option Section := (s.sects 0x06).find? (fun x => bits x.target.toNat 0 2 * 2 + bits x.target.toNat 8 1 == n)

/-- Layers that a model section lists. -/
def Section.layers (x : Section) : List Layer := match x.extra with | .model m => m.layers | _ => []

/-- The image's models are placed in their slots (R55, R318); training state about sets starts again (R267), and no persisted set matches (R292). -/
def State.placeModels (s : State) : State :=
  let s := { s with trn := { s.trn with active := 0, slots := [], edge := none, edgeCand := none, maxMset := 0, cand := none, gate := none, pending := none, watch := none, past := [], settled := none, persisted := none } }
  let s := s.p Reg.JOB_TRN_MSET 0
  (List.range 8).foldl (fun t n => match t.modelSect n with
    | some x => (t.setLayers n x.layers).loftStore none (t.slotAddr n) x.bytes
    | none => t) s

/-- The bytes of a slot whose layers were changed by the device: the section layout is not in the spec, so they are free values of the section's length (log 8). -/
def State.freeSlotBytes (s : State) (job : Option Nat) (n : Nat) : State :=
  match s.modelSect n with
  | none => s
  | some x => let (b, s) := s.freeBytes x.bytes.length; s.loftStore job (s.slotAddr n) b

/-! ### Body of a persisted set. R289 names what it holds; its layout is the model's: a list of 64-bit numbers, each list led by its length (DESIGN CHOICE, log 8). -/

/-- A number as 8 bytes. -/
def num8 (i : Int) : List Byte := toLE 8 (toBits 64 i)

/-- The numbers of a byte string. -/
def nums8 : Nat → List Byte → List Int
  | 0, _ => []
  | n + 1, bs => if bs.length < 8 then [] else sx 64 (leOf (bs.take 8)) :: nums8 n (bs.drop 8)

/-- A list led by its length. -/
def putList (l : List Int) : List Int := (l.length : Int) :: l

/-- Code of a layer format. -/
def layerFmtCode : LayerFmt → Int
  | .int8 => 0
  | .int4 => 1
  | .bs8 => 2
  | .bs4 => 3
  | .bf16 => 4
  | .fp16 => 5

/-- Layer format of a code. -/
def layerFmtOf (i : Int) : LayerFmt :=
  if i = 0 then .int8 else if i = 1 then .int4 else if i = 2 then .bs8 else if i = 3 then .bs4 else if i = 4 then .bf16 else .fp16

/-- The numbers of a layer. -/
def putLayer (l : Layer) : List Int :=
  [layerFmtCode l.fmt, l.cols] ++ putList l.shifts ++ putList l.codes ++ putList l.colsums ++ putList (l.outliers.map Int.ofNat) ++
    putList (l.scale.map (fun e => Int.ofNat e.1)) ++ putList (l.scale.map (fun e => e.2))

/-- A list led by its length, taken off the front. -/
def getList (l : List Int) : List Int × List Int :=
  match l with
  | [] => ([], [])
  | n :: r => (r.take n.toNat, r.drop n.toNat)

/-- A layer taken off the front. -/
def getLayer (l : List Int) : Layer × List Int :=
  let fmt := layerFmtOf (l.getD 0 0)
  let cols := (l.getD 1 0).toNat
  let (sh, l) := getList (l.drop 2)
  let (co, l) := getList l
  let (cs, l) := getList l
  let (ou, l) := getList l
  let (r1, l) := getList l
  let (r2, l) := getList l
  (⟨true, fmt, cols, sh, co, cs, ou.map Int.toNat, (r1.map Int.toNat).zip r2⟩, l)

/-- Layers taken off the front. -/
def getLayers : Nat → List Int → List Layer × List Int
  | 0, l => ([], l)
  | n + 1, l => let (x, l) := getLayer l; let (xs, l) := getLayers n l; (x :: xs, l)

/-- The TRAIN layers of a role's active slot. -/
def State.trainLayers (s : State) (role : Nat) : List Layer := ((s.slotLayers (s.activeSlot role)).getD []).filter (fun l => l.train)

/-- The default edge-class table of a frond's thresher tables section: 64 records OFFSET, SCALE (R245). -/
def State.edgeDefault (s : State) (f : Nat) : List (Nat × Nat) :=
  match s.frondSect 0x0A f with
  | none => []
  | some x => let o := le x.bytes 8 4
    (List.range 64).map (fun c => (byteAt x.bytes (o + 2 * c), byteAt x.bytes (o + 2 * c + 1)))

/-- The edge-class table in force for the receive job: the promoted one, or the section's (R252, R292). -/
def State.edgeTable (s : State) (f : Nat) : List (Nat × Nat) :=
  match s.trn.edge with
  | some t => t.map (fun e => (e.1.toNat, e.2.toNat))
  | none => s.edgeDefault f

/-- The lowest frond that a job holds. -/
def State.firstFrond (s : State) (j : Option Nat) : Option (Fin 6) := j.bind (fun k => (s.jobFronds k).head?)

/-- The edge-class table that a persisted set holds (R289): the active one, of the receive job's lowest frond where the sections of its fronds differ (log 29). -/
def State.edgeActive (s : State) : List (Nat × Nat) :=
  match s.firstFrond (s.roleJob 1) with
  | some f => s.edgeTable f
  | none => match s.trn.edge with | some _ => s.edgeTable 0 | none => []

/-- The body of the set in force (R289). -/
def State.setBody (s : State) : List Byte :=
  let role := fun (r : Nat) => (((s.trainLayers r).length : Int) :: (s.trainLayers r).flatMap putLayer)
  (role 0 ++ role 1 ++ putList (s.edgeActive.flatMap (fun e => [Int.ofNat e.1, Int.ofNat e.2]))).flatMap num8

/-- TRAIN layers of a model replaced in order by others. -/
def overlay : List Layer → List Layer → List Layer
  | [], _ => []
  | l :: ls, [] => l :: ls
  | l :: ls, x :: xs => if l.train then x :: overlay ls xs else l :: overlay ls (x :: xs)

/-- Pairs of a flat list. -/
def pairsOf : List Int → List (Byte × Byte)
  | a :: b :: l => (BitVec.ofInt 8 a, BitVec.ofInt 8 b) :: pairsOf l
  | _ => []

/-- A body applied over the image's models (R291). -/
def State.applyBody (s : State) (body : List Byte) : State :=
  let l := nums8 body.length body
  let (l0, l) := getLayers (l.getD 0 0).toNat (l.drop 1)
  let (l1, l) := getLayers (l.getD 0 0).toNat (l.drop 1)
  let (e, _) := getList l
  let s := s.setLayers 0 (overlay ((s.slotLayers 0).getD []) l0)
  let s := s.setLayers 2 (overlay ((s.slotLayers 2).getD []) l1)
  let s := (s.freeSlotBytes none 0).freeSlotBytes none 2
  { s with trn := { s.trn with edge := if e = [] then none else some (pairsOf e) } }

/-- MDIG (R289): over the DIGEST fields of the model and thresher tables sections, in table order. -/
def Image.mdig (im : Image) : List Byte :=
  let n := im.hdr 6 2
  let d := (List.range n).flatMap (fun i => let e := (im.table.drop (64 * i)).take 64
    if byteAt e 12 = 6 ∨ byteAt e 12 = 0x0A then (e.drop 16).take 48 else [])
  (Config.sha384 d).take 16

/-- The storage key in the present life-cycle state (R438): with the owner's seed once that is fused. -/
def State.storageKey (s : State) : List Byte := Config.storageKey s.fuses.seed

/-- Header of a half of the checkpoint region. -/
def State.halfHdr (s : State) (h : Nat) : List Byte := s.fl (s.ckptBase h) 64

/-- Whether a half holds a set by its MAGIC and length (R289). -/
def State.halfHas (s : State) (h : Nat) : Bool :=
  le (s.halfHdr h) 0 4 == 0x53444C4D && decide (le (s.halfHdr h) 12 4 + 64 ≤ s.ckptSize)

/-- Whether a half has never been written. -/
def State.halfEmpty (s : State) (h : Nat) : Bool := (s.halfHdr h).all (· == 0xFF)

/-- The body of a half when its tag passes (R289): the nonce is GEN followed by 8 zero bytes, the additional data header bytes 0 to 47. -/
def State.halfOpen (s : State) (h : Nat) : Option (List Byte) :=
  let d := s.halfHdr h
  let body := s.fl (s.ckptBase h + 64) (le d 12 4)
  Config.gcmOpen s.storageKey ((d.drop 4).take 4 ++ zeros 8) (d.take 48) (body ++ (d.drop 48).take 16)

/-- What R291 finds of a half: 0 it applies, 2 its tag fails, 3 it belongs to another image. -/
def State.halfCheck (s : State) (im : Image) (h : Nat) : Nat :=
  let d := s.halfHdr h
  match s.halfOpen h with
  | none => 2
  | some _ => if (d.drop 16).take 8 = (im.header.drop 24).take 8 ∧ (d.drop 24).take 16 = im.mdig then 0 else 3

/-- MODEL_SET_RESTORE (R291): the newest half that applies is laid over the image's models. -/
def State.restoreSet (s : State) : State :=
  match s.image with
  | none => s
  | some im =>
    let gen := fun (h : Nat) => le (s.halfHdr h) 4 4
    let cands := ([0, 1].filter s.halfHas)
    let order := if gen 1 > gen 0 then cands.reverse else cands
    match order.find? (fun h => s.halfCheck im h == 0) with
    | some h =>
      let d := s.halfHdr h
      let m := le d 8 4
      let s := s.applyBody ((s.halfOpen h).getD [])
      { s with trn := { s.trn with maxMset := m, persisted := some m, settled := some (m, le d 40 8) } }.p Reg.JOB_TRN_MSET m
    | none =>
      match order with
      | h :: _ => s.ev 0x0506 0x06 (s.halfCheck im h + le (s.halfHdr h) 8 4 <<< 32)
      | [] => if s.halfEmpty 0 && s.halfEmpty 1 then s else s.ev 0x0506 0x06 1

end Sys2Proof.Machine
end

