-- ==== Sys2Proof/Machine/TrainState.lean ====
section
/-!
DEFINITION. The training job's own state (09 R279, R281): masters and moments, the checkpoint in the barn, and what the job starts from.
-/
namespace Sys2Proof.Machine

open Sys2Proof (Byte Word Layer LayerFmt)

/-! ### Masters (R279, R281) -/

/-- The exact value of one weight of a layer by its position among the codes (R281): integers and blocks of 32 carry shifts, the others are codes of their format. -/
def Layer.weight (l : Layer) (i : Nat) (c : Int) : Num :=
  match l.fmt with
  | .int8 | .int4 => Num.scaled c (l.shifts.headD 0)
  | .bs8 | .bs4 => Num.scaled c (l.shifts.getD (i / 32) 0)
  | .bf16 => bf16.decode true (toBits 16 c)
  | .fp16 => fp16.decode false (toBits 16 c)

/-- The FP32 masters of a layer: the exact values of its quantised weights. -/
def Layer.masters (l : Layer) : List Word := l.codes.zipIdx.map (fun e => BitVec.ofNat 32 (toF32 (Layer.weight l e.2 e.1)))

/-- The TRAIN layers of roles 0 and 1, in that order (R279). -/
def State.allTrain (s : State) : List Layer := s.trainLayers 0 ++ s.trainLayers 1

/-- The BF16 working copies of masters (R279): each rounded to nearest even. -/
def workCopies (w : List Word) : List (BitVec 16) := w.map (fun x => BitVec.ofNat 16 (bf16.encode (ofF32 x.toNat)).1)

/-- Masters equal to the active weights, zero moments, t = 1 (R281, R292). -/
def State.trnFresh (s : State) : State :=
  let w := s.allTrain.flatMap Layer.masters
  let z : List Word := List.replicate w.length 0
  ({ s with trn := { s.trn with w := w, wb := workCopies w, mom1 := z, mom2 := z, snap := none, running := false, draw := 0, since := 0 } }).p Reg.JOB_TRN_STEP 1

/-! ### Checkpoints (R281). What one holds is R281's; its order and the size of an area are the model's (log 29) -/

/-- BUILD_ID of the image that the training job runs on, or during an adoption the one it takes its parts from. -/
def State.trnBuild (s : State) : List Byte := match s.jobImage (s.roleJob 3) with | some im => (im.header.drop 24).take 8 | none => zeros 8

/-- What a checkpoint holds before its digest: a running number, the BUILD_ID it belongs to, t, e, the snapshot, the next draw, masters and moments. -/
def State.ckptBody (s : State) : List Byte :=
  let n := s.trn.snap.getD (0, 0)
  toLE 8 s.trn.ckpt ++ s.trnBuild ++ toLE 8 (s.g Reg.JOB_TRN_STEP) ++ toLE 8 s.trn.epoch ++
    toLE 8 n.1 ++ toLE 8 n.2 ++ toLE 8 s.trn.draw ++ (s.trn.w ++ s.trn.mom1 ++ s.trn.mom2).flatMap (fun x => toLE 4 x.toNat)

/-- Bytes of a checkpoint's body for the TRAIN layers of the active models. -/
def State.ckptLen (s : State) : Nat := 56 + 12 * (s.allTrain.foldl (fun (n : Nat) l => n + l.codes.length) 0)

/-- Device address of a checkpoint area (R281): whole MiB from CKBASE. -/
def State.ckptArea (s : State) (k : Nat) : Nat :=
  brnBase + (s.g Reg.JOB_TRN_CKPT_CKBASE + k * ceilDiv (s.ckptLen + 48) 0x100000) * 0x100000

/-- The body of an area whose digest passes, which belongs to the image in use and was written since the last adoption began (R281, R292). -/
def State.ckptRead (s : State) (k : Nat) : Option (List Byte) :=
  let n := s.ckptLen
  let b := s.ld (s.ckptArea k) n
  let own := (s.jobImage (s.roleJob 3)).isSome && decide ((b.drop 8).take 8 = s.trnBuild ∧ s.trn.ckptFrom ≤ le b 0 8)
  if own && decide (s.ld (s.ckptArea k + n) 48 = (Config.sha384 b ++ zeros 48).take 48) && !s.poisoned (s.ckptArea k) (n + 48) then some b else none

/-- The words of a byte string from an offset. -/
def wordsAt (bs : List Byte) (o n : Nat) : List Word := (List.range n).map (fun i => BitVec.ofNat 32 (le bs (o + 4 * i) 4))

/-- The state taken up again from a checkpoint's body. -/
def State.ckptTake (s : State) (b : List Byte) : State :=
  let n := (b.length - 56) / 12
  let snap := if le b 40 8 = 0 then none else some (le b 32 8, le b 40 8)
  ({ s with trn := { s.trn with w := wordsAt b 56 n, wb := workCopies (wordsAt b 56 n), mom1 := wordsAt b (56 + 4 * n) n, mom2 := wordsAt b (56 + 8 * n) n, ckpt := le b 0 8 + 1,
                                snap := snap, running := snap.isSome, draw := le b 48 8, since := 0, epoch := le b 24 8 } }).p Reg.JOB_TRN_STEP (le b 16 8)

/-- What an adoption makes of training (R292): the new image's models are placed, sets and persisted sets are gone, the masters are rebuilt, and no checkpoint written before is resumed from. -/
def State.modelsAdopted (s : State) : State :=
  let s := s.placeModels.trnFresh
  { s with trn := { s.trn with ckptFrom := s.trn.ckpt } }

/-- What JOB_TRN_STS, JOB_TRN_EPOCH and JOB_TRN_MSET's neighbours show (R294): a gate, a promotion that waits, a watch, a pause, an epoch, in this order (log 29). -/
def State.showTrn (s : State) : State :=
  let t := s.trn
  let st := if t.gate.isSome then 2
    else match t.pending, t.watch with
      | some (.promote _ _), _ => 3
      | _, some _ => 4
      | _, none => if s.on Reg.JOB_TRN_CTL_PAUSE then 5 else if t.running then 1 else 0
  ((s.p Reg.JOB_TRN_STS_STATE st).p Reg.JOB_TRN_STS_CAND (b2n (t.cand.isSome && t.pending.isNone && t.watch.isNone))).p Reg.JOB_TRN_EPOCH t.epoch

/-- What the training job starts from after a JOB reset and at start (R281, R285): a gate under way is abandoned; the newer area whose digest passes, else the active weights. -/
def State.trnResume (s : State) : State :=
  let s := { s with trn := { s.trn with gate := none } }
  let n (b : Option (List Byte)) : Nat := match b with | some x => le x 0 8 + 1 | none => 0
  let a := s.ckptRead 0
  let b := s.ckptRead 1
  let s := (s.loftRange (s.roleJob 3) (s.ckptArea 0) (s.ckptLen + 48)).loftRange (s.roleJob 3) (s.ckptArea 1) (s.ckptLen + 48)
  (match (if n b > n a then b else a) with
   | some x => s.ckptTake x
   | none => s.trnFresh).showTrn

end Sys2Proof.Machine
end

