-- ==== Sys2Proof/Machine/Fault.lean ====
section
/-!
DEFINITION. Job faults and restarts (11 R329 to R333), hardware faults, their history and remedies (16 R416 to R424, 03 R97, 10 R308).
-/
namespace Sys2Proof.Machine

open Sys2Proof (Byte Word)

/-- Location code (R416). -/
def locCode (kind frond index : Nat) : BitVec 24 := BitVec.ofNat 24 (kind + frond <<< 4 + index <<< 8)

/-- KIND, FROND and INDEX of a location code (R416). -/
def locKind (l : BitVec 24) : Nat := bits l.toNat 0 4
/-- See `locKind`. -/
def locFrond (l : BitVec 24) : Nat := bits l.toNat 4 4
/-- See `locKind`. -/
def locIndex (l : BitVec 24) : Nat := bits l.toNat 8 16

/-- The owner of a granary channel among the jobs (R317). -/
def State.channelJob (s : State) (c : Nat) : Option Nat :=
  s.jobNums.find? (fun j => (s.job j).bind.channels.getLsbD c)

/-- The job a location's work belongs to (R417): none for a system bank, a lane or a location that cannot be retired. -/
def State.locOwner (s : State) (l : BitVec 24) : Option Nat :=
  match locKind l with
  | 1 => if s.sysBank (locIndex l) then none else s.channelJob (bankChannel (locIndex l))
  | 2 | 3 | 4 | 6 => s.jobOf (locFrond l)
  | _ => none

/-! ### Journal records (R430) -/

/-- A journal record of a CODE: bytes 4 to 7 as EV_RETIRED ARG [31:0], 8 to 15 uptime, CRC-32 at the end (R430). -/
def journalBytes (code w uptime : Nat) : List Byte :=
  let b := toLE 2 code ++ zeros 2 ++ toLE 4 w ++ toLE 8 uptime ++ zeros 12
  b ++ toLE 4 (crc32 b)

/-- A journal record waits for flash (R430). -/
def State.journal (s : State) (code w uptime : Nat) : State :=
  { s with flt := { s.flt with waiting := s.flt.waiting ++ [⟨journalBytes code w uptime, false⟩] } }

/-! ### What a JOB reset does to a job's fronds (R136, R185, R252, R329) -/

/-- Signal cores of a frond that are not retired (R199, R422). -/
def State.coresLeft (s : State) (f : Nat) : Nat :=
  maskOf ((List.range 8).filter (fun c => !s.flt.remedies.any (fun r => r.loc == locCode 4 f c)))

/-- The row mask in force on a frond (R97, R98). -/
def State.maskRow (s : State) (f : Nat) : Option Nat :=
  (s.flt.remedies.find? (fun r => r.remedy == 3 && locFrond r.loc == f)).map (fun r => locIndex r.loc / 32)

/-- Registers of a frond that come from the retirement record at every JOB reset (R98, R199). -/
def State.recordRegs (s : State) (f : Fin 6) : State :=
  let s := s.p (Reg.SIG_PRESENT f) (s.coresLeft f)
  let s := match s.maskRow f with
    | some r => (s.p (Reg.ARR_SPARE_STS_MASK_ROW f) r).p (Reg.ARR_SPARE_STS_MASKED f) 1
    | none => s
  (List.range 8).foldl (fun t c => if (s.coresLeft f).testBit c then t else t.p (Reg.SIG_Cc_STS_STATE f c) 5) s

/-- The registers of every frond that the retirement record gives (R98, R199, R201). -/
def State.recordFronds (s : State) : State := (List.finRange 6).foldl (fun t f => t.recordRegs f) s

/-- The signal-core programs section that a core takes: the one naming it with the fewest "all" codes (R44). -/
def State.sigSect (s : State) (f c : Nat) : Option Section :=
  let l := s.jobSects (s.jobOf f) 2
  let m (fr cr : Nat) := l.find? (fun x => bits x.target.toNat 0 4 == fr && bits x.target.toNat 8 4 == cr)
  (m f c).or ((m f 15).or ((m 7 c).or (m 7 15)))

/-- Both edge-class banks of a frond are loaded (R252). -/
def State.loadEdges (s : State) (f : Fin 6) : State :=
  ((s.edgeTable f).zipIdx).foldl (fun t e =>
    let w := BitVec.ofNat 32 (e.1.1 + e.1.2 <<< 8)
    (t.setReg (Reg.THR_ETBL0_c_OFFSET f e.2).addr w).setReg (Reg.THR_ETBL1_c_OFFSET f e.2).addr w) s

/-- A job's semaphores take their initial counts (R137): local pairs of its fronds and its granary pairs. -/
def State.restoreSems (s : State) (j : Nat) : State :=
  match s.graph j with
  | none => s
  | some g =>
    let s := g.localSems.foldl (fun t e =>
      if t.binds j e.1 then
        (t.p (Reg.STR_SEMs_FULL e.1 e.2.sem.toNat) e.2.full.toNat).p (Reg.STR_SEMs_FREE e.1 e.2.sem.toNat) e.2.free.toNat
      else t) s
    g.granarySems.foldl (fun t e =>
      t.stN (t.semBase + 4 * (e.sem.toNat - 0x400)) 4 (e.full.toNat + e.free.toNat <<< 16)) s

/-- The tensor records of a frond take their image values (R136, R141). -/
def State.restoreTensors (s : State) (j : Nat) (f : Fin 6) : State :=
  match s.graph j with
  | none => s
  | some g => (g.tensors.filter (fun x => x.frond == f)).foldl (fun t x =>
      let n : Nat := x.recNo
      ((((t.setReg (Reg.STR_TNSt_0 f n).addr (x.w0 &&& 0xFFFFFFE0#32)).setReg (Reg.STR_TNSt_2 f n).addr (x.w2 &&& 0x000FFFFF#32)).setReg
        (Reg.STR_TNSt_3_PITCH f n).addr x.w3).setReg (Reg.STR_TNSt_1_VALID f n).addr (x.w1 &&& 0x80FFFFFF#32))) s

/-- Whether a register is reset by the JOB reset of a role's job: JOB block ranges of the receive, transmit and training jobs (R67). -/
def roleReg (role a : Nat) : Bool :=
  (role == 1 && decide (0x60800 ≤ a ∧ a < 0x60C00)) || (role == 2 && decide (0x60C00 ≤ a ∧ a < 0x61000)) ||
    (role == 3 && decide (0x61000 ≤ a ∧ a < 0x61400))

/-- Whether a register belongs to a frond: its FR block and its group command words (R10, R373). -/
def frondReg (f a : Nat) : Bool :=
  decide (0x100000 + f * 0x10000 ≤ a ∧ a < 0x110000 + f * 0x10000) || decide (0x80100 + 0x40 * f ≤ a ∧ a < 0x80140 + 0x40 * f)

/-- JOB reset of one frond (R10, R136, R185, R305): units idle, queues empty, registers at their JOB values, leaf store zero-filled, signal-core memories reloaded, image values loaded. -/
def State.resetFrond (s : State) (j : Nat) (f : Fin 6) : State :=
  let s := s.setFr f Frond.idle
  let s := { s with mems := { s.mems with bank := s.mems.bank.filter (fun (e : Nat × Nat) => !decide (leafBankKey f 0 ≤ e.1 ∧ e.1 < leafBankKey f 40)) } }
  let s := { s with grp := { s.grp with ops := s.grp.ops.filter (fun (o : GrpOp) => o.frond != some f) } }
  let s := s.resetRegs .job (frondReg f)
  let s := (s.zeroFill (leafBase f) 0x800000).zeroFill (sigBase f 0) 0x200000
  let s := (List.range 8).foldl (fun t c =>
    match t.sigSect f c with
    | some x => t.st (sigBase f c) (x.bytes.take 0x40000)
    | none => t) s
  ((s.recordRegs f).loadEdges f).restoreTensors j f

/-- The fronds a job holds at the moment: all of a real-time job's, and a ring's only while its slice runs (R326). -/
def State.heldFronds (s : State) (j : Nat) : List (Fin 6) := (s.jobFronds j).filter (fun f => s.jobOf f == some j)

/-- First steps of R329: every unit of the job stops, in-flight work is discarded, and a receive job's allocations in flight are reported DISCARDED (R238). -/
def State.stopJob (s : State) (j : Nat) : State :=
  let s := (s.heldFronds j).foldl (fun t f => t.setFr f Frond.idle) s
  let role := (s.job j).bind.role
  let s := if role = 1 then s.rxReset else s
  if role = 2 then { s with tx := s.tx.map (fun x => { x with allocs := x.allocs.map (fun a => { a with dropped := true }) }) } else s

/-- A slice ring whose running member can no longer run ends its slice now (R326). -/
def State.ringLeave (s : State) (j : Nat) : State :=
  { s with rings := s.rings.map (fun r => if r.running = j ∧ r.endedAt = none then { r with endedAt := some s.ticks } else r) }

/-- When every job of a re-binding under way is ready or FAILED, EV_JOB_REBOUND is raised and counted (R336). -/
def State.rebindTest (s : State) : State :=
  match s.rebind with
  | some b =>
    if b.recs = [] ∧ b.named.all (fun j => s.jst j != 3) = true then
      (({ s with rebind := none }).inc Reg.JOB_REBIND_CNT).ev 0x0703 0x06 (maskOf b.named)
    else s
  | none => s

/-- A job becomes FAILED (R330, R331, R449): it stops, its resources stay bound; the reason goes into EV_JOB_FAILED. -/
def State.failJob (s : State) (j why : Nat) : State :=
  let s := (s.stopJob j).setJst j 5
  let s := s.modJob j (fun x => { x with restart := none })
  ((s.raise 0x0706 0x06 j why).ringLeave j).rebindTest

/-! ### Remedies (R97, R308, R422, R423) -/

/-- A remedy comes into force: recorded, journalled unless spare fuses hold it, EV_RETIRED raised (R422, R434). -/
def State.retire (s : State) (l : BitVec 24) (remedy cause : Nat) : State :=
  let up := s.g Reg.FLT_UPTIME
  let w := l.toNat + remedy <<< 24 + cause <<< 28
  let s := { s with flt := { s.flt with remedies := s.flt.remedies ++ [(⟨l, remedy, cause, up⟩ : Remedy)] } }
  let s := if remedy = 1 ∨ remedy = 2 ∨ remedy = 5 then s else s.journal 0xF001 w up
  (s.ev 0x0C01 0x05 (w + up <<< 32)).alarm 4

/-- BRN_SYS_WAYS shows the ways in no job's mask (R313). -/
def State.sysWays (s : State) : State :=
  s.p Reg.BRN_SYS_WAYS (0xFFFF - (s.mems.ways.foldl (fun (m : Nat) e => m ||| e.2.toNat) 0))

/-- A job's way mask in force (R313). -/
def State.setWays (s : State) (j : Nat) (m : BitVec 16) : State :=
  ({ s with mems := { s.mems with ways := sset 0 s.mems.ways j m } }).sysWays

/-- The owner of each channel as GRN_CHn_BIND shows it, after a job's channels have changed (R316). -/
def State.showOwners (s : State) (j : Nat) (ch : BitVec 24) : State :=
  (List.range 24).foldl (fun t c =>
    if ch.getLsbD c then t.p (Reg.GRN_CHn_BIND_OWNER c) j
    else if t.g (Reg.GRN_CHn_BIND_OWNER c) = j then t.p (Reg.GRN_CHn_BIND_OWNER c) 0xFF
    else t) s

/-- A job's record in force changes; its registers show it (R313, R316, R322, R338). -/
def State.setBind (s : State) (j : Nat) (b : JobRec) : State :=
  let old := (s.job j).bind
  let s := s.modJob j (fun x => { x with bind := b })
  let s := if old.ways = b.ways then s else s.setWays j b.ways
  if j < 16 then
    let s := (s.p (Reg.JOB_jSTS_KIND j) (b2n b.kind)).p (Reg.JOB_jSTS_PROT j) (b2n b.prot)
    let s := (s.p (Reg.JOB_jSTS_PRIO j) b.prio).p (Reg.JOB_jSTS_FRONDS j) b.fronds.toNat
    ((s.p (Reg.JOB_jCHAN j) b.channels.toNat).p (Reg.JOB_jWAYS j) b.ways.toNat).showOwners j b.channels
  else s

/-- A frond is retired (R422): every job that binds it loses it, and is FAILED when fewer than FROND_MIN remain (R330). -/
def State.retireFrond (s : State) (f : Nat) (l : BitVec 24) (cause : Nat) : State :=
  if (s.g Reg.FLT_STS_FROND_RET).testBit f then s
  else
    let s := (s.retire l 4 cause).p Reg.FLT_STS_FROND_RET (s.g Reg.FLT_STS_FROND_RET ||| 1 <<< f)
    (s.jobNums.filter (fun j => s.binds j f)).foldl (fun t j =>
      let b := (t.job j).bind
      let b' := { b with fronds := b.fronds &&& ~~~(BitVec.ofNat 6 (1 <<< f)) }
      let t := t.setBind j b'
      if popCount 6 b'.fronds.toNat < b.frondMin then t.failJob j 2
      else t.modJob j (fun x => { x with restart := x.restart.map (fun r => { r with rebound := true }) })) s

/-- A spare granary bank serves a logical bank from now on (R308): GRN_SPAREs, the field fuses and the count of free spares show it. -/
def State.useSpare (s : State) (k b : Nat) : State :=
  let s := (s.p (Reg.GRN_SPAREs_BANK k) b).p (Reg.GRN_SPAREs_USED k) 1
  let s := s.p (Reg.GRN_SPAREs_FIELD k) 1
  let s := s.p Reg.FLT_STS_GRN_SPARE_FREE (s.g Reg.FLT_STS_GRN_SPARE_FREE - 1)
  { s with fuses := { s.fuses with grnSpare := s.fuses.grnSpare ++ [(k, b, true)] } }

/-- The first spare bank, in ascending number, that is unused and whose fuses read back (R308, R423). -/
def State.freeSpare (s : State) : Option Nat :=
  (List.range 32).find? (fun k => !s.on (Reg.GRN_SPAREs_USED k) && !s.fuses.badSpare.contains k)

/-- The bank states that hold no more than the masks (R308). -/
def State.maskedBanks (s : State) : List (Nat × Nat) := s.mems.bank.filter (fun (e : Nat × Nat) => e.2 = 3)

/-- The bank that holds a ring base block. -/
def ringBankOf (blk : Nat) : Nat := blk * 0x20000 / 0x40000

/-- The bank states that a WARM reset and SAFE leave: the masks, and the bank of the kept event ring ON (R54, R56). -/
def State.keptBanks (s : State) (kept : Option Nat) : List (Nat × Nat) :=
  match kept with
  | some b => if s.bank (ringBankOf b) = 3 then s.maskedBanks else sset 0 s.maskedBanks (ringBankOf b) 1
  | none => s.maskedBanks

/-- The base block of the event ring that a WARM reset and SAFE keep: the one in use, else the one kept before (R38, R56). -/
def State.keptRing (s : State) : Option Nat := if s.on Reg.SYS_EVR_BASE_SET then some (s.g Reg.SYS_EVR_BASE_BASE_BLK) else s.boot.ringKept

/-- Whether an address lies in the bank of a kept event ring. -/
def inKeptRing (kept : Option Nat) (a : Nat) : Bool :=
  match kept with
  | some b => decide (grnBase + ringBankOf b * 0x40000 ≤ a ∧ a < grnBase + (ringBankOf b + 1) * 0x40000)
  | none => false

/-- SAFE (R54): entered with the code of its cause. Every IMG field holds its factory default (R48); fronds and ports are unpowered; granary banks other than the one that holds the event ring are OFF. CAP_ALARM_N and TRIP_N are released (R464). Events from here on go to the hold buffer, the ring base being no longer set (DEDUCED, log 13). -/
def State.enterSafe (s : State) (cause : Nat) : State :=
  let kept := s.keptRing
  let s := s.jobNums.foldl (fun t j => (t.stopJob j).setJst j 0) s
  let s := (s.ev 0x0E06 0x02 (cause % 256)).alarm 3
  let s := { s with
    boot := { s.boot with phase := .safe, ringKept := kept, oldBank := none, planned := false, safeAt := s.ticks }, image := none, jobs := Vector.replicate 16 Job.none,
    rings := [], rebind := none, adopt := none, undo := none, fronds := Vector.replicate 6 Frond.idle,
    mems := ⟨s.keptBanks kept, [], [], []⟩, rx := ⟨[], [], [], [], [], []⟩, tx := [], fh := Fh.reset,
    pps := { s.pps with outLevel := false }, mem := s.mem.filter (fun c => inKeptRing kept c.1 || decide (brnBase ≤ c.1)) }
  let s := (s.resetRegs .img (fun _ => true)).recordFronds
  let s := (List.range 4).foldl (fun t p => (t.p (Reg.FH_Pp_STS_LINK_UP p) 0).p (Reg.RZ_Pp_STS_UP p) 0) s
  let s := (s.p Reg.SYS_PIN_STS_CAP_ALARM 0).p Reg.SYS_PIN_STS_TRIP 0
  ((s.p Reg.IMG_SLOT_STS_RUN_VALID 0).p Reg.IMG_SLOT_STS_RUN_SLOT 0).p Reg.IMG_SLOT_STS_ADOPT 0

/-- Banks follow the bindings (R305): those that enter use are zero-filled and ON, those that leave it are OFF and lose their contents. -/
def State.passBanks (s : State) (before after : Nat) : State :=
  (List.range 1024).foldl (fun t b =>
    let c := bankChannel b
    if t.sysBank b || t.bank b == 3 then t
    else if after.testBit c && !before.testBit c then (t.setBank b 1).zeroFill (grnBase + b * 0x40000) 0x40000
    else if before.testBit c && !after.testBit c then (t.setBank b 0).zeroFill (grnBase + b * 0x40000) 0x40000
    else t) s

/-- Channels bound to some job. -/
def State.boundChannels (s : State) : Nat := s.jobNums.foldl (fun (m : Nat) j => m ||| (s.job j).bind.channels.toNat) 0

/-- A granary bank is replaced by a spare, or MASKED when none is left (R308, R422); its job is then re-bound to an unbound channel of the same size, whose banks enter use as the old channel's leave it (R305), or FAILED (R330); a masked system bank sends the device to SAFE. -/
def State.replaceBank (s : State) (b cause : Nat) : State :=
  let l := locCode 1 15 b
  match s.freeSpare with
  | some k => (s.useSpare k b).retire l 5 cause
  | none =>
    let owner := if s.sysBank b then none else s.channelJob (bankChannel b)
    let sys := s.sysBank b
    let s := ((s.setBank b 3).zeroFill (grnBase + b * 0x40000) 0x40000).retire l 6 cause
    if sys then s.enterSafe 0x01
    else match owner with
      | none => s
      | some j =>
        let c := bankChannel b
        let r := (s.job j).bind
        match (List.range 24).find? (fun c' => s.channelJob c' == none && decide ((c' < 16) = (c < 16))) with
        | some c' =>
          let before := s.boundChannels
          let s := s.setBind j { r with channels := (r.channels &&& ~~~(BitVec.ofNat 24 (1 <<< c))) ||| BitVec.ofNat 24 (1 <<< c') }
          let s := s.passBanks before s.boundChannels
          s.modJob j (fun x => { x with restart := x.restart.map (fun y => { y with rebound := true }) })
        | none => s.failJob j 2

/-- R97: spare row, else spare column, else row mask, else the frond retires. A spare whose fuses fail their read-back is marked unusable and the next remedy applies (R423). -/
def State.remedyCube (s : State) (f : Fin 6) (l : BitVec 24) (cause : Nat) : State :=
  let i := locIndex l / 32
  let c := locIndex l % 32
  let row := if i = 16 then s.g (Reg.ARR_SPARE_STS_SROW_MAP f) else i
  let col := if c = 16 then s.g (Reg.ARR_SPARE_STS_SCOL_MAP f) else c
  let rowFree := !s.on (Reg.ARR_SPARE_STS_SROW_USED f) && !s.fuses.badRow.get f
  let colFree := !s.on (Reg.ARR_SPARE_STS_SCOL_USED f) && !s.fuses.badCol.get f
  if rowFree then
    let s := ((s.p (Reg.ARR_SPARE_STS_SROW_MAP f) row).p (Reg.ARR_SPARE_STS_SROW_USED f) 1).p (Reg.ARR_SPARE_STS_SROW_FIELD f) 1
    ({ s with fuses := { s.fuses with spareRow := s.fuses.spareRow.set f (some (row, true)) } }).retire l 1 cause
  else if colFree then
    let s := ((s.p (Reg.ARR_SPARE_STS_SCOL_MAP f) col).p (Reg.ARR_SPARE_STS_SCOL_USED f) 1).p (Reg.ARR_SPARE_STS_SCOL_FIELD f) 1
    ({ s with fuses := { s.fuses with spareCol := s.fuses.spareCol.set f (some (col, true)) } }).retire l 2 cause
  else if s.maskRow f == none then (s.retire (locCode 3 f (32 * row + c)) 3 cause).recordRegs f
  else s.retireFrond f l cause

/-- A signal core is retired, and the frond with it when fewer than 4 cores remain (R416, R422). -/
def State.retireCore (s : State) (f : Fin 6) (l : BitVec 24) (cause : Nat) : State :=
  let s := (s.retire l 7 cause).p Reg.FLT_STS_SIG_RET (s.g Reg.FLT_STS_SIG_RET + 1)
  let s := s.recordRegs f
  if popCount 8 (s.coresLeft f) < 4 then s.retireFrond f l cause else s

/-- A lane is retired and its link goes out of use (R424). -/
def State.retireLane (s : State) (l : BitVec 24) (cause : Nat) : State :=
  (s.retire l 8 cause).p Reg.FLT_LANE_RET (s.g Reg.FLT_LANE_RET ||| 1 <<< (locIndex l % 32))

/-- The remedy of a permanent location (R416, R422). -/
def State.remedy (s : State) (l : BitVec 24) (cause : Nat) : State :=
  let f := Fin.ofNat 6 (locFrond l)
  match locKind l with
  | 1 => s.replaceBank (locIndex l) cause
  | 2 => s.retireFrond f l cause
  | 3 => s.remedyCube f l cause
  | 4 => s.retireCore f l cause
  | 5 => s.retireLane l cause
  | 6 => s.retireFrond f l cause
  | _ => s

/-- The remedies step of a job's restart (R329, R420, R422): pattern tests due of its locations run, then permanent locations get their remedies. -/
def State.remediesStep (s : State) (j : Nat) : State :=
  let mine := fun (l : BitVec 24) => s.locOwner l == some j && locKind l != 1
  let due := s.flt.tests.filter (fun t => mine t.1)
  let up := s.g Reg.FLT_UPTIME
  let s := { s with flt := { s.flt with tests := s.flt.tests.filter (fun t => !mine t.1) } }
  let s := due.foldl (fun t d =>
    let t := t.ev 0x0C03 0x05 (d.1.toNat + b2n (!d.2) <<< 24 + up <<< 32)
    if d.2 then t else
      { (t.inc Reg.FLT_PERM_CNT) with flt := { t.flt with perm := t.flt.perm ++ [(d.1, 2)] } }) s
  let now := s.flt.perm.filter (fun x => s.locOwner x.1 == some j)
  let s := { s with flt := { s.flt with perm := s.flt.perm.filter (fun x => !(s.locOwner x.1 == some j)) } }
  now.foldl (fun t x => t.remedy x.1 x.2) s

/-! ### Image fields under adoption (R66, R67) -/

/-- The register values that an image gives over the factory defaults (R48, R49). -/
def State.imageRegs (s : State) (im : Image) : State :=
  let t := s.resetRegs .img (fun _ => true)
  im.sections.foldl (fun (t : State) (x : Section) => if x.typ = 7 then (match t.applyParams x.bytes.length x.bytes with | .ok u => u | .error _ => t) else t) t

/-- The IMG fields of one register take the values that another register map holds. -/
def State.takeReg (s new : State) (a : Nat) : State :=
  match regSpecAt a with
  | none => s
  | some t => s.setReg a (BitVec.ofNat 32 ((t.fields.filter (fun f => f.acc == .img)).foldl
      (fun w f => setBits w f.lo f.width (bits (new.reg a).toNat f.lo f.width)) (s.reg a).toNat))

/-- The IMG fields of every register whose address a predicate keeps. -/
def State.takeRegs (s new : State) (p : Nat → Bool) : State :=
  ((s.regs ++ new.regs).filter (fun e => p e.1)).foldl (fun t e => t.takeReg new e.1) s

/-- Whether a register's IMG fields belong to a job (R67): its role's JOB range and the blocks of its fronds. -/
def State.jobField (s : State) (j a : Nat) : Bool :=
  roleReg (s.job j).bind.role a || (s.jobFronds j).any (fun f => decide (0x100000 + f.val * 0x10000 ≤ a ∧ a < 0x110000 + f.val * 0x10000))

/-- The fields of a job record that no binding is (R322). -/
def recordOver (old new : JobRec) : JobRec :=
  { old with kind := new.kind, prot := new.prot, role := new.role, prio := new.prio, frondMin := new.frondMin, sliceMs := new.sliceMs, save := new.save, pfloor := new.pfloor }

/-- A job's own state goes over to the image it now runs under (R67): its record, apart from its bindings, its IMG fields, and with the receive job the models (DEDUCED, log 17). -/
def State.takeJobFields (s : State) (j : Nat) : State :=
  match s.jobImage (some j) with
  | none => s
  | some im =>
    let s := match im.jobRec j with
      | some r => if r.valid then s.setBind j (recordOver (s.job j).bind r) else s
      | none => s
    let s := s.takeRegs (s.imageRegs im) (s.jobField j)
    if (s.job j).bind.role = 1 then { ({ s with image := some im }).modelsAdopted.showTrn with image := s.image } else s

/-! ### Job faults and restarts (R329 to R333) -/

/-- The restart of R329 up to the point where firmware runs: units stop, work is discarded, a gate of the training job is abandoned (R285), remedies apply, the JOB reset is made; the job shows RESTARTING. -/
def State.beginRestart (s : State) (j : Nat) (adopt newImg : Bool) : State :=
  let s := s.stopJob j
  let s := if (s.job j).bind.role = 3 then { s with trn := { s.trn with gate := none } } else s
  let s := (s.setJst j 3).modJob j (fun x => { x with restart := some ⟨s.ticks, false, adopt, newImg⟩, saved := [], fresh := true, spilled := [] })
  let s := { s with rings := s.rings.map (fun (r : Ring) => if r.running = j ∧ r.switch = false then { r with endedAt := none } else r) }
  let s := s.remediesStep j
  if s.jst j = 5 then s
  else
    let role := (s.job j).bind.role
    let s := s.resetRegs .job (roleReg role)
    (s.heldFronds j).foldl (fun t f => t.resetFrond j f) s

/-- A restart that is asked for (R331, R333): it never counts toward JOB_FAULT_LIM; EV_JOB_FAULT only where its own rule says so. -/
def State.askRestart (s : State) (j : Nat) (event : Option (Nat × Nat)) (adopt newImg : Bool) : State :=
  if !(s.job j).bind.valid then s
  else
    let s := match event with
      | some (c, src) => s.raise 0x0701 0x06 j (c + src <<< 16)
      | none => s
    s.beginRestart j adopt newImg

/-- The adoption turns back (R68): it is over, the jobs already restarted for it wait to be undone in the order of their adoption, and jobs that took its fields without a restart take them back. -/
def State.adoptBack (s : State) (a : Adopt) (j : Nat) : State :=
  let left := a.done.filter (fun k => k != j && !a.idle.contains k)
  a.idle.foldl (fun t k => t.takeJobFields k) { s with adopt := none, undo := some ⟨a.image, left⟩ }

/-- An undoing with no job left and none that still restarts for it is over (R68). -/
def State.undoEnd (s : State) : State :=
  match s.undo with
  | some u => if u.left.isEmpty && !s.jobNums.any (fun k => match (s.job k).restart with | some r => r.adopt | none => false) then { s with undo := none } else s
  | none => s

/-- The job that failed goes back to the running image's sections and fields, and restarts at once unless it is FAILED (R68). -/
def State.undoJob (s : State) (j : Nat) : State :=
  let s := s.takeJobFields j
  if s.jst j = 4 ∨ s.jst j = 5 then s else s.askRestart j none true false

/-- IMG_ADOPT_UNDO (R68): a job has failed to start under the new sections: EV_IMG_ADOPT_FAIL, the new slot is BAD, and the adoption turns back. -/
def State.adoptUndo (s : State) (a : Adopt) (j : Nat) : State :=
  let s := ((s.raise 0x0E0B 0x02 j (a.image.slot.val + j <<< 8)).markSlot a.image.slot 4).p Reg.IMG_SLOT_STS_ADOPT 0
  ((s.adoptBack a j).undoJob j).undoEnd

/-- JOB_FAULT (R329, R331, R68): a job faults with the code and SOURCE of the event that caused it, and restarts; a fault that reaches MAX within WIN seconds makes it FAILED; a fault while it restarts for an adoption undoes the adoption. -/
def State.jobFault (s : State) (j code src : Nat) : State :=
  if !(s.job j).bind.valid || s.jst j == 0 || s.jst j == 4 || s.jst j == 5 then s
  else
    let adopted := match s.adopt, (s.job j).restart with
      | some a, some r => if r.adopt && r.newImg then some a else none
      | _, _ => none
    let s := s.raise 0x0701 0x06 j (code + src <<< 16)
    let win := s.g Reg.JOB_FAULT_LIM_WIN * 1000000000
    let fl := (s.job j).faults.filter (fun t => decide (s.ticks - t < win)) ++ [s.ticks]
    let s := s.modJob j (fun x => { x with faults := fl })
    let full := decide (fl.length ≥ s.g Reg.JOB_FAULT_LIM_MAX)
    let s := if full then s.failJob j 1 else s
    match adopted with
    | some a => s.adoptUndo a j
    | none => if full then s else s.beginRestart j false false

/-- The job of a frond faults (R329). -/
def State.frondFault (s : State) (f : Nat) (code src : Nat) : State :=
  match s.jobOf f with
  | some j => s.jobFault j code src
  | none => s

/-! ### Hardware faults (R417 to R419) -/

/-- A location becomes permanent (R418): counted; its remedy waits for its owner's restart, or applies at once where no job owns it. -/
def State.permanent (s : State) (l : BitVec 24) (cause : Nat) : State :=
  let s := s.inc Reg.FLT_PERM_CNT
  match s.locOwner l with
  | some _ => { s with flt := { s.flt with perm := s.flt.perm ++ [(l, cause)] } }
  | none => s.remedy l cause

/-- A history entry is added; a full table gives up its oldest (R419). -/
def State.addHist (s : State) (l : BitVec 24) : State :=
  let up := s.g Reg.FLT_UPTIME
  let h := s.flt.hist
  let s := s.journal 0xF002 l.toNat up
  if h.length < 256 then { s with flt := { s.flt with hist := h ++ [⟨l, up⟩] } }
  else
    let oldest := h.foldl (fun m e => min m e.first) up
    { (s.inc Reg.FLT_HIST_OVF_CNT) with flt := { s.flt with hist := h.eraseP (fun e => e.first == oldest) ++ [⟨l, up⟩] } }

/-- The transient branch of R418: a history entry, a pattern test due (none for a lane). -/
def State.transient (s : State) (l : BitVec 24) (trigger up : Nat) (testOk : Bool) : State :=
  let s := ({ s with flt := { s.flt with hist := s.flt.hist.filter (fun x => x.loc != l) } }).addHist l
  let s := (s.inc Reg.FLT_TRANSIENT_CNT).ev 0x0C02 0x05 (l.toNat + trigger <<< 28 + up <<< 32)
  if locKind l = 5 then s else { s with flt := { s.flt with tests := s.flt.tests ++ [(l, testOk)] } }

/-- FAULT_CLASSIFY (R418): a fault at a location is transient, with a pattern test scheduled whose result is given, or permanent when it is the second within 86,400 s. -/
def State.classify (s : State) (l : BitVec 24) (trigger : Nat) (testOk : Bool) : State :=
  if locKind l = 7 then s.inc Reg.FLT_NONRET_CNT
  else
    let up := s.g Reg.FLT_UPTIME
    match s.flt.hist.find? (fun e => e.loc == l) with
    | some e =>
      if up - e.first < 86400 then
        ({ s with flt := { s.flt with hist := s.flt.hist.filter (fun x => x.loc != l) } }).permanent l 1
      else s.transient l trigger up testOk
    | none => s.transient l trigger up testOk

/-- A hardware fault (R417, R418): it is classified, and where its work belongs to a job and its location is of KIND 1 to 4 or 6, that job faults with the causing event. -/
def State.hwFault (s : State) (l : BitVec 24) (trigger : Nat) (testOk : Bool) (code src : Nat) : State :=
  let owner := s.locOwner l
  let s := s.classify l trigger testOk
  match owner with
  | some j => s.jobFault j code src
  | none => s

end Sys2Proof.Machine
end

