-- ==== Sys2Proof/Machine/Access.lean ====
section
/-!
DEFINITION. Who may reach what: unmapped accesses (01 R29), access by the agents of a job to the resources of its own job and to others' (09 R266 R287; 10 R297, R298, R304; 11 R317, R320, R323).
-/
namespace Sys2Proof.Machine

open Sys2Proof (Byte Word)

/-- UNMAPPED_ACCESS (R29): counted and recorded. -/
def State.unmapped (s : State) (agent a : Nat) (write : Bool) : State :=
  let s := (s.inc Reg.SYS_UNMAPPED_CNT).p Reg.SYS_UNMAPPED_ADDR_LO (a % 4294967296)
  ((s.p Reg.SYS_UNMAPPED_ADDR_HI_ADDR_HI (a / 4294967296)).p Reg.SYS_UNMAPPED_ADDR_HI_AGENT agent).p Reg.SYS_UNMAPPED_ADDR_HI_WRITE (b2n write)

/-- What an access of a job's agent meets: it may go on, it is unmapped, or it reaches a resource that another job owns. -/
inductive AccRes where
  | ok
  | unmapped
  | cross (owner : Nat)
  deriving DecidableEq, Repr

/-- The job whose agent has a SOURCE code (R34, R297): a unit of a frond works for the frond's job. -/
def State.agentJob (s : State) (agent : Nat) : Option Nat :=
  if 0x10 ≤ agent ∧ agent < 0x70 ∧ agent % 16 ≤ 6 then s.jobOf (agent / 16 - 1) else none

/-- Whether a granary range lies in the noise table block that the receive job's frond controllers may write (R298). -/
def State.inNoiseBlock (s : State) (o n : Nat) : Bool :=
  let b := s.g Reg.JOB_RX_NF_BASE * 0x10000
  decide (b ≤ o ∧ o + n ≤ b + 0x10000)

/-- An access to one granary bank (R297, R298, R304). -/
def State.bankAccess (s : State) (agent job b o n : Nat) (write : Bool) : AccRes :=
  if b ≥ 1024 ∨ s.bank b = 3 then .unmapped
  else if s.sysBank b then
    (if !write || ((s.job job).bind.role == 1 && agent % 16 == 6 && s.inNoiseBlock o n) then .ok else .unmapped)
  else match s.channelJob (bankChannel b) with
    | some k => if k = job then .ok else .cross k
    | none => .unmapped

/-- An access to the leaf store or a signal-core memory of a frond (R317). -/
def State.frondAccess (s : State) (job f : Nat) : AccRes :=
  if s.binds job f then .ok
  else match s.jobNums.find? (fun k => s.binds k f) with
    | some k => .cross k
    | none => .unmapped

/-- Whether a barn region holds a range, in a mode that lets it be read or written (R320). -/
def BarnRegion.holds (r : BarnRegion) (o n : Nat) (write : Bool) : Bool :=
  (r.mode == 2 || (r.mode == 1 && !write)) && decide (r.base * 2 ^ 20 ≤ o ∧ o + n ≤ (r.base + r.size) * 2 ^ 20)

/-- Whether a barn range touches a model slot that the training job may not write (R266, R287): the active slots of roles 0 and 1, and during a watch their candidate slots. -/
def State.modelGuarded (s : State) (o n : Nat) : Bool :=
  let l := [s.activeSlot 0, s.activeSlot 1] ++ (if s.trn.watch.isSome then [s.candSlot 0, s.candSlot 1] else [])
  l.any (fun k => decide (o + brnBase < s.slotAddr k + 72 * 0x100000 ∧ s.slotAddr k < o + brnBase + n))

/-- An access to the barn (R320): the loader area belongs to system agents. -/
def State.barnAccess (s : State) (job o n : Nat) (write : Bool) : AccRes :=
  let own := (s.job job).bind.barn
  if write && (s.job job).bind.role == 3 && s.modelGuarded o n then .cross ((s.roleJob 1).getD job)
  else if own.any (fun r => r.holds o n write) then .ok
  else if own.any (fun r => r.holds o n false) then .unmapped
  else match s.jobNums.find? (fun k => (s.job k).bind.barn.any (fun r => r.mode != 0 && r.holds o 1 false)) with
    | some k => if k = job then .unmapped else .cross k
    | none => .unmapped

/-- The first result of a list that is not `ok`. -/
def AccRes.first : List AccRes → AccRes
  | [] => .ok
  | .ok :: l => AccRes.first l
  | r :: _ => r

/-- An access of `n` bytes by an agent of a job (R297, R317, R320, R323). -/
def State.access (s : State) (agent job a n : Nat) (write : Bool) : AccRes :=
  match s.region a with
  | .granary o =>
    AccRes.first ((List.range ((o % 0x40000 + n + 0x3FFFF) / 0x40000)).map (fun i => s.bankAccess agent job (o / 0x40000 + i) o n write))
  | .leaf f o => if o + n > 0x800000 then .unmapped else s.frondAccess job f
  | .sig f _ o => if o + n > 0x40000 then .unmapped else s.frondAccess job f
  | .barn o => s.barnAccess job o n write
  | .reg => .unmapped
  | .none => .unmapped

/-- CROSS_JOB_ACCESS (R323): an access to a resource bound to another job is unmapped, raises EV_JOB_XACCESS and counts, and the agent's job faults. -/
def State.crossAccess (s : State) (agent job owner a : Nat) (write : Bool) : State :=
  let s := (s.unmapped agent a write).inc Reg.JOB_XACCESS_CNT
  (s.raise 0x0705 agent job (agent + owner <<< 8 + a <<< 16)).jobFault job 0x0705 agent

/-- What an access that is not `ok` leaves (R29, R323). -/
def State.refuse (s : State) (agent job a : Nat) (write : Bool) : AccRes → State
  | .ok => s
  | .unmapped => s.unmapped agent a write
  | .cross k => s.crossAccess agent job k a write

/-- The frond whose register block holds an address (R28). -/
def frondOfReg (a : Nat) : Option Nat := if 0x100000 ≤ a ∧ a < 0x160000 then some ((a - 0x100000) / 0x10000) else none

/-- A register access by an agent: a frond controller that reaches the registers of a frond bound to another job has made a cross-job access (R323); any other access goes on. -/
def State.guard (s : State) (agent a : Nat) (write : Bool) (g : State → State) : State :=
  match s.agentJob agent, frondOfReg a with
  | some j, some f =>
    match s.frondAccess j f with
    | .cross k => s.crossAccess agent j k a write
    | _ => g s
  | _, _ => g s

/-- A write to a register that has a command of its own, by an agent that may be another job's (R8, R30, R323). -/
def State.push (s : State) (agent : Nat) (acc : Acc) (v : Nat) (pulse : Fld) (g : State → State) : State :=
  s.guard agent pulse.addr true (fun s => s.trigger agent acc v pulse g)

end Sys2Proof.Machine
end

