-- ==== Sys2Proof/Machine/SlotTime.lean ====
section
/-!
DEFINITION. Slot edges (14 R399, 07 R202) and the boundaries that management messages name (R63, R69, R334, R377).
-/
namespace Sys2Proof.Machine

open Sys2Proof (Byte Word)

/-- T' of R399 in nanoseconds, raised by 1,024 frames so that it is never negative. -/
def State.tPrime (s : State) (d : Dom) (t : Nat) : Nat := t + 10240000000 - s.g (Reg.TIME_d_FRAME_OFS (domNo d))

/-- Whether an instant of a domain is a slot edge of a spacing (R399). -/
def State.isEdge (s : State) (d : Dom) (scs t : Nat) : Bool := s.tPrime d t % slotNs scs == 0

/-- Slot index of the slot that an instant of a domain lies in: SFN × spf + SLOT (R202, R399). -/
def State.slotIdxAt (s : State) (d : Dom) (scs t : Nat) : Nat := s.tPrime d t / slotNs scs % (1024 * spf scs)

/-- The start edge of the slot that an instant lies in, in nanoseconds of the domain. -/
def State.edgeBefore (s : State) (d : Dom) (scs t : Nat) : Nat := t - s.tPrime d t % slotNs scs

/-- The first slot edge after an instant. -/
def State.edgeAfter (s : State) (d : Dom) (scs t : Nat) : Nat := s.edgeBefore d scs t + slotNs scs

/-- The start edge of the slot with an index that lies from 5.12 s before an instant to less than 5.12 s after it (R204, R475: indexes repeat every 10.24 s). -/
def State.edgeOf (s : State) (d : Dom) (scs t idx : Nat) : Nat :=
  let n := 1024 * spf scs
  let cur := s.slotIdxAt d scs t
  let ahead := (idx + n - cur) % n
  let e := s.edgeBefore d scs t
  if 2 * ahead < n ∨ (2 * ahead = n ∧ e < t) then e + ahead * slotNs scs else e - (n - ahead) * slotNs scs

/-- The domain in which the receive job's slot edges are taken; domain A without a receive job (DEDUCED, log 15). -/
def State.slotDom (s : State) : Dom :=
  match s.roleJob 1 with
  | some _ => domOf (s.g Reg.JOB_RX_CFG_TDOM)
  | none => .a

/-- The domain of the group (R359). -/
def State.groupDom (s : State) : Dom := match s.groupSect with | some g => domOf (byteAt g 5) | none => .a

/-- Jobs that are group-bound (R359). -/
def State.gjobs (s : State) : Nat := match s.groupSect with | some g => le g 12 2 | none => 0

/-- Whether the device is a member of a group (R381). -/
def State.isMember (s : State) : Bool := s.g Reg.RZ_GRP_STS_ROLE != 0

/-- Whether a boundary AT of a management message is in order (R63, R69, R335, R377): neither past nor more than 10 s ahead; for group business a slot edge of the group's timing, never all zero. -/
def State.atOk (s : State) (group : Bool) (sec ns : Nat) : Bool :=
  if ns ≥ 1000000000 then false
  else if sec = 0 ∧ ns = 0 then !group
  else
    let d := if group then s.groupDom else s.slotDom
    let t := sec * 1000000000 + ns
    let now := (s.dom d).nanos
    decide (now ≤ t ∧ t ≤ now + 10000000000) && (!group || s.isEdge d (s.g Reg.JOB_RX_CFG_SCS) t)

/-- Whether a boundary AT has been reached; all zero is any boundary (R66, R334). -/
def State.atReached (s : State) (group : Bool) (sec ns : Nat) : Bool :=
  (sec == 0 && ns == 0) || decide (sec * 1000000000 + ns ≤ (s.dom (if group then s.groupDom else s.slotDom)).nanos)

/-- Whether the receive job's slot timing is at a slot edge, or at the tick that has stepped over it; with no receive job running every instant is a boundary (R66, R334). -/
def State.slotBoundary (s : State) : Bool :=
  match s.roleJob 1 with
  | some j => s.jst j != 1 || decide (s.tPrime s.slotDom (s.dom s.slotDom).nanos % slotNs (s.g Reg.JOB_RX_CFG_SCS) ≤ 1)
  | none => true

end Sys2Proof.Machine
end

