-- ==== Sys2Proof/Machine/Tick.lean ====
section
/-!
DEFINITION. What one nanosecond with no command does (R383; log 7): the counters of the time island advance, the follower's slew goes on (R397), a PPS_OUT pulse ends (R396), and the MG port sends a message that waits.
-/
namespace Sys2Proof.Machine

/-- A domain's counter after one 1 GHz tick (R383): INCR is added, in 2^-40 ns, and nanoseconds carry into seconds. -/
def Domain.advance (d : Domain) (incr : Nat) : Domain :=
  let sum := d.ns.toNat <<< 40 + d.frac.toNat + incr
  let ns := sum >>> 40
  { d with
    frac := BitVec.ofNat 40 sum
    ns := BitVec.ofNat 30 (ns % 1000000000)
    sec := d.sec + BitVec.ofNat 64 (ns / 1000000000) }

/-- The domain that follows the other (R397). -/
def State.follower (s : State) : Option Dom :=
  match s.g Reg.TIME_HO_CTL with
  | 1 => some .a
  | 2 => some .b
  | _ => none

/-- Whether a domain follows the other. -/
def State.follows (s : State) (d : Dom) : Bool := s.follower == some d

/-- The other domain. -/
def other : Dom → Dom
  | .a => .b
  | .b => .a

/-- A domain's time in 2^-40 ns. -/
def Domain.units (d : Domain) : Nat := d.nanos <<< 40 + d.frac.toNat

/-- The leader's time minus the follower's, in 2^-40 ns (δ of R397). -/
def State.gap (s : State) (f : Dom) : Int := (s.dom (other f)).units - (s.dom f).units

/-- Whether δ is below 1 ns (R397). -/
def closed (gap : Int) : Bool := decide (gap.natAbs < 2 ^ 40)

/-- SLEW ppm of 1 ns in 2^-40 ns (R397). -/
def State.slew (s : State) : Nat := rneDiv (s.g Reg.TIME_HO_CFG_SLEW <<< 40) 1000000

/-- The increment a domain adds at the next tick: its own; while it follows, the leader's INCR, and until it is coupled SLEW ppm more or less (R397). -/
def State.stepIncr (s : State) (d : Dom) : Nat :=
  if s.follows d then
    let lead := (s.dom (other d)).incr.toNat
    if closed (s.gap d) || s.on (Reg.TIME_d_STS_COUPLED (domNo d)) then lead
    else if 0 < s.gap d then lead + s.slew else lead - s.slew
  else (s.dom d).incr.toNat

/-- The message at the head of the MG queue leaves when the link is up (R35, R60). -/
def State.mgDrain (s : State) : State :=
  match s.mg.up, s.mg.queue with
  | true, m :: q => { s with mg := { s.mg with queue := q }, mgOut := s.mgOut ++ [m] }
  | _, _ => s

/-- Uptime counts whole seconds of powered operation (R418), and the journal's erase bucket gains one erase every 10 s up to 360 (R431). -/
def State.secondTick (s : State) : State :=
  if s.ticks % 1000000000 = 999999999 then
    let s := s.p Reg.FLT_UPTIME (s.g Reg.FLT_UPTIME + 1)
    if s.ticks % 10000000000 = 9999999999 then { s with flt := { s.flt with credit := min 360 (s.flt.credit + 1) } } else s
  else s

/-- One nanosecond: nothing acts in POR (R460); elsewhere time advances, and the MG port sends. -/
def State.tick (s : State) : State :=
  if s.boot.phase = .por then s
  else
    { s.mgDrain.secondTick with
      ticks := s.ticks + 1
      domA := s.domA.advance (s.stepIncr .a)
      domB := s.domB.advance (s.stepIncr .b)
      pps := { s.pps with outLevel := s.pps.outLevel && decide (s.ticks + 1 < s.pps.outUntil) } }

end Sys2Proof.Machine
end

