-- ==== Sys2Proof/Machine/RegRead.lean ====
section
/-!
DEFINITION. Reading registers (01): unmapped accesses (R29), registers that show other state, RC fields (R8, R12), NOW (R383), the selected stall counter (R27).
-/
namespace Sys2Proof.Machine

open Sys2Proof (Byte Word RegAcc)

/-- Key of a crossing's queue. -/
def xqKey (cross inst queue : Nat) : Nat := 32 * cross + 4 * inst + queue

/-- Whether a crossing has an instance (R27). -/
def xqExists (cross inst : Nat) : Bool :=
  decide (cross ≤ 2 ∧ inst ≤ 5) || decide ((cross = 3 ∨ cross = 4) ∧ inst ≤ 3) || decide (5 ≤ cross ∧ cross ≤ 8 ∧ inst = 0)

/-- The queue that TEL_XQ_SEL names, when there is one (R27). -/
def State.xqSel (s : State) : Option Nat :=
  let c := s.g Reg.TEL_XQ_SEL_CROSS
  let i := s.g Reg.TEL_XQ_SEL_INST
  if xqExists c i then some (xqKey c i (s.g Reg.TEL_XQ_SEL_QUEUE)) else none

/-- The stall counter of the selected queue (R24, R27). -/
def State.xqStall (s : State) : Word :=
  match s.xqSel with
  | none => 0
  | some k => sget 0 s.stalls k

/-- The selected stall counter cleared. -/
def State.xqClear (s : State) : State :=
  match s.xqSel with
  | none => s
  | some k => { s with stalls := sset 0 s.stalls k 0 }

/-- NOW of a domain captured into its four words (R383). -/
def State.captureNow (s : State) (d : Dom) : State :=
  let n := domNo d
  let t := (s.dom d).full
  (((s.p (Reg.TIME_d_NOW_SEC_LO n) (bits t.sec.toNat 0 32)).p (Reg.TIME_d_NOW_SEC_HI n) (bits t.sec.toNat 32 32)).p
    (Reg.TIME_d_NOW_NS n) t.ns.toNat).p (Reg.TIME_d_NOW_FR n) t.frac.toNat

/-- The frond and core whose MBO lies at an address. -/
def mboAt (a : Nat) : Option (Fin 6 × Fin 8) :=
  if 0x100000 ≤ a ∧ (a - 0x100000) / 0x10000 < 6 then
    let f := Fin.ofNat 6 ((a - 0x100000) / 0x10000)
    (List.finRange 8).findSome? (fun c => if a = (Reg.SIG_Cc_MBO f.val c.val).addr then some (f, c) else none)
  else none

/-- Whole seconds left until a tick. -/
def State.secondsTo (s : State) (t : Nat) : Nat := ceilDiv (t - s.ticks) 1000000000

/-- GRN_BANK_STS for the selected bank (R304, R308, R316). -/
def State.bankStatus (s : State) : Nat :=
  let b := s.g Reg.GRN_BANK_SEL
  let spare := (List.range 32).find? (fun k => s.on (Reg.GRN_SPAREs_USED k) && s.g (Reg.GRN_SPAREs_BANK k) == b)
  s.bank b + b2n (s.sysBank b) <<< 2 + b2n spare.isSome <<< 3 + bankChannel b <<< 4 + (spare.getD 0) <<< 9

/-- The frond and half whose LEAF_BANK_STS lies at an address. -/
def leafStsAt (a : Nat) : Option (Fin 6 × Fin 2) :=
  if 0x100000 ≤ a ∧ (a - 0x100000) / 0x10000 < 6 then
    let f := Fin.ofNat 6 ((a - 0x100000) / 0x10000)
    (List.finRange 2).findSome? (fun i => if a = (Reg.LEAF_BANK_STS f.val i.val).addr then some (f, i) else none)
  else none

/-- The state code of a leaf-store bank (R56, R304 to R307): during the start OFF before the memory test and ON after it, until a first slot plan has been accepted; then OFF while its frond is bound to no job or in KEEP, RETENTION in HOLD or on its own, else ON. -/
def State.leafBankState (s : State) (f k : Nat) : Nat :=
  if s.boot.phase ≠ .starting ∧ s.boot.phase ≠ .started then 0
  else if s.boot.phase = .starting ∨ (s.boot.planned = false ∧ s.g Reg.PWR_STS_STATE = 0 ∧ s.bank (leafBankKey f k) ≠ 2) then b2n s.boot.memOk
  else if (s.jobOf f).isNone || decide (s.g Reg.PWR_STS_STATE ≥ 2) then 0
  else if s.g Reg.PWR_STS_STATE = 1 ∨ s.bank (leafBankKey f k) = 2 then 2
  else 1

/-- LEAF_BANK_STS0 or LEAF_BANK_STS1 of a frond (R304). -/
def State.leafBankSts (s : State) (f : Nat) (i : Nat) : Nat :=
  ((List.range 16).map (fun k => s.leafBankState f (16 * i + k) <<< (2 * k))).sum

/-- The domain whose TIME_d_INCR words an address is, when that domain follows the other: they read the leader's INCR (R397). -/
def State.leadIncr (s : State) (a : Nat) : Option Word :=
  match s.follower with
  | none => none
  | some f =>
    let v := (s.dom (other f)).incr.toNat
    if a = (Reg.TIME_d_INCR_LO (domNo f)).addr then some (BitVec.ofNat 32 v)
    else if a = (Reg.TIME_d_INCR_HI (domNo f)).addr then some (BitVec.ofNat 32 (v / 2 ^ 32))
    else none

/-- What a register shows, read without side effects: registers that show other state are computed from it. -/
def State.peek (s : State) (a : Nat) : Word :=
  if a = Reg.FLT_HIST_LOC_LOC.addr then
    (match s.flt.hist[s.g Reg.FLT_HIST_SEL]? with
     | some e => BitVec.ofNat 32 (e.loc.toNat + 1 <<< 31)
     | none => 0)
  else if a = Reg.FLT_HIST_T.addr then
    (match s.flt.hist[s.g Reg.FLT_HIST_SEL]? with
     | some e => BitVec.ofNat 32 e.first
     | none => 0)
  else if a = Reg.GRN_BANK_STS_STATE.addr then BitVec.ofNat 32 s.bankStatus
  else if a = Reg.BRN_WAY_MASK.addr then BitVec.ofNat 32 (sget 0 s.mems.ways (s.g Reg.BRN_WAY_SEL)).toNat
  else if a = Reg.TEL_XQ_STALL_CNT.addr then s.xqStall
  else if a = Reg.SEC_DBG_LEFT.addr then
    (match s.sec.session with
     | some x => (match x.until_ with | some t => BitVec.ofNat 32 (s.secondsTo t) | none => 0)
     | none => 0)
  else if a = Reg.SEC_LOCK_LEFT.addr then BitVec.ofNat 32 (s.secondsTo s.sec.lockEnd)
  else if a = Reg.RZ_GRP_STS_TIME_OK.addr then
    BitVec.ofNat 32 (setBits (s.reg a).toNat 2 1 (b2n (s.groupSect.isSome && s.valid s.groupDom)))
  else if (s.leadIncr a).isSome then (s.leadIncr a).getD 0
  else match mboAt a, leafStsAt a with
    | some (f, c), _ => ((s.fr f).sig.get c).mbo.headD 0
    | none, some (f, i) => BitVec.ofNat 32 (s.leafBankSts f.val i.val)
    | none, none => s.reg a

/-- The RC fields of a register cleared to their reset values (R8). -/
def State.clearRc (s : State) (a : Nat) : State :=
  match regSpecAt a with
  | none => s
  | some t => s.setReg a (BitVec.ofNat 32 ((t.fields.filter (fun f => f.acc == .rc)).foldl (fun w f => setBits w f.lo f.width f.reset) (s.reg a).toNat))

/-- A core's MBO loses its head word (R197). -/
def State.mboPop (s : State) (f : Fin 6) (c : Fin 8) : State :=
  let k := (s.fr f).sig.get c
  let s := s.modFr f (fun x => { x with sig := x.sig.set c { k with mbo := k.mbo.tail } })
  s.p (Reg.SIG_Cc_STS_MBO_CNT f c) k.mbo.tail.length

/-- A register read by an agent (R8, R27, R29, R197, R383): the value, and the state after its side effects. -/
def State.regRead (s : State) (agent a width : Nat) : Word × State :=
  if width ≠ 4 ∨ !isReg a then (0, s.unmapped agent a false)
  else
    let s := if a = (Reg.TIME_d_NOW_SEC_LO 0).addr then s.captureNow .a
             else if a = (Reg.TIME_d_NOW_SEC_LO 1).addr then s.captureNow .b else s
    let v := s.peek a
    let s := if a = Reg.TEL_XQ_STALL_CNT.addr then s.xqClear
             else match mboAt a with
               | some (f, c) => s.mboPop f c
               | none => s.clearRc a
    (v, s)

/-- A register read whose value goes to the log of values read (log 4); across jobs it is unmapped and 0 (R29, R323). -/
def State.readLog (s : State) (agent a width : Nat) : State :=
  let t := s.guard agent a false (fun s =>
    let (v, s) := s.regRead agent a width
    { s with readOut := s.readOut ++ [v] })
  if t.readOut.length = s.readOut.length then { t with readOut := t.readOut ++ [0] } else t

/-- RC_COUNTER_READ (R8, R12, R29). -/
def execRcCounterRead (a : RegAcc) (s : State) : Host.Outcome State Fault Refusal :=
  act (fun s => s.readLog a.agent.toNat a.addr.toNat a.width) s

/-- TEL_XQ_STALL_READ (R27). -/
def execTelXqStallRead (agent : Byte) (s : State) : Host.Outcome State Fault Refusal :=
  act (fun s => s.readLog agent.toNat Reg.TEL_XQ_STALL_CNT.addr 4) s

/-- TIME_NOW_CAPTURE (R383): a read of NOW_SEC_LO captures all four words. -/
def execTimeNowCapture (agent : Byte) (dom : Dom) (s : State) : Host.Outcome State Fault Refusal :=
  act (fun s => s.readLog agent.toNat (Reg.TIME_d_NOW_SEC_LO (domNo dom)).addr 4) s

end Sys2Proof.Machine
end

