-- ==== Sys2Proof/Machine/Crossing.lean ====
section
/-!
DEFINITION. Island crossings and clock gating (01, R22 to R25, R27).
-/
namespace Sys2Proof.Machine

open Sys2Proof (Byte XqRef XqSrc Island)

/-- Depth of each queue of a crossing (R25). -/
def xqDepth (cross : Nat) : Nat := [16, 16, 32, 64, 64, 16, 32, 8, 4].getD cross 0

/-- Width of an entry of a crossing's queues in bytes (R25). -/
def xqWidth (cross : Nat) : Nat := [1024, 512, 256, 64, 64, 16, 128, 8, 8].getD cross 0

/-- Number of an island that gates its clocks: arrays 0 to 5, lanes 6 to 11, fabric 12. -/
def islandNo : Island → Nat
  | .array f => f.val
  | .lane f => 6 + f.val
  | .fabric => 12

/-- The gating island at the first-named side of a crossing (R25); none for ports and islands that never gate. -/
def xqFirst (cross inst : Nat) : Option Nat :=
  match cross with
  | 0 => some 12
  | 1 => some inst
  | 2 => some (6 + inst)
  | _ => none

/-- The gating island at the second-named side. -/
def xqSecond (cross inst : Nat) : Option Nat :=
  match cross with
  | 0 => some inst
  | 1 => some (6 + inst)
  | _ => some 12

/-- The island that takes items from a queue (R27). -/
def xqConsumer (cross inst queue : Nat) : Option Nat :=
  if queue = 0 ∨ queue = 3 then xqSecond cross inst else xqFirst cross inst

/-- The island that puts items into a queue. -/
def xqProducer (cross inst queue : Nat) : Option Nat :=
  if queue = 0 ∨ queue = 3 then xqFirst cross inst else xqSecond cross inst

/-- One queue; at the start the producer holds a credit for each entry (R23). -/
def State.xq (s : State) (q : XqRef) : Crossing :=
  match s.cross.find? (fun x => x.1 == xqKey q.cross q.inst q.queue) with
  | some x => x.2
  | none => ⟨[], [], xqDepth q.cross, .other⟩

/-- The state with one queue changed. -/
def State.setXq (s : State) (q : XqRef) (c : Crossing) : State :=
  let k := xqKey q.cross q.inst q.queue
  { s with cross := (s.cross.filter (fun x => decide (x.1 < k))) ++ [(k, c)] ++ s.cross.filter (fun x => decide (k < x.1)) }

/-- Producer cycles without a credit, added to the queue's stall counter, which stops at 0xFFFF_FFFF (R12, R24). -/
def State.stallXq (s : State) (q : XqRef) (n : Nat) : State :=
  let k := xqKey q.cross q.inst q.queue
  { s with stalls := sset 0 s.stalls k (BitVec.ofNat 32 (min 0xFFFFFFFF ((sget 0 s.stalls k).toNat + n))) }

/-- A crossing's command as a next state: like any other's, but the crossings are its own. -/
def actCross (f : State → State) (s : State) : Host.Outcome State Fault Refusal :=
  .next (if s.held then s else { f s with pending := s.pending })

/-- ISLAND_CLOCK_WAKE (R22). -/
def State.wakeIsland (s : State) (i : Option Nat) : State :=
  match i with
  | some n => { s with gated := s.gated.filter (fun x => x != n) }
  | none => s

/-- Whether an item fits an entry of a crossing (R25). -/
def itemFits (cross : Nat) (item : List Byte) : Bool := decide (1 ≤ item.length ∧ item.length ≤ xqWidth cross)

/-- The place of the held item that is sent next: the first, but on the lane-to-fabric request queue the first of the other of thresher and movers when both have items ready and one of them was served last (R24, R241). -/
def Crossing.nextHeld (c : Crossing) (lane : Bool) : Nat :=
  let turn : Option XqSrc := match c.last with
    | .thresher => some .mover
    | .mover => some .thresher
    | .other => none
  match turn with
  | some t => if lane && (c.waiting.map (·.1)).head? == some c.last then (c.waiting.findIdx? (fun x => x.1 == t)).getD 0 else 0
  | none => 0

/-- An item from a source: sent for one credit, or held by its producer while it has none (R23, R24). -/
def Crossing.put (c : Crossing) (src : XqSrc) (item : List Byte) : Crossing :=
  if c.credits = 0 then { c with waiting := c.waiting ++ [(src, item)] }
  else { c with items := c.items ++ [item], credits := c.credits - 1, last := src }

/-- The consumer removes the oldest item and returns its credit, with which the producer sends the next item it holds (R23, R24). -/
def Crossing.take (c : Crossing) (lane : Bool) : Crossing :=
  let i := c.nextHeld lane
  match c.items, c.waiting[i]? with
  | [], _ => c
  | _ :: l, none => { c with items := l, credits := c.credits + 1 }
  | _ :: l, some (src, item) => { c with items := l ++ [item], waiting := c.waiting.eraseIdx i, last := src }

/-- Whether a queue is the request queue of a lane island to the fabric, where thresher and movers take turns (R241). -/
def laneQueue (q : XqRef) : Bool := q.cross == 2 && q.queue == 0

/-- CROSSING_ITEM_ARRIVAL (R22 to R25): an item that fits the crossing is sent for one credit after the cycles the producer waited without one, and becomes visible to its consumer, whose island wakes; without a credit the producer holds it. -/
def execCrossingItemArrival (q : XqRef) (src : XqSrc) (item : List Byte) (waits : Nat) (s : State) : Host.Outcome State Fault Refusal :=
  actCross (fun s =>
    if !(xqExists q.cross q.inst && itemFits q.cross item) then s
    else
      let s := s.stallXq q waits
      let c := s.xq q
      let t := s.setXq q (c.put src item)
      if c.credits = 0 then t else t.wakeIsland (xqConsumer q.cross q.inst q.queue)) s

/-- CROSSING_CREDIT_RETURN (R22, R23, R25): the consumer has removed an item, and its credit becomes visible to the producer, whose island wakes; an item that the producer held is sent with it and wakes the consumer. -/
def execCrossingCreditReturn (q : XqRef) (waits : Nat) (s : State) : Host.Outcome State Fault Refusal :=
  actCross (fun s =>
    if !xqExists q.cross q.inst then s
    else
      let s := s.stallXq q waits
      let c := s.xq q
      let t := (s.setXq q (c.take (laneQueue q))).wakeIsland (xqProducer q.cross q.inst q.queue)
      if c.items = [] then s
      else if c.waiting = [] then t
      else t.wakeIsland (xqConsumer q.cross q.inst q.queue)) s

/-- Whether every input queue of an island is empty (R22). -/
def State.inputsEmpty (s : State) (i : Nat) : Bool :=
  s.cross.all (fun x => x.2.items.isEmpty || xqConsumer (x.1 / 32) (x.1 % 32 / 4) (x.1 % 4) != some i)

/-- ISLAND_CLOCK_GATE (R22): an island whose input queues have been empty for 64 cycles gates its clocks; nothing else changes. -/
def execIslandClockGate (i : Island) (s : State) : Host.Outcome State Fault Refusal :=
  act (fun s =>
    if s.inputsEmpty (islandNo i) && !s.gated.contains (islandNo i) then { s with gated := s.gated ++ [islandNo i] } else s) s

end Sys2Proof.Machine
end

