-- ==== Sys2Proof/Machine/Reset.lean ====
section
/-!
DEFINITION. The resets shared by pins, supplies and messages: POR and WARM (R10, R389, R414, R459, R460), closing a debug session (R450), links going up and down (R339, R340, R356, R463).
-/
namespace Sys2Proof.Machine

open Sys2Proof (Byte Word)

/-! ### Debug sessions (R450) -/

/-- What SEC_DBG_STS shows with no session open: in MAKER SCOPE 0x3F and AUTH 0xF (R448). -/
def State.dbgIdle (s : State) : State :=
  let m := decide (s.fuses.life = 0)
  let s := ((s.p Reg.SEC_DBG_STS_OPEN 0).p Reg.SEC_DBG_STS_AGENT 0).p Reg.SEC_DBG_LEFT 0
  (s.p Reg.SEC_DBG_STS_SCOPE (if m then 0x3F else 0)).p Reg.SEC_DBG_STS_AUTH (if m then 0xF else 0)

/-- A session closes with a cause; controllers halted by it resume (R450), and a boundary-scan instruction that needed it gives way to BYPASS (R448). -/
def State.closeDebug (s : State) (cause : Nat) : State :=
  match s.sec.session with
  | none => s
  | some _ => ({ s with sec := { s.sec with session := none, halted := [], jtagIr := (if 3 ≤ s.sec.jtagIr ∧ s.sec.jtagIr ≤ 5 ∧ s.fuses.life ≠ 0 then 0 else s.sec.jtagIr) } }.dbgIdle).ev 0x0D03 0x01 cause

/-! ### Fuse shadow (R55, R59, R435, R439, R308, R97) -/

/-- Number of fused slots as a mask. -/
def Fuses.fused (f : Fuses) : Nat := maskOf ((List.range 4).filter (fun k => ((f.slots.toList.getD k none)).isSome))

/-- The registers that show fuses. -/
def State.fuseRegs (s : State) : State :=
  let f := s.fuses
  let lot := f.lot.toNat
  let s := s.p Reg.SYS_ID_PART_PAIR (b2n f.pair)
  let s := (s.p Reg.SYS_ID_LOT_LO (bits lot 0 30)).p Reg.SYS_ID_LOT_HI_LOT_C5 (bits lot 30 6)
  let s := ((s.p Reg.SYS_ID_LOT_HI_WAFER f.wafer.toNat).p Reg.SYS_ID_LOT_HI_DIE_X f.dieX.toNat).p Reg.SYS_ID_LOT_HI_DIE_Y f.dieY.toNat
  let s := (s.p Reg.SYS_ID_UID_LO (bits f.uid.toNat 0 32)).p Reg.SYS_ID_UID_HI (bits f.uid.toNat 32 32)
  let s := (s.p Reg.SEC_LC f.life).p Reg.SEC_ARB f.arb
  let s := (s.p Reg.SEC_KEY_STS_FUSED f.fused).p Reg.SEC_KEY_STS_REVOKED f.revoked.toNat
  let s := ((s.p Reg.SEC_KEY_STS_OIK (b2n f.oik.isSome)).p Reg.SEC_KEY_STS_MIK (b2n f.mik.isSome)).p Reg.SEC_KEY_STS_SEED (b2n f.seed)
  let s := s.p Reg.SEC_KEY_STS_DUS (b2n f.dus)
  let s := f.grnSpare.foldl (fun t x =>
    ((t.p (Reg.GRN_SPAREs_BANK x.1) x.2.1).p (Reg.GRN_SPAREs_USED x.1) 1).p (Reg.GRN_SPAREs_FIELD x.1) (b2n x.2.2)) s
  let s := s.p Reg.FLT_STS_GRN_SPARE_FREE (32 - f.grnSpare.length)
  (List.finRange 6).foldl (fun t i =>
    let t := match f.spareRow.get i with
      | some (r, fd) => ((t.p (Reg.ARR_SPARE_STS_SROW_MAP i) r).p (Reg.ARR_SPARE_STS_SROW_USED i) 1).p (Reg.ARR_SPARE_STS_SROW_FIELD i) (b2n fd)
      | none => t
    match f.spareCol.get i with
      | some (c, fd) => ((t.p (Reg.ARR_SPARE_STS_SCOL_MAP i) c).p (Reg.ARR_SPARE_STS_SCOL_USED i) 1).p (Reg.ARR_SPARE_STS_SCOL_FIELD i) (b2n fd)
      | none => t) s

/-- The registers that show input levels (R461). -/
def State.pinRegs (s : State) : State :=
  let b := s.boot
  let s := ((s.p Reg.SYS_PIN_STS_WARM_N (b2n b.warmN)).p Reg.SYS_PIN_STS_WAKE_N (b2n b.wakeN)).p Reg.SYS_PIN_STS_CAPLIM_N (b2n b.caplimN)
  let s := ((s.p Reg.SYS_PIN_STS_PPS_IN (b2n b.ppsLevel)).p Reg.SYS_PIN_STS_REF_PRESENT (b2n b.refOk)).p Reg.SYS_PIN_STS_XO_OK (b2n b.xoOk)
  let s := (s.p Reg.SYS_PIN_STS_TEST_MODE (b2n b.testMode)).p Reg.SYS_PIN_STS_SMB_ADDR b.smbAddr.toNat
  s.p Reg.SYS_RAIL_STS_OK ((2 ^ 8 - 1) - b.railLow.toNat)

/-! ### POR (R10, R460) -/

/-- The whole device in POR: what stays is outside it (fuses, flash with its sectors skipped for good, input levels) or is the model's own (queue, logs, tick count, free values). -/
def State.enterPor (s : State) : State :=
  { State.reset with
    pending := s.pending, ticks := s.ticks, flash := s.flash, fuses := s.fuses, freeCtr := s.freeCtr,
    boot := { Boot.reset with warmN := s.boot.warmN, railLow := s.boot.railLow, xoOk := s.boot.xoOk, refOk := s.boot.refOk,
                              caplimN := s.boot.caplimN, caplimAt := s.boot.caplimAt, wakeN := s.boot.wakeN, ppsLevel := s.boot.ppsLevel },
    flt := { Flt.reset with skipped := s.flt.skipped }, lanes := s.lanes, rzOut := s.rzOut, fhOut := s.fhOut, mgOut := s.mgOut, smbOut := s.smbOut, irqOut := s.irqOut, readOut := s.readOut }

/-! ### WARM (R10, R389, R414, R459, R460) -/

/-- Memory that survives a WARM: the bank of the event ring (R10, R38), and the barn, whose devices keep their own supply (DESIGN CHOICE, log 14). -/
def keptByWarm (ring : Option Nat) (a : Nat) : Bool := decide (brnBase ≤ a) || inKeptRing ring a

/-- A WARM reset starts: the device is in WARM until every cause has ended. -/
def State.startWarm (s : State) : State :=
  if s.boot.phase = .por ∨ s.boot.phase = .warm then s
  else
    let kept := s.keptRing
    let hot := decide (sx 16 (s.g Reg.PWR_TEMP_T) ≥ 800)
    let s := ((s.loftDrop).resetRegs .warm (fun _ => true)).recordFronds
    let s := { s with
      boot := { s.boot with phase := .warm, ringKept := kept, oldBank := none, planned := false, selfOk := false, memOk := false, flashOk := false, dirOk := false,
                            barnOk := false, loaded := 0, second := false, confirmed := false, warmDue := false, hotWait := hot, warmAt := s.ticks },
      image := none, openSlot := none, adopt := none, undo := none, mg := { s.mg with up := false, queue := [] },
      sec := { s.sec with chal := none, zero := none, zeroised := false, keysGone := false },
      domA := Domain.reset, domB := Domain.reset, ptpA := Ptp.reset, ptpB := Ptp.reset,
      pps := State.reset.pps, jobs := Vector.replicate 16 Job.none, rings := [], rebind := none,
      fronds := Vector.replicate 6 Frond.idle, cross := [], stalls := [], gated := [],
      mems := ⟨s.keptBanks kept, [], [], []⟩,
      mem := sfilter (keptByWarm kept) s.mem, poison := s.poison.filter (keptByWarm kept),
      flt := { s.flt with ce := [] },
      rx := ⟨[], [], [], [], [], []⟩, tx := [], fh := Fh.reset, grp := Grp.reset, pair := Pair.reset, pwr := Pwr.reset,
      trn := { Trn.reset with heldSeq := s.trn.heldSeq, heldBase := s.trn.heldSeq },
      lanes := s.lanes.map (fun (l : Lane) => ({ l with lossAt := none } : Lane)) }
    (s.closeDebug 3).dbgIdle.p Reg.SYS_PIN_STS_TRIP 0

/-- A WARM ends when the last of its causes has ended (R460), and not while the device is too hot (R414); a life-cycle change is then reported (R453). -/
def State.endWarm (s : State) : State :=
  if s.boot.phase = .warm ∧ s.boot.warmN = true ∧ s.boot.warmCause = false ∧ s.boot.hotWait = false then
    let s := { s with boot := { s.boot with phase := .starting } }
    match s.sec.owedLc with
    | some (o, n) => ({ s with sec := { s.sec with owedLc := none } }).ev 0x0D01 0x01 (o + n <<< 4)
    | none => s
  else s

/-! ### Links (R339, R340, R356, R463) -/

/-- The link that holds a lane (R339, R356). -/
def State.laneLink (s : State) (lane : Nat) : LinkRef :=
  if lane < 16 then
    let p := lane / 4
    let k := match s.g (Reg.FH_Pp_CFG_MODE p) with
      | 0 => 0
      | 1 => lane % 4 / 2
      | _ => lane % 4
    .fh (Fin.ofNat 16 (4 * p + k))
  else if lane < 32 then .rz (Fin.ofNat 4 ((lane - 16) / 4))
  else .mg

/-- The lanes of a link. -/
def State.linkLanes (s : State) (l : LinkRef) : List (Fin 33) := (List.finRange 33).filter (fun i => decide (s.laneLink i = l))

/-- Whether a link is up. -/
def State.linkUp (s : State) : LinkRef → Bool
  | .fh l => (s.g (Reg.FH_Pp_STS_LINK_UP (l.val / 4))).testBit (l.val % 4)
  | .rz p => s.on (Reg.RZ_Pp_STS_UP p)
  | .mg => s.mg.up

/-- A rhizome port goes up or down (R360, R379, R380): EV_RZ_LINK; on the pair port a loss makes a standby take over when LTO is 1, and link-up gives the configured role. -/
def State.rzLink (s : State) (p : Fin 4) (up : Bool) (cause : Nat) : State :=
  let role := s.g (Reg.RZ_Pp_STS_ROLE p)
  let s := s.p (Reg.RZ_Pp_STS_UP p) (b2n up)
  let s := s.ev 0x0907 0x08 (p.val + b2n up <<< 2 + cause <<< 4)
  if role ≠ 3 then s
  else if up then
    let was := s.on Reg.RZ_PAIR_STS_ACTIVE
    ({ s with pair := { s.pair with was := was, silent := 0, peer := [] } }).p Reg.RZ_PAIR_STS_ACTIVE (b2n (was || !s.pairByte.testBit 2))
  else if s.on Reg.RZ_GRP_CFG_LTO && s.pairByte.testBit 1 && !s.on Reg.RZ_PAIR_STS_ACTIVE then
    { s with pair := { s.pair with due := some 3 } }
  else s

/-- A link changes state: its register and its event (R340, R360; MG has neither). -/
def State.setLink (s : State) (l : LinkRef) (up : Bool) : State :=
  if s.linkUp l == up then s
  else match l with
    | .fh l =>
      let p := l.val / 4
      let v := s.g (Reg.FH_Pp_STS_LINK_UP p)
      let m := 1 <<< (l.val % 4)
      (s.p (Reg.FH_Pp_STS_LINK_UP p) (if up then v ||| m else v - m)).ev 0x0802 0x07 (l.val + b2n up <<< 4)
    | .rz p => s.rzLink p up 0
    | .mg => { s with mg := { s.mg with up := up } }

/-- Whether no lane of a link is retired (R424). -/
def State.linkInUse (s : State) (l : LinkRef) : Bool :=
  (s.linkLanes l).all (fun i => !(s.g Reg.FLT_LANE_RET).testBit i.val)

end Sys2Proof.Machine
end

