-- ==== Sys2Proof/Machine/PowerOps.lean ====
section
/-!
DEFINITION. Power operations that several chapters use (15): the effective cap (R406), the job order (R325), shedding and restoring (R337, R410, R411), entering HOLD, KEEP and RUN (R412), the trip (R414).
-/
namespace Sys2Proof.Machine

open Sys2Proof (Byte Word)

/-- The effective cap C in 0.125 W (R406): the lowest of PWR_CAP, LIM while CAPLIM_N is asserted, and the thermal cap; never below 120 W. -/
def State.effCap (s : State) : Nat :=
  let c := 4 * s.g Reg.PWR_CAP
  let c := if s.boot.caplimN then c else min c (4 * s.g Reg.PWR_CAP_CFG_LIM)
  let c := match s.pwr.therm with | some t => min c t | none => c
  max c 960

/-- PWR_EFF_CAP shows C; a restore test that the new C no longer meets starts again, and one that it meets starts now (R411). -/
def State.setCap (s : State) : State :=
  let c := s.effCap
  let s := s.p Reg.PWR_EFF_CAP c
  match s.pwr.sheds with
  | [] => s
  | (_, sv) :: _ =>
    let ok := decide (s.pwr.avg + sv < c)
    { s with pwr := { s.pwr with restAt := if ok then (match s.pwr.restAt with | some t => some t | none => some s.pwr.clock) else none } }

/-- The rank of a job in the job order (R325): background first, then real-time by ascending PRIO, higher number first, the protected job last. -/
def State.orderKey (s : State) (j : Nat) : Nat :=
  let b := (s.job j).bind
  100000 * b2n b.prot + 10000 * b2n (!b.kind) + 100 * b.prio + (15 - j)

/-- A number inserted in a list by a key, ascending. -/
def insertBy (k : Nat → Nat) (x : Nat) : List Nat → List Nat
  | [] => [x]
  | y :: ys => if k x ≤ k y then x :: y :: ys else y :: insertBy k x ys

/-- A list of numbers sorted by a key. -/
def sortBy (k : Nat → Nat) (l : List Nat) : List Nat := l.foldr (insertBy k) []

/-- The jobs in job order (R325). -/
def State.jobOrder (s : State) : List Nat := sortBy s.orderKey s.jobNums

/-- The protected job (R319). -/
def State.protJob (s : State) : Option Nat := s.jobNums.find? (fun j => (s.job j).bind.prot)

/-- The banks of a job, system banks apart. -/
def State.jobBanks (s : State) (j : Nat) : List Nat :=
  (bitsOn 24 (s.job j).bind.channels.toNat).flatMap (fun c => (channelBanks c).filter (fun b => !s.sysBank b))

/-- Shedding a job (R337): it stops and discards its work, its banks enter RETENTION, it shows SHED. -/
def State.shedJob (s : State) (j : Nat) : State :=
  let s := (s.stopJob j).setJst j 4
  let s := s.modJob j (fun x => { x with restart := none })
  let s := (s.jobBanks j).foldl (fun t b => if t.bank b = 1 then t.setBank b 2 else t) s
  let s := s.ringLeave j
  ((s.p Reg.PWR_STS_SHED (s.g Reg.PWR_STS_SHED ||| 1 <<< j)).inc Reg.PWR_SHED_CNT)

/-- JOB_SHED or CAP_UNATTAINABLE (R410): the decision at the floor. -/
def State.floorDecision (s : State) : State :=
  let s := { s with pwr := { s.pwr with floorAt := some s.pwr.clock } }
  match s.jobOrder.find? (fun j => !(s.job j).bind.prot && (s.jst j == 1 || s.jst j == 2 || s.jst j == 3)) with
  | some j =>
    let s := s.shedJob j
    { s with pwr := { s.pwr with sheds := (j, 0) :: s.pwr.sheds, measure := some (j, s.pwr.p), restAt := none } }
  | none =>
    if s.pwr.hold then s
    else
      let prot := s.protJob
      let s := { s with pwr := { s.pwr with hold := true, okAt := none } }
      let s := ((s.p Reg.PWR_STS_ALARM 1).p Reg.SYS_PIN_STS_CAP_ALARM 1).alarm 0
      s.ev 0x0B01 0x03 (s.pwr.p + s.effCap <<< 16 + (prot.getD 0) <<< 32 + b2n prot.isSome <<< 36)

/-- JOB_RESTORE (R411): the job shed last restarts once the average has stayed below C less its saving for 100 ms. -/
def State.restoreTest (s : State) : State :=
  match s.pwr.sheds with
  | [] => s
  | (j, sv) :: rest =>
    if s.pwr.measure.isSome then s
    else
      let ok := decide (s.pwr.avg + sv < s.effCap)
      let since := match s.pwr.restAt with | some t => t | none => s.pwr.clock
      let s := { s with pwr := { s.pwr with restAt := if ok then some since else none } }
      if ok && decide (s.pwr.clock - since ≥ 10000) then
        let s := { s with pwr := { s.pwr with sheds := rest, restAt := none } }
        let s := s.p Reg.PWR_STS_SHED (s.g Reg.PWR_STS_SHED - 1 <<< j)
        ((s.setJst j 1).ev 0x0B03 0x03 j).askRestart j none false false
      else s

/-- The alarm clears once the average has been at or below C for 1 ms (R411). -/
def State.alarmTest (s : State) : State :=
  if !s.pwr.hold then s
  else if s.pwr.avg > s.effCap then { s with pwr := { s.pwr with okAt := none } }
  else
    let since := match s.pwr.okAt with | some t => t | none => s.pwr.clock
    if s.pwr.clock - since ≥ 100 then
      let s := { s with pwr := { s.pwr with hold := false, okAt := none } }
      (s.p Reg.PWR_STS_ALARM 0).p Reg.SYS_PIN_STS_CAP_ALARM 0
    else { s with pwr := { s.pwr with okAt := some since } }

/-! ### Power states (R412 to R414) -/

/-- Real-time jobs that stop with the device: those that run or restart. -/
def State.stopRealTime (s : State) : State :=
  (s.jobNums.filter (fun j => !(s.job j).bind.kind && (s.jst j == 1 || s.jst j == 3))).foldl (fun t j => t.stopJob j) s

/-- Banks in use enter RETENTION (R307). -/
def State.retainBanks (s : State) : State :=
  { s with mems := { s.mems with bank := s.mems.bank.map (fun (e : Nat × Nat) => if e.2 = 1 then (e.1, 2) else e), resv := [] } }

/-- Memory that a predicate on addresses does not keep is lost. -/
def State.loseMem (s : State) (keep : Nat → Bool) : State :=
  { s with mem := sfilter keep s.mem, poison := s.poison.filter keep }

/-- Whether an address lies in a frond's leaf store or signal-core memory. -/
def isFrondMem (a : Nat) : Bool := decide (0x0200000000 ≤ a ∧ a < 0x0206000000)

/-- Memories in KEEP (R307): granary by GRN_KEEP, leaf stores and signal-core memories lost, loft cache empty. -/
def State.keepMems (s : State) : State :=
  let s := s.loseMem (fun a => !isFrondMem a)
  let s := { s with fronds := Vector.replicate 6 Frond.idle, mems := { s.mems with loft := [] } }
  if s.g Reg.GRN_KEEP = 1 then
    let sys := s.mems.bank.filter (fun (e : Nat × Nat) => s.sysBank e.1 || e.2 = 3)
    let s := s.loseMem (fun a => !(decide (grnBase ≤ a ∧ a < grnBase + 0x10000000)) || s.sysBank ((a - grnBase) / 0x40000))
    ({ s with mems := { s.mems with bank := sys } }).retainBanks
  else s.retainBanks

/-- Every link goes down: ports are off in KEEP (R412). -/
def State.portsOff (s : State) : State :=
  let s := (List.finRange 16).foldl (fun t l => t.setLink (.fh l) false) s
  let s := (List.finRange 4).foldl (fun t p => t.setLink (.rz p) false) s
  (s.setLink .mg false)

/-- HOLD is entered (R307, R412): the event of the completed transition finds the ring's bank in RETENTION and is held (R38). -/
def State.enterHold (s : State) (cause : Nat) : State :=
  let old := s.g Reg.PWR_STS_STATE
  let s := { s with pwr := { s.pwr with trans := none } }
  (s.retainBanks.p Reg.PWR_STS_STATE 1).ev 0x0B06 0x03 (old + 1 <<< 2 + cause <<< 4)

/-- KEEP is entered (R307, R412, R450): a session closes, the loft cache is written back unless the device tripped, memories follow R307, ports go down and CAP_ALARM_N is released (R464). -/
def State.enterKeep (s : State) (cause : Nat) : State :=
  let old := s.g Reg.PWR_STS_STATE
  let s := { s with pwr := { s.pwr with trans := none } }
  let s := s.closeDebug (if cause = 3 then 5 else 4)
  let s := if cause = 3 then s.loftDrop else s.loftFlush (fun _ => true)
  let s := ((s.portsOff.keepMems).p Reg.PWR_STS_STATE 2).p Reg.SYS_PIN_STS_CAP_ALARM 0
  s.ev 0x0B06 0x03 (old + 2 <<< 2 + cause <<< 4)

/-- Banks in use are ON again, each wake counted (R306); a bank that was OFF and comes into use is zero (R305, R412). -/
def State.wakeBanks (s : State) : State :=
  let s := (List.range 1024).foldl (fun t b => t.wakeBank b) s
  (s.jobNums.flatMap s.jobBanks).foldl (fun t b => if t.bank b = 0 then t.setBank b 1 else t) s

/-- RUN is entered (R412): banks wake; from HOLD background jobs go on where they stopped and real-time jobs restart, from KEEP every job that is not SHED or FAILED restarts; held events go to the ring (R38); CAP_ALARM_N follows the alarm again (R464). -/
def State.enterRun (s : State) (cause : Nat) : State :=
  let old := s.g Reg.PWR_STS_STATE
  let s := { s with pwr := { s.pwr with trans := none, wake := none } }
  let s := ((s.wakeBanks).p Reg.PWR_STS_STATE 0).flushHold
  let s := ({ s with boot := { s.boot with runAt := s.ticks } }).p Reg.SYS_PIN_STS_CAP_ALARM (s.g Reg.PWR_STS_ALARM)
  let s := s.ev 0x0B06 0x03 (old + cause <<< 4)
  (s.jobNums.filter (fun j => (old == 2 || !(s.job j).bind.kind) && (s.jst j == 1 || s.jst j == 2 || s.jst j == 3))).foldl
    (fun t j => t.askRestart j none false false) s

/-- The first unit of a frond that still holds a non-preemptible unit, or a signal core that is not at a boundary where it can be held (R327). -/
def State.busyUnit (s : State) (f : Fin 6) : Option Nat :=
  let x := s.fr f
  if x.vec.run.isSome then some 1
  else if x.sig.toList.any (fun c => decide (c.di ≠ 0) || c.delay.isSome || c.atRep || c.shadow.isSome) then some 2
  else if x.thr.run.isSome then some 3
  else if x.streams.toList.any (fun t => !t.flight.isEmpty) then some 4
  else if !x.gens.isEmpty || x.arr.panes.toList.any (fun p => !p.queue.isEmpty || !p.ran.isEmpty) then some 0
  else none

/-- Whether a background job still has a unit in flight: it stops at a unit boundary only (R327, R412). -/
def State.bgBusy (s : State) : Bool :=
  (List.finRange 6).any (fun (f : Fin 6) =>
    match s.jobOf f.val with
    | some j => (s.job j).bind.kind && s.jst j == 1 && (s.busyUnit f).isSome
    | none => false)

/-- A transition starts (R412): leaving RUN, real-time jobs stop with DISCARDED reports. -/
def State.beginTrans (s : State) (target cause : Nat) : State :=
  let s := if target ≠ 0 ∧ s.g Reg.PWR_STS_STATE = 0 then s.stopRealTime else s
  { s with pwr := { s.pwr with trans := some ⟨target, cause⟩ } }

/-- THERMAL_TRIP (R414): every job stops, KEEP is entered at once without writing back the loft cache, TRIP_N is asserted. -/
def State.trip (s : State) (hot sensor : Nat) : State :=
  let s := s.jobNums.foldl (fun t j => t.stopJob j) s
  let s := { s with pwr := { s.pwr with tripped := true }, sec := { s.sec with zero := none } }
  let s := ((s.p Reg.SYS_PIN_STS_TRIP 1).alarm 2).ev 0x0B05 0x03 (hot + sensor <<< 16)
  s.enterKeep 3

end Sys2Proof.Machine
end

