-- ==== Sys2Proof/Machine/ThrCode.lean ====
section
/-!
DEFINITION. What a thresher computes (08 R243 to R258): LDPC and polar encoding and decoding, CRCs, scrambling and interleaving. CRC polynomials, the Gold sequence and the interleavers are those of the clauses of 3GPP TS 38.212 and TS 38.211 that R243, R247 and R253 name (PRESUMED, log 25).
-/
namespace Sys2Proof.Machine

open Sys2Proof (Byte Word)

/-! ### Bits -/

/-- The bits of bytes, least significant first within each byte (R242). -/
def lsbBits (bs : List Byte) : List Bool := bs.flatMap (fun b => (List.range 8).map (fun i => b.getLsbD i))

/-- Bits packed into bytes, least significant first; the last byte is filled with zeros (R242). -/
def packLsb : Nat → List Bool → List Byte
  | 0, _ => []
  | n + 1, l => if l.isEmpty then [] else BitVec.ofNat 8 ((l.take 8).zipIdx.foldl (fun (a : Nat) e => a + b2n e.1 <<< e.2) 0) :: packLsb n (l.drop 8)

/-- The low `w` bits of a number, most significant first. -/
def msbBits (w v : Nat) : List Bool := (List.range w).map (fun i => v.testBit (w - 1 - i))

/-- `n` bits of the length-31 Gold sequence from the states of its two registers. -/
def goldRun : Nat → Nat → Nat → List Bool
  | 0, _, _ => []
  | n + 1, x, y =>
    (x.testBit 0 != y.testBit 0) ::
      goldRun n (x / 2 + b2n (x.testBit 3 != x.testBit 0) <<< 30)
        (y / 2 + b2n ((y.testBit 3 != y.testBit 2) != (y.testBit 1 != y.testBit 0)) <<< 30)

/-- The scrambling sequence c(0) to c(n - 1) for an initial value (R243). -/
def gold (cinit n : Nat) : List Bool := (goldRun (1600 + n) 1 (cinit % 2 ^ 31)).drop 1600

/-- Length and low bits of a CRC polynomial: TB CRC24A or CRC16, code block CRC24B, polar CRC24C, CRC11, CRC6 (R243, R249, R253). -/
def crc24a : Nat × Nat := (24, 0x864CFB)
/-- See `crc24a`. -/
def crc24b : Nat × Nat := (24, 0x800063)
/-- See `crc24a`. -/
def crc24c : Nat × Nat := (24, 0xB2B117)
/-- See `crc24a`. -/
def crc16 : Nat × Nat := (16, 0x1021)
/-- See `crc24a`. -/
def crc11 : Nat × Nat := (11, 0x621)
/-- See `crc24a`. -/
def crc6 : Nat × Nat := (6, 0x21)

/-- Bits with their CRC attached. -/
def withCrc (c : Nat × Nat) (l : List Bool) : List Bool := l ++ msbBits c.1 (crcMsb c.1 c.2 l)

/-- Whether the last bits are the CRC of those before them. -/
def crcOkBits (c : Nat × Nat) (l : List Bool) : Bool :=
  l.drop (l.length - c.1) == msbBits c.1 (crcMsb c.1 c.2 (l.take (l.length - c.1)))

/-! ### Parameters (R243) and graphs (R245, R246) -/

/-- The fields of a DECODE or ENCODE field (R243). -/
structure CodeParam where
  code  : Nat
  graph : Nat
  rv    : Nat
  tbcrc : Nat
  iter  : Nat
  z     : Nat
  ibil  : Bool
  tbs   : Nat
  c     : Nat
  cinit : Nat
  scr   : Bool
  deriving DecidableEq, Repr

/-- The parameters that 16 bytes spell (R243): GRAPH or PCRC in `graph`, Z or NLOG2 in `z`. -/
def codeParam (p : List Byte) : CodeParam :=
  let polar := bits (byteAt p 0) 0 2 == 1
  { code := bits (byteAt p 0) 0 2, graph := bits (byteAt p 0) 2 3, rv := bits (byteAt p 1) 0 2, tbcrc := bits (byteAt p 1) 2 1,
    iter := bits (byteAt p 1) 3 5, z := if polar then bits (le p 2 2) 0 4 else bits (le p 2 2) 0 9, ibil := bit (le p 2 2) 4,
    tbs := le p 4 3, c := byteAt p 7, cinit := le p 12 4 % 2 ^ 31, scr := bit (le p 12 4) 31 }

/-- Whether 16 bytes break the table of R243; `enc` for the ENCODE field of a transmit entry. -/
def paramBad (enc : Bool) (p : List Byte) : Bool :=
  let q := codeParam p
  !zeroRange p 8 4 || bits (byteAt p 0) 5 3 != 0 ||
    (match q.code with
     | 0 => decide (20 < q.iter) || (enc && q.iter != 0) || bits (le p 2 2) 9 7 != 0 || decide (q.z < 2 ∨ 384 < q.z) ||
         decide (q.tbs < 24) || q.c == 0
     | 1 => decide (2 < q.graph) || byteAt p 1 != 0 || bits (le p 2 2) 5 11 != 0 || decide (q.z < 5 ∨ 10 < q.z) ||
         decide (q.tbs < 1 ∨ 1000 < q.tbs) || q.c != 1
     | _ => true)

/-- An entry of a graph (R245): row, column, shift, edge class. -/
structure GEntry where
  row : Nat
  col : Nat
  sh  : Nat
  cls : Nat
  deriving DecidableEq, Repr

/-- A graph record (R245). -/
structure Graph where
  rows  : Nat
  cols  : Nat
  kb    : Nat
  punct : Nat
  k0n   : List Nat
  k0d   : Nat
  ents  : List GEntry
  deriving DecidableEq, Repr

/-- Graph `g` of a thresher tables section, none when it is not loaded (R245). -/
def graphOf (bs : List Byte) (g : Nat) : Option Graph :=
  if g ≥ le bs 0 2 then none
  else
    let r := bs.drop (le bs (12 + 4 * g) 4)
    some { rows := byteAt r 0, cols := byteAt r 1, kb := byteAt r 2, punct := byteAt r 3,
           k0n := (List.range 4).map (fun i => byteAt r (6 + i)), k0d := byteAt r 10,
           ents := (List.range (le r 4 2)).map (fun i =>
             let w := le r (16 + 4 * i) 4
             (⟨bits w 0 7, bits w 7 7, bits w 14 9, bits w 23 6⟩ : GEntry)) }

/-- The entries of a row, with their shifts for a lifting size (R245). -/
def Graph.row (g : Graph) (z r : Nat) : List GEntry := (g.ents.filter (fun e => e.row == r)).map (fun e => { e with sh := e.sh % z })

/-- Whether a graph is encodable at a lifting size (R246). -/
def Graph.encodable (g : Graph) (z : Nat) : Bool :=
  let top := g.ents.filter (fun e => decide (e.row < 4))
  let sum := fun (c : Nat) =>
    let l := (top.filter (fun e => e.col == g.kb + c)).map (fun e => e.sh % z)
    l.eraseDups.filter (fun x => l.count x % 2 == 1)
  let live := ((List.range 4).map sum).filter (fun l => !l.isEmpty)
  top.all (fun e => decide (e.col < g.kb + 4)) && decide (live.length = 1) && live.all (fun l => decide (l.length = 1)) &&
    (List.range g.rows).all (fun r => decide (r < 4) ||
      ((g.ents.filter (fun e => e.row == r && decide (g.kb + 4 ≤ e.col))).map (fun e => (e.col, e.sh % z))) == [(g.kb + r, 0)])

/-- Bits of the transport block CRC (R244). -/
def CodeParam.ltb (q : CodeParam) : Nat := if q.tbcrc = 1 then 16 else 24

/-- Bits of the code block CRC (R244). -/
def CodeParam.lcb (q : CodeParam) : Nat := if q.c > 1 then 24 else 0

/-- K′ (R244): bits of a code block with its CRC. -/
def CodeParam.kp (q : CodeParam) : Nat := (q.tbs + q.ltb) / q.c + q.lcb

/-- CRC of a polar payload (R243). -/
def CodeParam.pcrc (q : CodeParam) : Nat × Nat := if q.graph = 0 then crc24c else if q.graph = 1 then crc11 else crc6

/-- Whether parameters break R244 for G coded bits, with the graph they name (none: not loaded, which R244 forbids too). -/
def ruleBad (q : CodeParam) (gr : Option Graph) (g qm layers : Nat) : Bool :=
  if q.code = 1 then
    let k := q.tbs + q.pcrc.1
    decide (k > 2 ^ q.z ∨ g < k ∨ g > 8192)
  else match gr with
    | none => true
    | some x => (q.tbs + q.ltb) % q.c != 0 || decide (q.kp > x.kb * q.z) || g % (qm * layers) != 0

/-! ### Rate matching (R247, R258) -/

/-- Length of the circular buffer (R247). -/
def Graph.ncb (g : Graph) (z : Nat) : Nat := (g.cols - g.punct) * z

/-- Start of the circular buffer (R247). -/
def Graph.k0 (g : Graph) (z rv : Nat) : Nat := g.k0n.getD rv 0 * g.ncb z / (g.k0d * z) * z

/-- E_r of block r (R247). -/
def blockBits (g qm layers c r : Nat) : Nat :=
  let a := g / (qm * layers)
  if r < c - a % c then qm * layers * (a / c) else qm * layers * ceilDiv a c

/-- Positions of the codeword that the circular buffer holds from a start on, fillers left out (R247): K′ bits are not fillers. -/
def Graph.circ (g : Graph) (z kp k0 : Nat) : List Nat :=
  ((List.range (g.ncb z)).map (fun i => g.punct * z + (k0 + i) % g.ncb z)).filter (fun p => !decide (kp ≤ p ∧ p < g.kb * z))

/-- The bit interleaver with QM rows (R247): bit i × E / QM + j goes to j × QM + i. -/
def interleave {α : Type} (d : α) (qm : Nat) (l : List α) : List α :=
  let a := l.toArray
  (List.range l.length).map (fun k => a.getD (k % qm * (l.length / qm) + k / qm) d)

/-- Its inverse. -/
def deinterleave {α : Type} (d : α) (qm : Nat) (l : List α) : List α :=
  let a := l.toArray
  let n := l.length / qm
  (List.range l.length).map (fun k => a.getD (k / n + k % n * qm) d)

/-- A 12-bit sum, saturating at ±2,047 (R247, R248). -/
def sat12 (x : Int) : Int := clampI (-2047) 2047 x

/-- LLRs added into a codeword at positions, wrapping onto the first position after the last (R247). -/
def addAt (pos : Array Nat) (llr : List Int) (app : Array Int) : Array Int :=
  llr.zipIdx.foldl (fun (a : Array Int) e =>
    let p := pos.getD (e.2 % pos.size) 0
    a.setIfInBounds p (sat12 (a.getD p 0 + e.1))) app

/-- The APP values of a code block before decoding (R247): fillers hold +2,047, everything that receives no LLR holds 0. -/
def Graph.recover (g : Graph) (q : CodeParam) (qm : Nat) (llr : List Int) : Array Int :=
  let app := ((List.range (g.cols * q.z)).map (fun p => if q.kp ≤ p ∧ p < g.kb * q.z then (2047 : Int) else 0)).toArray
  addAt (g.circ q.z q.kp (g.k0 q.z q.rv)).toArray (deinterleave 0 qm llr) app

/-! ### LDPC decoding (R248 to R250) -/

/-- An edge-class table: OFFSET and SCALE by class (R245). -/
abbrev EdgeTable := List (Nat × Nat)

/-- Position of the APP value that an entry meets in lane `i` of its layer: entry (i, (i + shift) mod Z) of its circulant (DEDUCED, log 25). -/
def GEntry.pos (e : GEntry) (z i : Nat) : Nat := e.col * z + (i + e.sh) % z

/-- Smallest of a list of magnitudes. -/
def minMag : List Nat → Nat
  | [] => 0
  | a :: l => l.foldl min a

/-- New check messages of one lane of a layer (R248), from the values t and classes of its entries. -/
def checkNode (et : EdgeTable) (ts : List (Int × Nat)) : List Int :=
  let mags := ts.map (fun e => e.1.natAbs)
  let m1 := minMag mags
  let i1 := mags.findIdx (fun m => m == m1)
  let m2 := minMag (mags.eraseIdx i1)
  let neg := ts.countP (fun e => decide (e.1 < 0)) % 2 == 1
  ts.zipIdx.map (fun e =>
    let m := if e.2 = i1 then m2 else m1
    let c := et.getD e.1.2 (0, 0)
    let mag := clampI 0 127 ((rneShift (m * c.2) 7 : Int) - c.1)
    if neg != decide (e.1.1 < 0) then -mag else mag)

/-- One lane of one layer: APP values and the messages of that lane before and after. -/
def laneStep (et : EdgeTable) (es : List GEntry) (z i : Nat) (app : Array Int) (msg : List Int) : Array Int × List Int :=
  let ts := es.zipIdx.map (fun e => (sat12 (app.getD (e.1.pos z i) 0 - msg.getD e.2 0), e.1.cls))
  let new := checkNode et ts
  ((es.zip (ts.zip new)).foldl (fun (a : Array Int) e => a.setIfInBounds (e.1.pos z i) (sat12 (e.2.1.1 + e.2.2))) app, new)

/-- One layer over its Z lanes. -/
def layerStep (et : EdgeTable) (g : Graph) (z r : Nat) (x : Array Int × Array (List Int)) : Array Int × Array (List Int) :=
  (List.range z).foldl (fun (x : Array Int × Array (List Int)) i =>
    let o := laneStep et (g.row z r) z i x.1 (x.2.getD (r * z + i) [])
    (o.1, x.2.setIfInBounds (r * z + i) o.2)) x

/-- Whether the hard decisions meet the rows that run (R249). -/
def syndromeZero (g : Graph) (z nl : Nat) (app : Array Int) : Bool :=
  (List.range nl).all (fun r =>
    let es := g.row z r
    (List.range z).all (fun i => es.countP (fun e => decide (app.getD (e.pos z i) 0 < 0)) % 2 == 0))

/-- Iterations (R248, R249): APP values at the end, iterations run, whether the block stopped early. -/
def ldpcIter (et : EdgeTable) (g : Graph) (z nl : Nat) : Nat → Nat → Array Int × Array (List Int) → Array Int × (Nat × Bool)
  | 0, n, x => (x.1, n, false)
  | k + 1, n, x =>
    let x := (List.range nl).foldl (fun (x : Array Int × Array (List Int)) r => layerStep et g z r x) x
    if syndromeZero g z nl x.1 then (x.1, n + 1, true) else ldpcIter et g z nl k (n + 1) x

/-- Layers that run (R248). -/
def Graph.layers (g : Graph) (q : CodeParam) (e : Nat) : Nat :=
  let k0 := g.k0 q.z q.rv
  if k0 + e ≤ g.ncb q.z then min g.rows (max 4 (g.punct + ceilDiv (k0 + e) q.z - g.kb)) else g.rows

/-- What a thresher computes of a transport block. -/
structure ThrOut where
  out     : List Bool
  pass    : Bool
  blocks  : Nat
  iterSum : Nat
  iterMax : Nat
  early   : Nat
  cbFail  : Nat
  erased  : Nat
  deriving DecidableEq, Repr

/-- One code block decoded (R247 to R250) and added to what the block has so far: its bits less the code block CRC. -/
def Graph.decodeBlock (g : Graph) (q : CodeParam) (et : EdgeTable) (qm iters : Nat) (llr : List Int) (o : ThrOut) : ThrOut :=
  if llr.all (fun x => x == 0) then
    { o with out := o.out ++ List.replicate (q.kp - q.lcb) false, erased := o.erased + 1, pass := false }
  else
    let nl := g.layers q llr.length
    let r := ldpcIter et g q.z nl iters 0 (g.recover q qm llr, (List.replicate (g.rows * q.z) ([] : List Int)).toArray)
    let hard := (List.range q.kp).map (fun i => decide (r.1.getD i 0 < 0))
    let bad := q.c > 1 && !crcOkBits crc24b hard
    { o with out := o.out ++ hard.take (q.kp - q.lcb), blocks := o.blocks + 1, iterSum := o.iterSum + r.2.1, iterMax := max o.iterMax r.2.1,
             early := o.early + b2n r.2.2, cbFail := o.cbFail + b2n bad }

/-- The code blocks of an allocation in order, each with its share of the LLRs (R247). -/
def Graph.decodeBlocks (g : Graph) (q : CodeParam) (et : EdgeTable) (gb qm layers iters : Nat) : Nat → List Int → ThrOut → ThrOut
  | 0, _, o => o
  | n + 1, llr, o =>
    let e := blockBits gb qm layers q.c (q.c - 1 - n)
    g.decodeBlocks q et gb qm layers iters n (llr.drop e) (g.decodeBlock q et qm iters (llr.take e) o)

/-- LLRs descrambled (R247). -/
def descramble (q : CodeParam) (llr : List Int) : List Int :=
  if q.scr then (llr.zip (gold q.cinit llr.length)).map (fun e => if e.2 then -e.1 else e.1) else llr

/-- DECODE of an LDPC transport block (R247 to R250). -/
def Graph.decodeTb (g : Graph) (q : CodeParam) (et : EdgeTable) (qm layers iters : Nat) (llr : List Int) : ThrOut :=
  let o := g.decodeBlocks q et llr.length qm layers iters q.c (descramble q llr) ⟨[], true, 0, 0, 0, 0, 0, 0⟩
  let crc := if q.tbcrc = 1 then crc16 else crc24a
  { o with out := o.out.take q.tbs, pass := o.pass && crcOkBits crc o.out }

/-! ### LDPC encoding (R246, R258) -/

/-- Whether the sum of a row's known columns is 1 in lane `i`. -/
def laneSum (es : List GEntry) (z i : Nat) (w : Array Bool) : Bool := es.countP (fun e => w.getD (e.pos z i) false) % 2 == 1

/-- Forward step of an elimination over GF(2): rows are numbers whose bits are unknowns, with the right-hand side in bit `n`; the pivots found so far with their columns. -/
def gfReduce (n : Nat) : List Nat → List (Nat × Nat) → List (Nat × Nat)
  | [], piv => piv
  | r :: rs, piv =>
    let r := piv.foldl (fun (r : Nat) p => if r.testBit p.1 then r ^^^ p.2 else r) r
    match (List.range n).find? (fun c => r.testBit c) with
    | none => gfReduce n rs piv
    | some c => gfReduce n rs (piv.map (fun p => if p.2.testBit c then (p.1, p.2 ^^^ r) else p) ++ [(c, r)])

/-- The solution of a system over GF(2), none when it is not unique. -/
def gfSolve (n : Nat) (rows : List Nat) : Option (List Bool) :=
  let piv := gfReduce n rows []
  if piv.length < n then none
  else some ((List.range n).map (fun c => match piv.find? (fun p => p.1 == c) with | some p => p.2.testBit n | none => false))

/-- The core parities of a code block (R246): the four block columns from KB on that meet rows 0 to 3. -/
def Graph.core (g : Graph) (z : Nat) (sys : Array Bool) : Option (List Bool) :=
  gfSolve (4 * z) ((List.range 4).flatMap (fun r =>
    let es := g.row z r
    (List.range z).map (fun i =>
      let par := (es.filter (fun e => decide (g.kb ≤ e.col))).foldl (fun (m : Nat) e => m ^^^ (1 <<< (e.pos z i - g.kb * z))) 0
      par + b2n (laneSum (es.filter (fun e => decide (e.col < g.kb))) z i sys) <<< (4 * z))))

/-- The codeword of a code block of K bits on the full graph (R258); none where the core does not fix its parities. -/
def Graph.codeword (g : Graph) (z : Nat) (sys : List Bool) : Option (Array Bool) :=
  (g.core z sys.toArray).map (fun p =>
    let w := (sys ++ p).toArray
    ((List.range (g.rows - 4)).flatMap (fun k =>
      let es := (g.row z (k + 4)).filter (fun e => decide (e.col < g.kb + 4))
      (List.range z).map (fun i => laneSum es z i w))).foldl (fun (a : Array Bool) b => a.push b) w)

/-- The E_r bits of a code block (R258). -/
def Graph.encodeBlock (g : Graph) (q : CodeParam) (qm e : Nat) (bs : List Bool) : Option (List Bool) :=
  let full := if q.c > 1 then withCrc crc24b bs else bs
  (g.codeword q.z (full ++ List.replicate (g.kb * q.z - q.kp) false)).map (fun w =>
    let pos := (g.circ q.z q.kp (g.k0 q.z q.rv)).toArray
    interleave false qm ((List.range e).map (fun i => w.getD (pos.getD (i % pos.size) 0) false)))

/-- The code blocks of a transport block in order. -/
def Graph.encodeBlocks (g : Graph) (q : CodeParam) (gb qm layers : Nat) : Nat → List Bool → Option (List Bool)
  | 0, _ => some []
  | n + 1, l =>
    let k := q.kp - q.lcb
    match g.encodeBlock q qm (blockBits gb qm layers q.c (q.c - 1 - n)) (l.take k), g.encodeBlocks q gb qm layers n (l.drop k) with
    | some a, some b => some (a ++ b)
    | _, _ => none

/-- Coded bits scrambled (R243). -/
def scramble (q : CodeParam) (l : List Bool) : List Bool :=
  if q.scr then (l.zip (gold q.cinit l.length)).map (fun e => e.1 != e.2) else l

/-- ENCODE of an LDPC transport block of TBS bits (R258). -/
def Graph.encodeTb (g : Graph) (q : CodeParam) (gb qm layers : Nat) (tb : List Bool) : Option (List Bool) :=
  (g.encodeBlocks q gb qm layers q.c (withCrc (if q.tbcrc = 1 then crc16 else crc24a) tb)).map (scramble q)

/-! ### Polar codes (R253, R258) -/

/-- The polar table of a thresher tables section, none when it has none (R245): reliability sequence and sub-block interleaver. -/
def polarTable (bs : List Byte) : Option (List Nat × List Nat) :=
  let o := le bs 4 4
  if o = 0 then none
  else some ((List.range 1024).map (fun i => le bs (o + 2 * i) 2), (List.range 32).map (fun i => byteAt bs (o + 2048 + i)))

/-- The positions that carry payload and CRC, ascending: all but the least reliable below N (R253). -/
def infoSet (rel : List Nat) (n k : Nat) : List Nat :=
  let l := rel.filter (fun i => decide (i < n))
  let best := l.drop (l.length - k)
  (List.range n).filter (fun i => best.contains i)

/-- The polar transform of a block of 2^m bits. -/
def polarEnc : Nat → List Bool → List Bool
  | 0, l => l
  | m + 1, l =>
    let a := polarEnc m (l.take (2 ^ m))
    let b := polarEnc m (l.drop (2 ^ m))
    (a.zip b).map (fun e => e.1 != e.2) ++ b

/-- Coded position behind position i of the sub-block interleaved block. -/
def subBlock (pat : List Nat) (n i : Nat) : Nat := pat.getD (32 * i / n) 0 * (n / 32) + i % (n / 32)

/-- Interleaved block position that rate-matched position k carries: repetition, puncturing or shortening. -/
def polarSel (n k e i : Nat) : Nat := if e ≥ n then i % n else if 16 * k ≤ 7 * e then i + n - e else i

/-- The smallest T with T (T + 1) / 2 at least E. -/
def triT (e : Nat) : Nat := (List.range (e + 1)).find? (fun t => decide (e ≤ t * (t + 1) / 2)) |>.getD e

/-- Order in which the coded bit interleaver reads (TS 38.212 clause 5.4.1.3): written in rows, read in columns. -/
def triOrder (e : Nat) : List Nat :=
  let t := triT e
  (List.range t).flatMap (fun j => ((List.range (t - j)).map (fun i => i * t - i * (i - 1) / 2 + j)).filter (fun x => decide (x < e)))

/-- APP values of a polar codeword (R253): repeated positions add; shortened positions are known zeros and hold +2,047 (DEDUCED, log 25). -/
def polarRecover (pat : List Nat) (q : CodeParam) (llr : List Int) : List Int :=
  let n := 2 ^ q.z
  let k := q.tbs + q.pcrc.1
  let e := llr.length
  let y := if q.ibil then
      let a := ((triOrder e).zip llr).foldl (fun (a : Array Int) x => a.setIfInBounds x.1 x.2) (List.replicate e (0 : Int)).toArray
      a.toList
    else llr
  let short := decide (e < n) && !decide (16 * k ≤ 7 * e)
  let init := ((List.range n).map (fun i => if short && decide (e ≤ i) then (2047 : Int) else 0)).toArray
  let b := y.zipIdx.foldl (fun (a : Array Int) x =>
    let p := polarSel n k e x.2
    a.setIfInBounds p (sat12 (a.getD p 0 + x.1))) init
  let d := (List.range n).foldl (fun (a : Array Int) i => a.setIfInBounds (subBlock pat n i) (b.getD i 0)) (List.replicate n (0 : Int)).toArray
  d.toList

/-- The min-sum f (R253). -/
def polF (a b : Int) : Int := let m := min a.natAbs b.natAbs; if decide (a < 0) != decide (b < 0) then -(m : Int) else m

/-- APP of decision `i` of a block of 2^m values, given the decisions before it (R253). -/
def polApp : Nat → List Int → List Bool → Nat → Int
  | 0, l, _, _ => l.getD 0 0
  | m + 1, l, us, i =>
    let a := l.take (2 ^ m)
    let b := l.drop (2 ^ m)
    if i < 2 ^ m then polApp m ((a.zip b).map (fun e => polF e.1 e.2)) us i
    else
      let v := polarEnc m (us.take (2 ^ m))
      polApp m (((a.zip b).zip v).map (fun e => e.1.2 + (if e.2 then -e.1.1 else e.1.1))) (us.drop (2 ^ m)) (i - 2 ^ m)

/-- A path of the list decoder: metric and decisions. -/
structure PolPath where
  metric : Nat
  us     : List Bool
  deriving DecidableEq, Repr

/-- Insertion by metric behind equal metrics. -/
def insPath (p : PolPath) : List PolPath → List PolPath
  | [] => [p]
  | q :: l => if p.metric < q.metric then p :: q :: l else q :: insPath p l

/-- Paths by metric; equal metrics keep their order. -/
def sortPaths (l : List PolPath) : List PolPath := l.foldl (fun a p => insPath p a) []

/-- A path extended by a decision: |APP| is added for a decision against the APP sign (R253). -/
def PolPath.extend (m : Nat) (llr : List Int) (p : PolPath) (b : Bool) : PolPath :=
  let a := polApp m llr p.us p.us.length
  ⟨p.metric + (if b != decide (a < 0) then a.natAbs else 0), p.us ++ [b]⟩

/-- Decisions in order (R253): frozen positions are 0; at the others each path splits and the 8 of lowest metric survive, ties to the lower path number (DEDUCED for the splits, log 25). -/
def sclRun (m : Nat) (llr : List Int) (info : List Nat) : List Nat → List PolPath → List PolPath
  | [], ps => ps
  | i :: is, ps =>
    if info.contains i then
      let two := ps.flatMap (fun p => [p.extend m llr false, p.extend m llr true])
      sclRun m llr info is (if two.length ≤ 8 then two else (sortPaths two).take 8)
    else sclRun m llr info is (ps.map (fun p => p.extend m llr false))

/-- DECODE of a polar codeword (R253). -/
def polarDecode (tab : List Nat × List Nat) (q : CodeParam) (llr : List Int) : ThrOut :=
  if llr.all (fun x => x == 0) then ⟨List.replicate q.tbs false, false, 0, 0, 0, 0, 0, 1⟩
  else
    let n := 2 ^ q.z
    let info := infoSet tab.1 n (q.tbs + q.pcrc.1)
    let ps := sortPaths (sclRun q.z (polarRecover tab.2 q (descramble q llr)) info (List.range n) [⟨0, []⟩])
    let words := ps.map (fun p => let a := p.us.toArray; info.map (fun i => a.getD i false))
    match words.find? (fun w => crcOkBits q.pcrc w) with
    | some w => ⟨w.take q.tbs, true, 1, 0, 0, 0, 0, 0⟩
    | none => ⟨(words.headD []).take q.tbs, false, 1, 0, 0, 0, 0, 0⟩

/-- ENCODE of a polar payload into E coded bits (R253, R258). -/
def polarEncode (tab : List Nat × List Nat) (q : CodeParam) (e : Nat) (tb : List Bool) : List Bool :=
  let n := 2 ^ q.z
  let k := q.tbs + q.pcrc.1
  let u := ((infoSet tab.1 n k).zip (withCrc q.pcrc tb)).foldl (fun (a : Array Bool) x => a.setIfInBounds x.1 x.2) (List.replicate n false).toArray
  let d := (polarEnc q.z u.toList).toArray
  let y := ((List.range n).map (fun i => d.getD (subBlock tab.2 n i) false)).toArray
  let sel := (List.range e).map (fun i => y.getD (polarSel n k e i) false)
  scramble q (if q.ibil then let a := sel.toArray; (triOrder e).map (fun i => a.getD i false) else sel)

end Sys2Proof.Machine
end

