-- ==== Sys2Proof/Machine/StreamDesc.lean ====
section
/-!
DEFINITION. Stream descriptors (05): their fields (R133, R135, R140, R142, R147, R152, R154), the checks a descriptor allows on its own (R159, R164), and pass commands (R85).
-/
namespace Sys2Proof.Machine

open Sys2Proof (Byte Word DescInit GraphInfo)

/-- A field of a descriptor or pass command: `w` bits from bit `lo` of its 32 bytes. -/
def dfield (d : BitVec 256) (lo w : Nat) : Nat := bits d.toNat lo w

/-- One-bit field of a descriptor. -/
def dbit (d : BitVec 256) (lo : Nat) : Bool := d.toNat.testBit lo

/-- KIND (R133, R134). -/
def dKind (d : BitVec 256) : Nat := dfield d 0 4
/-- END (R133). -/
def dEnd (d : BitVec 256) : Bool := dbit d 4
/-- LBAR (R133). -/
def dLbar (d : BitVec 256) : Bool := dbit d 5
/-- WSEM (R133). -/
def dWsem (d : BitVec 256) : Nat := dfield d 8 11
/-- WSIDE (R133): true is FREE. -/
def dWside (d : BitVec 256) : Bool := dbit d 19
/-- WAIT_N (R133). -/
def dWaitN (d : BitVec 256) : Nat := dfield d 20 4
/-- PSEM (R133). -/
def dPsem (d : BitVec 256) : Nat := dfield d 24 11
/-- PSIDE (R133). -/
def dPside (d : BitVec 256) : Bool := dbit d 35
/-- POST_N (R133). -/
def dPostN (d : BitVec 256) : Nat := dfield d 36 4
/-- MCAST of an XFER (R142). -/
def dMcast (d : BitVec 256) : Nat := dfield d 76 6
/-- TARGET of a LINK, granary offset / 32 (R135). -/
def dTarget (d : BitVec 256) : Nat := dfield d 64 23
/-- REPEAT of a LINK (R135). -/
def dRepeat (d : BitVec 256) : Nat := dfield d 96 16
/-- MASK of a BARRIER (R140). -/
def dMask (d : BitVec 256) : Nat := dfield d 64 32
/-- BAR_ID of a BARRIER (R140). -/
def dBarId (d : BitVec 256) : Nat := dfield d 96 8

/-- The bits a descriptor of a kind must leave 0 (R133, R135, R140, R142, R147, R152, R154): lowest bit and width. -/
def dReserved (kind : Nat) : List (Nat × Nat) :=
  [(6, 2), (40, 24)] ++
  match kind with
  | 1 => [(82, 14), (116, 12), (148, 12)]
  | 2 => [(84, 12), (127, 1), (200, 56)]
  | 3 => [(94, 2), (104, 8), (158, 2), (177, 15), (222, 2), (241, 15)]
  | 4 => [(80, 16), (109, 147)]
  | 5 => [(64, 192)]
  | 6 => [(104, 152)]
  | 7 => [(87, 9), (112, 144)]
  | _ => []

/-- Whether a count or range field is outside its limit by the descriptor alone (R164 code 6). -/
def dRangeBad (d : BitVec 256) : Bool :=
  match dKind d with
  | 1 => dfield d 192 16 == 0 || dfield d 208 16 == 0 || dfield d 224 8 == 0
  | 2 => let kt := dfield d 96 16
         let nt := dfield d 112 8
         let foot := dfield d 192 8
         kt == 0 || decide (kt > 1024) || nt == 0 || decide (nt > 64) ||
           (if dbit d 83 then foot == 0 || decide (foot > 128) else foot != 0)
  | 4 => let c := dfield d 71 8
         c == 0 || decide (c > 128)
  | _ => false

/-- Whether a semaphore number is reserved (R137). -/
def semReserved (n : Nat) : Bool := decide (0x100 ≤ n ∧ n ≤ 0x3FF)

/-- The job that a granary pair is assigned to by the stream graph sections loaded (R137). -/
def State.semJob (s : State) (n : Nat) : Option Nat :=
  (List.range 16).find? (fun j => match s.graph j with
    | some g => g.granarySems.any (fun x => x.sem.toNat == n)
    | none => false)

/-- Whether a semaphore number is reserved or of another job (R137, R164 code 5). -/
def State.semBad (s : State) (j n : Nat) : Bool :=
  semReserved n || (decide (0x400 ≤ n) && (match s.semJob n with | some k => k != j | none => false))

/-- Whether a granary range lies in channels of a mask (R295, R317). -/
def inChannels (ch : BitVec 24) (off n : Nat) : Bool :=
  (List.range ((off % 0x40000 + n + 0x3FFFF) / 0x40000)).all (fun i =>
    decide (off / 0x40000 + i < 1024) && ch.getLsbD (bankChannel (off / 0x40000 + i)))

/-- R159 and R164, codes 1, 2, 5, 6, 10 and 11 as far as the descriptor alone shows them: the lowest code that applies, 0 for none. `str` is the local stream number when it is known, `ch` the granary channels of the job. -/
def State.descStatic (s : State) (j : Nat) (ch : Option (BitVec 24)) (str : Option Nat) (d : BitVec 256) : Nat :=
  let k := dKind d
  if k = 0 ∨ k > 7 then 1
  else if (dReserved k).any (fun r => dfield d r.1 r.2 != 0) then 2
  else if s.semBad j (dWsem d) || s.semBad j (dPsem d) then 5
  else if dRangeBad d then 6
  else if k == 6 && (match str with | some n => !(dMask d).testBit n | none => dMask d == 0) then 10
  else if k == 7 && (match ch with | some c => !inChannels c (32 * dTarget d) 32 | none => false) then 11
  else 0

/-- The 256 bits of 32 bytes in memory (R6). -/
def State.ld256 (s : State) (a : Nat) : BitVec 256 := BitVec.ofNat 256 (s.ldN a 32)

/-- The fields of a pass command (R85) with the stream and place that generated it. -/
def passOf (t : BitVec 256) (stream pos : Nat) : PassCmd :=
  { pane := dfield t 0 5, op := dfield t 5 3, fmtS := dfield t 8 4, fmtT := dfield t 12 4, newstat := dbit t 16, conjT := dbit t 17,
    transT := dbit t 18, accInc := dbit t 19, lastK := dbit t 20, stat := dfield t 32 23, strm := dfield t 64 23,
    pitch := dfield t 96 16, stride := dfield t 112 16, blocks := dfield t 128 16, tile := dfield t 144 7, mValid := dfield t 152 8,
    nValid := dfield t 160 8, kValid := dfield t 168 8, zpS := dfield t 176 8, zpT := dfield t 184 8, seq := dfield t 192 32,
    rsvd := dfield t 21 11 != 0 || dfield t 55 9 != 0 || dfield t 87 9 != 0 || dbit t 151 || dfield t 224 32 != 0, stream := stream, pos := pos }

/-- KT and NT of a loop descriptor. -/
def loopKT (d : BitVec 256) : Nat := dfield d 96 16
/-- See `loopKT`. -/
def loopNT (d : BitVec 256) : Nat := dfield d 112 8

/-- The last tile that the passes of a loop write (R149). -/
def loopLast (d : BitVec 256) (c : PassCmd) : Nat := c.tile + (loopNT d - 1) * dfield d 120 7 + (if c.accInc then c.blocks - 1 else 0)

/-- Whether a template breaks R149. -/
def tmplBad (d : BitVec 256) (c : PassCmd) : Bool :=
  let one := loopKT d == 1 && loopNT d == 1
  !(decide (c.op ≤ 1) || (decide (c.op ≤ 3) && one)) || !(c.newstat || one) || decide (loopLast d c > 127) ||
    (dbit d 83 && decide (loopLast d c ≥ c.tile + dfield d 192 8))

/-- The tiles that a loop claims (R147). -/
def loopClaim (d : BitVec 256) (c : PassCmd) : List Nat := if dbit d 83 then (List.range (dfield d 192 8)).map (· + c.tile) else []

/-- The places of the LINKs of a stream that a repeat of the LINK at a place runs through: from its TARGET up to it (R135). -/
def repeatSpan (d : BitVec 256) (place q : Nat) : Bool := decide (dTarget d ≤ q ∧ q < place)

/-- Whether a LINK with a repeat stands inside the repeat of another LINK of its stream (R135). -/
def nestedRepeat (l : List DescInit) (x : DescInit) : Bool :=
  dKind x.desc == 7 && dRepeat x.desc != 0 && l.any (fun y => y.frond == x.frond && y.stream == x.stream && dKind y.desc == 7 &&
    dRepeat y.desc != 0 && repeatSpan y.desc y.place.toNat x.place.toNat)

/-- R159 on one descriptor of a stream graph: stream error codes 1, 2, 5, 6, 10, 11 and 13; the lowest that applies, 0 for none. -/
def State.descLoad (s : State) (j : Nat) (ch : Option (BitVec 24)) (l : List DescInit) (x : DescInit) : Nat :=
  let c := passOf x.tmpl x.stream.val x.place.toNat
  let loop := dKind x.desc == 2
  let a := s.descStatic j ch (some x.stream.val) x.desc
  let b := if loop && (loopClaim x.desc c).any (fun t => decide (t ≥ 128)) then 6
    else if nestedRepeat l x then 11
    else if loop && tmplBad x.desc c then 13 else 0
  if a = 0 then b else if b = 0 then a else min a b

end Sys2Proof.Machine
end

