-- ==== Sys2Proof/Machine/Sem.lean ====
section
/-!
DEFINITION. Semaphore pairs (R137 to R139, R299): reading, posting, waiting, and posts by agents outside the stream engine.
-/
namespace Sys2Proof.Machine

open Sys2Proof (Byte Word)

/-- Device address of a granary pair's word (R299). -/
def State.semAddr (s : State) (k : Nat) : Nat := s.semBase + 4 * (k - 0x400)

/-- A counter of a semaphore pair as a frond sees it: local pairs below 0x100, granary pairs from 0x400 (R137). -/
def State.semGet (s : State) (f k : Nat) (free : Bool) : Nat :=
  if k < 0x100 then s.g (if free then Reg.STR_SEMs_FREE f k else Reg.STR_SEMs_FULL f k)
  else s.ldN (s.semAddr k + (if free then 2 else 0)) 2

/-- The state with a counter set. A granary pair is reached through the semaphore port, which wakes its bank (R299, R306). -/
def State.semSet (s : State) (f k : Nat) (free : Bool) (v : Nat) : State :=
  if k < 0x100 then s.p (if free then Reg.STR_SEMs_FREE f k else Reg.STR_SEMs_FULL f k) v
  else s.storeN (s.semAddr k + (if free then 2 else 0)) 2 v

/-- A post (R138): none when it would take the counter above 65,535; a count of 0 posts nothing. -/
def State.post (s : State) (f k : Nat) (free : Bool) (n : Nat) : Option State :=
  if n = 0 then some s
  else
    let v := s.semGet f k free + n
    if v > 65535 then none else some (s.semSet f k free v)

/-- A wait of a stream (R138): none while the counter is below the count; else the count is taken. -/
def State.semTake (s : State) (f k : Nat) (free : Bool) (n : Nat) : Option State :=
  if n = 0 then some s
  else
    let v := s.semGet f k free
    if v < n then none else some (s.semSet f k free (v - n))

end Sys2Proof.Machine
end

