-- ==== Sys2Proof/Machine/SpecialFn.lean ====
section
/-!
DEFINITION. Special functions (R180): the exact result cut to a format, and the results its bound allows. Where the bound leaves several, which of them is a free value of the operand (log 5).
-/
namespace Sys2Proof.Machine

/-- Largest r with r * r ≤ n, bit by bit from bit `k`. -/
def isqrtFrom : Nat → Nat → Nat → Nat
  | 0, _, r => r
  | k + 1, n, r => let c := r + 2 ^ k; isqrtFrom k n (if c * c ≤ n then c else r)

/-- Integer square root. -/
def isqrt (n : Nat) : Nat := isqrtFrom (Nat.log2 n / 2 + 1) n 0

/-- Magnitude code of m * 2^e cut toward zero, and whether bits were lost; beyond the range the largest finite code. -/
def FpFmt.cut (f : FpFmt) (m : Nat) (e : Int) : Nat × Bool :=
  if m = 0 then (0, false)
  else
    let emin : Int := 1 - f.bias
    let top : Int := (Nat.log2 m : Int) + e
    let q : Int := max (top - f.mb) (emin - f.mb)
    let u := if e ≥ q then m <<< (e - q).toNat else m >>> (q - e).toNat
    let lost := decide (e < q) && m % 2 ^ (q - e).toNat != 0
    if u < 2 ^ f.mb then (if f.flush then (0, false) else (u, lost))
    else
      let ec : Int := q + f.mb + f.bias
      if ec > f.topE ∨ (ec = f.topE ∧ u - 2 ^ f.mb > f.topM) then (f.maxCode false, false)
      else (ec.toNat <<< f.mb + (u - 2 ^ f.mb), lost)

/-- A result within `ulps` units in the last place of an exact value whose cut magnitude code is given: op, type and operand choose it. -/
def FpFmt.within (f : FpFmt) (ulps op ty x : Nat) (neg : Bool) (c : Nat × Bool) : Nat :=
  let mx := f.maxCode false
  let mn := if f.flush then 2 ^ f.mb else 0
  if c.1 = 0 ∨ (c.1 = mx ∧ c.2 = false) then b2n neg <<< (f.eb + f.mb) + c.1
  else
    let span := if c.2 then 2 * ulps else 2 * ulps + 1
    let low : Int := if c.2 then (c.1 : Int) - (ulps - 1 : Nat) else (c.1 : Int) - ulps
    let v := clampI mn mx (low + (Config.specialFn op ty x % span : Nat))
    b2n neg <<< (f.eb + f.mb) + v.toNat

/-- ln 2 times 2^128, cut. -/
def ln2x128 : Nat := 235865763225513294137944142764154484399

/-- exp of z * 2^-128 for z below 2^128, times 2^128, by its series. -/
def expSeries : Nat → Nat → Nat → Nat → Nat
  | 0, _, _, _ => 0
  | k + 1, n, z, t => t + expSeries k (n + 1) z (t * z / 2 ^ 128 / (n + 1))

/-- 2^x for a value: magnitude m * 2^e with 128 bits below the point, and whether it is exact. -/
def exp2Num (neg : Bool) (m : Nat) (e : Int) : Nat × Int × Bool :=
  -- x times 2^128, cut toward minus infinity; a remainder is kept as inexact
  let s := e + 128
  let a : Nat := if s ≥ 0 then m <<< s.toNat else m >>> (-s).toNat
  let rest := decide (s < 0) && m % 2 ^ (-s).toNat != 0
  let a : Int := if neg then (if rest then -(a : Int) - 1 else -(a : Int)) else a
  let n := a / (2 ^ 128 : Nat)
  let fr := (a % (2 ^ 128 : Nat)).toNat
  (expSeries 60 0 (fr * ln2x128 / 2 ^ 128) (2 ^ 128), n - 128, fr == 0 && !rest)

/-- Fraction bits of log2 of a mantissa in [1, 2) held with 128 bits below the point. -/
def log2Bits : Nat → Nat → Nat → Nat
  | 0, _, acc => acc
  | k + 1, y, acc =>
    let z := y * y / 2 ^ 128
    if z ≥ 2 ^ 129 then log2Bits k (z / 2) (2 * acc + 1) else log2Bits k z (2 * acc)

/-- log2 of m * 2^e: the value times 2^90, cut toward minus infinity, and whether it is exact. -/
def log2Num (m : Nat) (e : Int) : Int × Bool :=
  let t := Nat.log2 m
  let fr := log2Bits 90 (m <<< 128 >>> t) 0
  (((t : Int) + e) * (2 ^ 90 : Nat) + fr, m == 2 ^ t)

/-- RCP, RSQ, EXP2 and LOG2 on one code of a format (R180): `op` is the vector instruction's OP; zeros, negatives and NaN as R180 states, an infinity or RSQ of zero free. -/
def specialFn (f : FpFmt) (op ty x : Nat) : Nat :=
  let free := Config.specialFn op ty x % 2 ^ f.width
  match f.decode f.flush x with
  | .nan => f.nanCode
  | .inf _ => free
  | .fin neg m e =>
    match op with
    | 0x19 =>
      if m = 0 then f.maxCode neg
      else f.within 1 op ty x neg (let q := 2 ^ 200 / m; let c := f.cut (2 * q + (if 2 ^ 200 % m = 0 then 0 else 1)) (-e - 201); (c.1, c.2 || 2 ^ 200 % m != 0))
    | 0x1A =>
      if m = 0 then free
      else if neg then f.nanCode
      else
        let (m, e) := if e % 2 = 0 then (m, e) else (2 * m, e - 1)
        let n := 2 ^ 400 / m
        let r := isqrt n
        let exact := decide (2 ^ 400 % m = 0 ∧ r * r = n)
        f.within 1 op ty x false (let c := f.cut r (-e / 2 - 200); (c.1, c.2 || !exact))
    | 0x1B =>
      let (v, k, exact) := exp2Num neg m e
      f.within 2 op ty x false (let c := f.cut v k; (c.1, c.2 || !exact))
    | _ =>
      if m = 0 then f.maxCode true
      else if neg then f.nanCode
      else
        let (v, exact) := log2Num m e
        f.within 2 op ty x (decide (v < 0)) (let c := f.cut v.natAbs (-90); (c.1, c.2 || !exact))

end Sys2Proof.Machine
end

