-- ==== Sys2Proof/Machine/VecProg.lean ====
section
/-!
DEFINITION. Element programs (R173, R174, R176), vector commands (R169, R172) and port formats (R170).
-/
namespace Sys2Proof.Machine

open Sys2Proof (Byte Word VType VecOp)

/-- The element type of a TYPE code (R174). -/
def vtype : Nat → Option VType
  | 0 => some .int8
  | 1 => some .int16
  | 2 => some .int32
  | 3 => some .fp16
  | 4 => some .bf16
  | 5 => some .fp32
  | _ => none

/-- Bytes of an element type. -/
def vtBytes : VType → Nat
  | .int8 => 1
  | .int16 | .fp16 | .bf16 => 2
  | .int32 | .fp32 => 4

/-- The floating-point layout of an element type, none for an integer type. -/
def vtFp : VType → Option FpFmt
  | .fp16 => some fp16
  | .bf16 => some bf16
  | .fp32 => some fp32
  | _ => none

/-- Code of an element type. -/
def vtCode : VType → Nat
  | .int8 => 0
  | .int16 => 1
  | .int32 => 2
  | .fp16 => 3
  | .bf16 => 4
  | .fp32 => 5

/-- OP and fields of an instruction word (R174); none for a reserved OP or TYPE. -/
def vecDecode (w : Nat) : Option (Nat × VecOp) :=
  let op := bits w 0 6
  if op > 0x25 then none
  else match vtype (bits w 6 3) with
    | none => none
    | some t => some (op, ⟨t, Fin.ofNat 8 (bits w 9 3), Fin.ofNat 8 (bits w 12 3), Fin.ofNat 8 (bits w 15 3), Fin.ofNat 8 (bits w 18 3),
        Fin.ofNat 4 (bits w 21 2), w.testBit 23, BitVec.ofNat 8 (bits w 24 8)⟩)

/-- The bits of IMM that an OP uses (R176). -/
def vecImmUsed : Nat → Nat
  | 0x01 => 0x03
  | 0x02 => 0x81
  | 0x0E | 0x0F => 0x1F
  | 0x10 => 0xFF
  | 0x11 => 0x07
  | 0x1E => 0x01
  | 0x1F => 0x03
  | 0x20 | 0x21 | 0x22 | 0x23 | 0x24 => 0x01
  | 0x25 => 0x0F
  | _ => 0

/-- Whether a TYPE is allowed for an OP (R176). -/
def vecTypeOk (op : Nat) (t : VType) : Bool :=
  if op = 0x0E ∨ op = 0x0F ∨ (0x12 ≤ op ∧ op ≤ 0x14) then (vtFp t).isNone
  else if op = 0x10 ∨ (0x19 ≤ op ∧ op ≤ 0x1C) then (vtFp t).isSome
  else true

/-- Whether one instruction word passes the program check (R173). -/
def vecInsOk (w : Nat) : Bool :=
  match vecDecode w with
  | none => false
  | some (op, o) =>
    vecTypeOk op o.ty && (o.imm.toNat &&& vecImmUsed op) == o.imm.toNat &&
      !(op == 0x01 && o.imm.toNat == 3) && !(op == 0x25 && decide (o.imm.toNat > 13)) &&
      !((op == 0x23 || op == 0x24) && o.d.val % 2 == 1) &&
      !(decide (0x15 ≤ op ∧ op ≤ 0x17) && (o.d.val == 0 || decide (o.d.val > 3))) &&
      !(op == 0x11 && (vtype o.imm.toNat).isNone)

/-- Whether a program record passes (R173); an empty record does. -/
def vecRecordOk (r : List Byte) : Bool :=
  let n := byteAt r 0
  n == 0 || (decide (n ≤ 24) && zeroRange r (32 + 4 * n) (96 - 4 * n) && (List.range n).all (fun i => vecInsOk (le r (32 + 4 * i) 4)))

/-- Whether an element programs section passes its content check (R166, R173). -/
def programsOk (bs : List Byte) : Bool :=
  (List.range (bs.length / 128)).all (fun p => vecRecordOk ((bs.drop (128 * p)).take 128))

/-- The instructions of a program on a frond: the record of the section that the frond takes, none when it is empty (R44, R166). -/
def State.program (s : State) (f p : Nat) : Option (List Nat) :=
  match s.frondSect 0x03 f with
  | none => none
  | some x =>
    if p ≥ x.bytes.length / 128 then none
    else
      let r := (x.bytes.drop (128 * p)).take 128
      if byteAt r 0 = 0 then none else some ((List.range (byteAt r 0)).map (fun i => le r (32 + 4 * i) 4))

/-! ### Commands (R169) -/

/-- A field of a command of words: word and lowest bit, width. -/
def cfield (c : List Word) (w lo n : Nat) : Nat := bits (c.getD w 0).toNat lo n

/-- A port entry (R169): 0 to 2 input, 3 and 4 output. -/
structure VPort where
  addr   : Nat
  stride : Nat
  fmt    : Nat
  shift  : Int
  deriving DecidableEq, Repr

/-- The port entry of a command. -/
def vport (c : List Word) (p : Nat) : VPort :=
  ⟨32 * cfield c (4 + 2 * p) 0 15, 32 * cfield c (4 + 2 * p) 16 16, cfield c (5 + 2 * p) 0 4, sx 8 (cfield c (5 + 2 * p) 8 8)⟩

/-- Bits per lane of a port format (R170). -/
def portBits : Nat → Nat
  | 0x1 | 0x5 | 0x6 | 0x9 => 16
  | 0x2 | 0x7 => 32
  | 0xC => 4
  | _ => 8

/-- Whether a port format agrees with a TYPE (R170, code 9). -/
def fmtTypeOk (fmt : Nat) (t : VType) : Bool :=
  if fmt = 0x3 ∨ fmt = 0x4 ∨ fmt = 0xB then (vtFp t).isSome else true

/-- The ports a program's instruction uses: LD 0 to 2, ST 3 and 4. -/
def insPort (op : Nat) (o : VecOp) : Option Nat :=
  if op = 0x01 then some (o.imm.toNat % 4) else if op = 0x02 then some (3 + o.imm.toNat % 2) else none

/-- Widest element type of an instruction in bytes: TYPE, and for CVT also the type it reads. -/
def insBytes (op : Nat) (o : VecOp) : Nat :=
  let w := vtBytes o.ty
  if op = 0x11 then max w (match vtype (o.imm.toNat % 8) with | some t => vtBytes t | none => 0) else w

/-- R172: the lowest code a command breaks, 0 for none; `j` is the job of the frond. -/
def State.vecCheck (s : State) (f j : Nat) (c : List Word) : Nat :=
  let vlen := cfield c 0 9 10
  let nv := cfield c 1 0 16
  let ports := (List.range 5).map (vport c)
  let used := ports.filter (fun p => p.fmt != 0xF)
  match s.program f (cfield c 0 0 9) with
  | none => 1
  | some ws =>
    let ins := ws.filterMap vecDecode
    let widest := max ((ins.map (fun i => insBytes i.1 i.2)).foldl max 0) ((used.map (fun p => ceilDiv (portBits p.fmt) 8)).foldl max 0)
    let named := ins.filterMap (fun i => (insPort i.1 i.2).map (fun p => (p, i.2.ty)))
    let const_ := 32 * cfield c 2 16 15
    if vlen = 0 ∨ vlen * widest > 512 then 2
    else if used.any (fun p => decide (p.addr + (nv - 1) * p.stride + ceilDiv (vlen * portBits p.fmt) 8 > 0x100000)) then 3
    else if used.any (fun p => p.fmt == 0xD || p.fmt == 0xE) || named.any (fun n => (vport c n.1).fmt == 0xF) then 4
    else if used.any (fun p => (p.fmt == 0xB && vlen % 32 != 0) || (p.fmt == 0xC && vlen % 2 != 0))
        || (vlen % 2 == 1 && ins.any (fun i => i.1 == 0x1E)) then 5
    else if cfield c 0 21 11 != 0 || cfield c 2 31 1 != 0 || c.getD 3 0 != 0 || c.getD 14 0 != 0 || c.getD 15 0 != 0 ||
        (List.range 5).any (fun p => cfield c (4 + 2 * p) 15 1 != 0 || cfield c (5 + 2 * p) 4 4 != 0 || cfield c (5 + 2 * p) 16 16 != 0
          || ((vport c p).fmt != 0xB && cfield c (5 + 2 * p) 8 8 != 0)) then 6
    else if s.semBad j (cfield c 2 0 11) then 7
    else if const_ + 32 > 0x100000 ∨
        ins.any (fun i => i.1 == 0x1F && decide (const_ + 32 + 1024 * (i.2.imm.toNat % 4) + 256 * vtBytes i.2.ty > 0x100000)) then 8
    else if named.any (fun n => !fmtTypeOk (vport c n.1).fmt n.2) then 9
    else 0

/-! ### Conversions (R103, R170) -/

/-- A value as the engine computes with it: the exact number of a lane's code in an element type. Subnormal BF16 and FP32 inputs count as zero (R180). -/
def vtNum (t : VType) (v : Nat) : Num :=
  match vtFp t with
  | some f => f.decode f.flush v
  | none => Num.ofInt (sx (8 * vtBytes t) v)

/-- A number rounded and saturated to an element type (R103): code and whether a limit was taken; a NaN gives 0 in an integer type and counts as saturated (R170). -/
def vtOf (t : VType) (x : Num) : Nat × Bool :=
  match vtFp t with
  | some f => f.encode x
  | none =>
    let w := 8 * vtBytes t
    match x.toIntRne with
    | none => (0, true)
    | some i => (toBits w (satS w i), decide (satS w i ≠ i))

/-- A rounded integer limited to a range, as `n` bits; a NaN gives 0. -/
def numInt (n : Nat) (lo hi : Int) (x : Num) : Nat × Bool :=
  match x.toIntRne with
  | none => (0, true)
  | some i => (toBits n (clampI lo hi i), decide (clampI lo hi i ≠ i))

/-- The number held by an element of a port format without shifts, as a LD of a TYPE reads it (R102, R170). -/
def portNum (fmt : Nat) (isFp : Bool) (v : Nat) : Num :=
  match fmt with
  | 0x0 | 0x8 | 0xB => Num.ofInt (sx 8 v)
  | 0x1 | 0x9 => Num.ofInt (sx 16 v)
  | 0x2 => Num.ofInt (sx 32 v)
  | 0x3 => fp8e4m3.decode false v
  | 0x4 => fp8e5m2.decode false v
  | 0x5 => fp16.decode false v
  | 0x6 => bf16.decode false v
  | 0x7 => fp32.decode false v
  | 0xA => Num.scaled (llr8 (BitVec.ofNat 8 v)) (if isFp then -2 else 0)
  | _ => Num.ofInt (sx 4 v)

/-- The code a ST of a number writes in a port format without shifts (R105, R170), and whether it saturated. -/
def portCode (fmt : Nat) (isFp : Bool) (x : Num) : Nat × Bool :=
  match fmt with
  | 0x0 | 0x8 => numInt 8 (-128) 127 x
  | 0x1 | 0x9 => numInt 16 (-32768) 32767 x
  | 0x2 => numInt 32 (-2147483648) 2147483647 x
  | 0x3 => fp8e4m3.encode x
  | 0x4 => fp8e5m2.encode x
  | 0x5 => fp16.encode x
  | 0x6 => bf16.encode x
  | 0x7 => fp32.encode x
  | 0xA => numInt 8 (-127) 127 (if isFp then x.scale 2 else x)
  | _ => numInt 4 (-8) 7 x

/-- The port format that holds an element type's own codes, if any. -/
def ownFmt : VType → Nat
  | .int8 => 0x0
  | .int16 => 0x1
  | .int32 => 0x2
  | .fp16 => 0x5
  | .bf16 => 0x6
  | .fp32 => 0x7

/-- Smallest shift from a floor on at which a mantissa m * 2^(e - s) rounds into n bits (R118); at most 127. -/
def fitShift (n : Nat) (x : Num) : Nat → Int → Int
  | 0, s => s
  | k + 1, s =>
    if s ≥ 127 then 127
    else match (x.scale (-s)).toIntRne with
      | none => s
      | some i => if satS n i = i then s else fitShift n x k (s + 1)

/-- The shift of a block of values (R118): the largest any of them needs. -/
def portShift (n : Nat) (floor : Int) (xs : List Num) : Int := xs.foldl (fun s x => fitShift n x 256 s) floor

end Sys2Proof.Machine
end

