-- ==== Sys2Proof/Machine/VecOps.lean ====
section
/-!
DEFINITION. Shared operations of the vector engine (06): masks and lanes (R168, R175), loads and stores (R170, R184), reductions (R181), the queue's registers (R184), rejecting a command (R172).
-/
namespace Sys2Proof.Machine

open Sys2Proof (Byte Word VType VecOp)

/-- Device address of a window offset (R28, R309). -/
def winAddr (f w : Nat) : Nat := leafBase f + 0x500000 + w

/-- VLEN of the running command. -/
def VecRun.vlen (r : VecRun) : Nat := cfield r.cmd 0 9 10

/-- NV of the running command. -/
def VecRun.nv (r : VecRun) : Nat := cfield r.cmd 1 0 16

/-- The registers that show the queues and the head summary record (R184). -/
def State.vecShow (s : State) (f : Fin 6) : State :=
  let v := (s.fr f).vec
  let s := (s.p (Reg.VEC_STS_FREE f) (16 - v.queue.length)).p (Reg.VEC_STS_BUSY f) (b2n v.run.isSome)
  let s := s.p (Reg.VEC_STS_SUM_CNT f) v.sums.length
  match v.sums with
  | [] => ((List.range 16).foldl (fun t i => t.p (Reg.VEC_SUM_Ss f i) 0) s).p (Reg.VEC_SUM_TAG_TAG f) 0 |>.p (Reg.VEC_SUM_TAG_VALID f) 0
  | x :: _ =>
    ((List.range 16).foldl (fun t i => t.p (Reg.VEC_SUM_Ss f i) (x.slots.toList.getD i 0).toNat) s).p (Reg.VEC_SUM_TAG_TAG f) x.tag.toNat
      |>.p (Reg.VEC_SUM_TAG_VALID f) 1

/-- The state with a frond's vector engine changed and its registers showing it. -/
def State.modVec (s : State) (f : Fin 6) (g : Vec → Vec) : State := (s.modFr f (fun x => { x with vec := g x.vec })).vecShow f

/-- A command error (R172, R201): recorded when it is the first, EV_VEC_CMD_BAD raised, the engine stopped, the job faulted. -/
def State.vecReject (s : State) (f : Fin 6) (c : List Word) (code : Nat) : State :=
  let prog := cfield c 0 0 9
  let tag := cfield c 1 16 16
  let s := if s.g (Reg.VEC_ERR_CODE f) = 0 then
      ((s.p (Reg.VEC_ERR_CODE f) code).p (Reg.VEC_ERR_PROG f) prog).p (Reg.VEC_ERR_TAG f) tag else s
  let s := s.raise 0x010B (unitSrc f 1) (jobByte (s.jobOf f)) (code + prog <<< 4 + tag <<< 16)
  let s := s.modVec f (fun v => { v with run := none, halted := true })
  s.frondFault f 0x010B (unitSrc f 1)

/-- A unit of a frond consumes a poisoned word (R303): its job faults. -/
def State.consumePoison (s : State) (f : Fin 6) (unit : Nat) : State := s.frondFault f 0x0601 (unitSrc f unit)

/-! ### Lanes -/

/-- The code of one lane of a temporary (R167). -/
def laneOf (t : BitVec 4096) (bytes k : Nat) : Nat := bits t.toNat (8 * bytes * k) (8 * bytes)

/-- Whether the selected mask, after MINV, has a lane's bit set (R174, R175). -/
def VecRun.masked (r : VecRun) (o : VecOp) (k : Nat) : Bool := decide (k < r.vlen) && ((r.m.get o.msel).getLsbD k != o.minv)

/-- The lanes under the mask, ascending. -/
def VecRun.lanes (r : VecRun) (o : VecOp) : List Nat := (List.range r.vlen).filter (r.masked o)

/-- A temporary with lanes replaced; every other lane keeps its value (R175). -/
def setLanes (old : BitVec 4096) (bytes : Nat) (l : List (Nat × Nat)) : BitVec 4096 :=
  BitVec.ofNat 4096 (l.foldl (fun a e => setBits a (8 * bytes * e.1) (8 * bytes) e.2) old.toNat)

/-- The state and the codes of lanes, an open one taken from free bytes (log 5). -/
def State.fillFree (s : State) (bytes : Nat) (l : List (Nat × Option Nat)) : List (Nat × Nat) × State :=
  if l.any (fun e => e.2.isNone) then
    let (fb, s) := s.freeBytes 512
    (l.map (fun e => (e.1, e.2.getD (le fb (bytes * e.1) bytes))), s)
  else (l.map (fun e => (e.1, e.2.getD 0)), s)

/-- A lane-wise instruction: T(D) takes a value in each lane under the mask; none is an open value. -/
def laneWise (o : VecOp) (r : VecRun) (s : State) (val : Nat → Option Nat) : VecRun × State :=
  let w := vtBytes o.ty
  let (l, s) := s.fillFree w ((r.lanes o).map (fun k => (k, val k)))
  ({ r with t := r.t.set o.d.val (setLanes (r.t.get o.d) w l) }, s)

/-- The code of a lane of a source temporary in the instruction's type. -/
def VecRun.src (r : VecRun) (o : VecOp) (x : Fin 8) (k : Nat) : Nat := laneOf (r.t.get x) (vtBytes o.ty) k

/-- The number in a lane of a source temporary. -/
def VecRun.num (r : VecRun) (o : VecOp) (x : Fin 8) (k : Nat) : Num := vtNum o.ty (r.src o x k)

/-- Whether a value is an infinity. -/
def Num.isInf : Num → Bool
  | .inf _ => true
  | _ => false

/-- An arithmetic result in the instruction's type: a NaN operand gives NaN (R180); otherwise an infinite operand leaves it open (the spec gives infinities no vector arithmetic; log 5). -/
def vecArith (o : VecOp) (args : List Num) (res : Num) : Option Nat :=
  if args.any (fun x => x == .nan) then some (vtOf o.ty .nan).1
  else if args.any Num.isInf then none
  else some (vtOf o.ty res).1

/-- The result of an operation that picks an operand or only changes a sign (R176): no rounding takes place, so an infinity stays one (DEDUCED, log 5). -/
def vecPicked (o : VecOp) (res : Num) : Option Nat :=
  match vtFp o.ty, res with
  | some f, .inf n => some (f.infCode n)
  | _, _ => some (vtOf o.ty res).1

/-- The lesser (or the greater) of two numbers; NaN propagates (R180); of equal numbers the first. -/
def numPick (greater : Bool) (a b : Num) : Num :=
  match a, b with
  | .nan, _ => .nan
  | _, .nan => .nan
  | _, _ => if greater then (if a.lt b then b else a) else (if b.lt a then b else a)

/-- A compare: bits of M(D) under the mask (R175). -/
def vecCompare (o : VecOp) (r : VecRun) (s : State) (p : Num → Num → Bool) : VecRun × State :=
  let d : Fin 4 := Fin.ofNat 4 o.d.val
  let old := (r.m.get d).toNat
  let new := (r.lanes o).foldl (fun a k => setBits a k 1 (b2n (p (r.num o o.a k) (r.num o o.b k)))) old
  ({ r with m := r.m.set d (BitVec.ofNat 512 new) }, s)

/-! ### Loads and stores -/

/-- Leaf-store address of the shift byte of a BS8 block at a leaf offset (R157). -/
def State.bs8Addr (s : State) (f a : Nat) : Nat := leafBase f + (s.g (Reg.STR_BS_MAP_SB8 f) * 0x1000 + a / 32) % 0x800000

/-- Leaf-store address of the shift byte of a BS4 block at a leaf offset (R157). -/
def State.bs4Addr (s : State) (f a : Nat) : Nat := leafBase f + (s.g (Reg.STR_BS_MAP_SB4 f) * 0x1000 + a / 16) % 0x800000

/-- A BS shift byte, signed. -/
def State.bsShift (s : State) (a : Nat) : Int := sx 8 (s.ldN a 1)

/-- Window offset of an iteration's vector of a port (R169). -/
def VPort.at (p : VPort) (iter : Nat) : Nat := p.addr + iter * p.stride

/-- The code of lane k of a port's vector at a window offset. -/
def State.portLane (s : State) (f fmt w k : Nat) : Nat :=
  let b := portBits fmt
  if b = 4 then bits (s.ldN (winAddr f (w + k / 2)) 1) (4 * (k % 2)) 4 else s.ldN (winAddr f (w + b / 8 * k)) (b / 8)

/-- LD of one lane (R170). -/
def State.loadLane (s : State) (f : Nat) (ty : VType) (fmt w k : Nat) : Nat :=
  let c := s.portLane f fmt w k
  if fmt = ownFmt ty then c
  else
    let x := portNum fmt (vtFp ty).isSome c
    let x := if fmt = 0xB then x.scale (s.bsShift (s.bs8Addr f (0x500000 + w + k / 32 * 32))) else x
    (vtOf ty x).1

/-- Whether a lane's bytes, or a BS8 block's shift, are poisoned. -/
def State.lanePoison (s : State) (f fmt w k : Nat) : Bool :=
  let b := portBits fmt
  s.poisoned (winAddr f (w + b * k / 8)) (max 1 (b / 8)) ||
    (fmt == 0xB && s.poisoned (s.bs8Addr f (0x500000 + w + k / 32 * 32)) 1)

/-- One lane written to a port. -/
def State.writeLane (s : State) (f fmt w k code : Nat) : State :=
  let b := portBits fmt
  if b = 4 then
    let a := winAddr f (w + k / 2)
    s.storeN a 1 (setBits (s.ldN a 1) (4 * (k % 2)) 4 code)
  else s.storeN (winAddr f (w + b / 8 * k)) (b / 8) code

/-- A count added to a slot of a command's summary; it stops at 0xFFFF_FFFF (R183). -/
def VecRun.addSlot (r : VecRun) (i : Fin 16) (n : Nat) : VecRun :=
  { r with slots := r.slots.set i.val (BitVec.ofNat 32 (min ((r.slots.get i).toNat + n) 0xFFFFFFFF)) }

/-- ST of a temporary (R170, R184): every lane under the mask is converted and written; saturated elements count in slot 14, VEC_SAT_CNT and VSAT_STK. -/
def vecStore (f : Fin 6) (o : VecOp) (r : VecRun) (s : State) : VecRun × State :=
  let p := vport r.cmd (3 + o.imm.toNat % 2)
  let w := p.at r.iter
  let isFp := (vtFp o.ty).isSome
  let ks := r.lanes o
  let xs := ks.map (fun k => (k, r.num o o.a k))
  let shiftOf := fun (b : Nat) => portShift 8 p.shift ((xs.filter (fun e => e.1 / 32 == b)).map (fun e => e.2))
  let coded := xs.map (fun e =>
    if p.fmt = ownFmt o.ty then (e.1, r.src o o.a e.1, false)
    else if p.fmt = 0xB then (let c := numInt 8 (-128) 127 (e.2.scale (-(shiftOf (e.1 / 32)))); (e.1, c.1, c.2))
    else (let c := portCode p.fmt isFp e.2; (e.1, c.1, c.2)))
  let s := coded.foldl (fun t e => t.writeLane f p.fmt w e.1 e.2.1) s
  let s := if p.fmt = 0xB then
      (List.range (r.vlen / 32)).foldl (fun t b =>
        if ks.any (fun k => k / 32 == b) then t.storeN (t.bs8Addr f (0x500000 + w + 32 * b)) 1 (toBits 8 (shiftOf b)) else t) s
    else s
  let n := coded.countP (fun e => e.2.2)
  if n = 0 then (r, s)
  else (r.addSlot 14 n, (s.addc (Reg.VEC_SAT_CNT f) n).p (Reg.VEC_STS_VSAT_STK f) 1)

/-! ### Reductions (R181, R182) -/

/-- One level of the pairwise tree: neighbours summed in FP32, a last one alone passed on. -/
def pairUp : List Nat → List Nat
  | a :: b :: l => addF32 a b :: pairUp l
  | l => l

/-- The pairwise tree in ascending lane index (R124, R182). -/
def foldTree : Nat → List Nat → Nat
  | _, [] => 0
  | _, [a] => a
  | 0, a :: _ => a
  | n + 1, l => foldTree n (pairUp l)

/-- A scalar as the engine reads it in a reduction: INT32, or FP32 for the FP types. -/
def scalarNum (isFp : Bool) (v : Word) : Num := if isFp then fp32.decode true v.toNat else Num.ofInt v.toInt

/-- An INT32 sum that saturates at every addition, with the number of saturations (R181). -/
def satSum (init : Int) (l : List Int) : Int × Nat :=
  l.foldl (fun a x => let y := a.1 + x; (satS 32 y, if satS 32 y = y then a.2 else a.2 + 1)) (init, 0)

/-- The extreme of the lanes under the mask with its lane: the lowest lane of equal values; NaN lanes take no part (R181). -/
def extreme (greater : Bool) : List (Nat × Num) → Option (Nat × Num)
  | [] => none
  | (k, x) :: l =>
    match x, extreme greater l with
    | .nan, e => e
    | x, none => some (k, x)
    | x, some e => if (if greater then x.lt e.2 else e.2.lt x) then some e else some (k, x)

/-- RMAX and RMIN, with the index in S(D + 1) for RMAXI and RMINI (R181). With no lane that takes part and IMM[0] = 0 the result is open (log 5). -/
def vecExtreme (greater index : Bool) (o : VecOp) (r : VecRun) (s : State) : VecRun × State :=
  let isFp := (vtFp o.ty).isSome
  let held := r.s.get o.d
  let code := fun (x : Num) => BitVec.ofNat 32 (match x with
    | .inf n => fp32.infCode n
    | _ => if isFp then toF32 x else (vtOf .int32 x).1)
  let i1 : Fin 8 := Fin.ofNat 8 (o.d.val + 1)
  let put := fun (k : Nat) (x : Num) =>
    let r1 := { r with s := r.s.set o.d.val (code x) }
    if index then { r1 with s := r1.s.set i1.val (BitVec.ofNat 32 (r.iter * r.vlen + k)) } else r1
  let keep := o.imm.getLsbD 0
  match extreme greater ((r.lanes o).map (fun k => (k, r.num o o.a k))) with
  | none =>
    if keep then (r, s)
    else
      let (w, s) := s.free
      let r1 := { r with s := r.s.set o.d.val w }
      if index then (let (w2, s) := s.free; ({ r1 with s := r1.s.set i1.val w2 }, s)) else (r1, s)
  | some (k, x) =>
    if keep then
      let h := scalarNum isFp held
      match h with
      | .nan => (put k x, s)
      | _ => if (if greater then h.lt x else x.lt h) then (put k x, s) else (r, s)
    else (put k x, s)

/-- RSUM (R181, R182). With DET = 0 an FP sum of more than two terms has no given order, and its value is open (R124; log 5), as is a sum with an infinite term. -/
def vecSum (f : Fin 6) (o : VecOp) (r : VecRun) (s : State) : VecRun × State :=
  let keep := o.imm.getLsbD 0
  let held := r.s.get o.d
  let ks := r.lanes o
  match vtFp o.ty with
  | none =>
    let (v, n) := satSum (if keep then held.toInt else 0) (ks.map (fun k => sx (8 * vtBytes o.ty) (r.src o o.a k)))
    ({ r with s := r.s.set o.d.val (BitVec.ofInt 32 v) }, s.addc (Reg.VEC_SAT_CNT f) n)
  | some _ =>
    let all := (List.range r.vlen).map (fun k => if r.masked o k then toF32 (r.num o o.a k) else 0)
    let terms := ks.length + b2n keep
    let open_ := ks.any (fun k => (r.num o o.a k).isInf) || (keep && (scalarNum true held).isInf)
    if !open_ && (s.det || terms ≤ 2) then
      let t := foldTree 10 (if s.det then all else ks.map (fun k => toF32 (r.num o o.a k)))
      ({ r with s := r.s.set o.d.val (BitVec.ofNat 32 (if keep then addF32 held.toNat t else t)) }, s)
    else
      let (w, s) := s.free
      ({ r with s := r.s.set o.d.val w }, s)

/-! ### Running one instruction (R177) -/

/-- The next instruction of the command that runs on a frond: its OP and fields. -/
def State.vecNext (s : State) (f : Fin 6) : Option (VecRun × Nat × VecOp) :=
  match (s.fr f).vec.run with
  | none => none
  | some r =>
    if r.iter ≥ r.nv then none
    else match s.program f (cfield r.cmd 0 0 9) with
      | none => none
      | some ws => (vecDecode (ws.getD r.pc 0x3F)).map (fun i => (r, i.1, i.2))

/-- The run after an instruction: the next one of the program, or the next iteration. -/
def VecRun.advance (r : VecRun) (n : Nat) : VecRun :=
  if r.pc + 1 < n then { r with pc := r.pc + 1 } else { r with pc := 0, iter := r.iter + 1 }

/-- One vector instruction: it acts when it is the next of the running command; none of `g` means that it met a poisoned word. -/
def vecIns (op : Nat) (f : Fin 6) (g : VecOp → VecRun → State → Option (VecRun × State)) (s : State) : State :=
  match s.vecNext f with
  | none => s
  | some (r, k, o) =>
    if k ≠ op then s
    else match g o r s with
      | none => s.consumePoison f 1
      | some (r', s) =>
        let n := match s.program f (cfield r.cmd 0 0 9) with | some ws => ws.length | none => 1
        s.modVec f (fun v => { v with run := some (r'.advance n) })

end Sys2Proof.Machine
end

