-- ==== Sys2Proof/Machine/Thresher.lean ====
section
/-!
DEFINITION. The threshers (08 R241 to R258): the command queue, its checks, DECODE, ENCODE, completion, cancellation and the edge-class tables.
-/
namespace Sys2Proof.Machine

open Sys2Proof (Byte Word)

/-! ### Queue (R241, R242) -/

/-- The state with a frond's thresher changed; THR_STS follows. -/
def State.modThr (s : State) (f : Fin 6) (g : Thr → Thr) : State :=
  let s := s.modFr f (fun x => { x with thr := g x.thr })
  (s.p (Reg.THR_STS_FREE f) (32 - (s.fr f).thr.queue.length)).p (Reg.THR_STS_BUSY f) (b2n (s.fr f).thr.run.isSome)

/-- The 64 bytes of a command. -/
def cmdBytes (c : List Word) : List Byte := c.flatMap (fun w => toLE 4 w.toNat)

/-- TAG of a thresher command (R242). -/
def thrTag (c : List Word) : Nat := cfield c 1 0 16

/-- PARAM of a thresher command (R242). -/
def thrParam (c : List Word) : List Byte := ((cmdBytes c).drop 32).take 16

/-- THR_CMD_PUSH (R242): THR_CMD_W0 to W15 enter the queue; ignored while it is full. -/
def execThrCmdPush (agent : Byte) (f : Fin 6) (val : Word) (s : State) : Host.Outcome State Fault Refusal :=
  act (fun s => s.push agent.toNat .fw val.toNat (Reg.THR_CMD_PUSH f) (fun s =>
    if (s.fr f).thr.queue.length ≥ 32 then s.ignore
    else
      let c := (List.range 16).map (fun w => s.reg (Reg.THR_CMD_Ww f w).addr)
      s.modThr f (fun t => { t with queue := t.queue ++ [c] }))) s

/-- The thresher tables of a frond (R245). -/
def State.thrTables (s : State) (f : Nat) : List Byte := match s.frondSect 0x0A f with | some x => x.bytes | none => []

/-! ### Command checks (R257) -/

/-- Bytes that a command reads at SRC and writes at DST (R242): DECODE reads G LLR8 codes and writes whole 32-byte units; ENCODE reads ceil(TBS / 8) bytes and writes G bits. -/
def thrSizes (op g tbs : Nat) : Nat × Nat := if op = 0 then (g, 32 * ceilDiv tbs 256) else (ceilDiv tbs 8, ceilDiv g 8)

/-- R257: the lowest code a command breaks, 0 for none; `j` is the frond's job. Every region must lie in granary space bound to the job, so a system bank, which its agents may read, is none of it (R242). A graph or polar table that is not loaded is code 4 (DEDUCED, log 25). -/
def State.thrCheck (s : State) (f j : Nat) (c : List Word) : Nat :=
  let op := cfield c 0 0 2
  let g := cfield c 5 0 24
  let qm := cfield c 5 24 4
  let layers := cfield c 6 0 6
  let q := codeParam (thrParam c)
  let tab := s.thrTables f
  let gr := graphOf tab q.graph
  let sz := thrSizes op g q.tbs
  let space := fun (w n : Nat) (write : Bool) => decide (s.access (unitSrc f 3) j (grnBase + 32 * cfield c w 0 23) n write = .ok)
  if op ≥ 2 then 1
  else if paramBad false (thrParam c) || g == 0 || layers == 0 || decide (32 < layers) || !([1, 2, 4, 6, 8, 10, 12].contains qm) ||
      (match gr, q.code == 1 with
        | none, false => decide ((q.tbs + q.ltb) % q.c ≠ 0 ∨ g % (qm * layers) ≠ 0)
        | _, _ => ruleBad q gr g qm layers) then 2
  else if !space 2 sz.1 true || !space 3 sz.2 true || !space 4 32 true then 3
  else if (match q.code with
      | 1 => (polarTable tab).isNone
      | _ => match gr with
        | none => true
        | some x => op == 1 && !x.encodable q.z) then 4
  else if cfield c 0 4 28 != 0 || cfield c 1 16 16 != 0 || cfield c 2 23 9 != 0 || cfield c 3 23 9 != 0 || cfield c 4 23 9 != 0 ||
      cfield c 5 28 4 != 0 || cfield c 6 6 10 != 0 || c.getD 7 0 != 0 || (List.range 4).any (fun i => c.getD (12 + i) 0 != 0) then 5
  else if s.semBad j (cfield c 6 16 11) then 6
  else 0

/-- THR_COMMAND_REJECT (R257): recorded when it is the first, EV_THR_CMD_BAD raised, the thresher stopped, the job faulted. -/
def State.thrReject (s : State) (f : Fin 6) (c : List Word) (code : Nat) : State :=
  let tag := thrTag c
  let s := if s.g (Reg.THR_ERR_CODE f) = 0 then (s.p (Reg.THR_ERR_CODE f) code).p (Reg.THR_ERR_TAG f) tag else s
  let s := s.raise 0x0401 (unitSrc f 3) (jobByte (s.jobOf f)) (code + tag <<< 16)
  (s.modThr f (fun t => { t with run := none, halted := true })).frondFault f 0x0401 (unitSrc f 3)

/-- The command at the head starts (R241): one at a time, in queue order, while the frond issues work; a command that breaks a rule is rejected; the others go on with their job. -/
def State.thrStart (s : State) (f : Fin 6) (ops : Nat → Bool) (g : State → Nat → List Word → State) : State :=
  match (s.fr f).thr.run, (s.fr f).thr.queue, s.jobOf f with
  | none, c :: q, some j =>
    if (s.fr f).thr.halted || !s.frondRuns f || !ops (cfield c 0 0 2) then s
    else
      let code := s.thrCheck f j c
      let s := s.modThr f (fun t => { t with queue := q })
      if code ≠ 0 then s.thrReject f c code else g s j c
  | _, _, _ => s

/-- A status record up to T_DONE (R255). -/
def thrStatus (c : List Word) (result blocks : Nat) (o : ThrOut) : List Byte :=
  toLE 2 (thrTag c) ++ toLE 1 result ++ toLE 1 blocks ++ toLE 1 o.cbFail ++ toLE 1 o.erased ++ toLE 1 o.iterMax ++ zeros 1 ++ toLE 4 o.iterSum

/-- The edge-class table of a bank (R248). -/
def State.edgeBank (s : State) (f : Fin 6) (b : Nat) : EdgeTable :=
  (List.range 64).map (fun c =>
    if b = 0 then (s.g (Reg.THR_ETBL0_c_OFFSET f c), s.g (Reg.THR_ETBL0_c_SCALE f c))
    else (s.g (Reg.THR_ETBL1_c_OFFSET f c), s.g (Reg.THR_ETBL1_c_SCALE f c)))

/-- What a frond's thresher decodes from LLRs (R247 to R253): PARAM, edge-class table, QM, LAYERS. -/
def State.decodeLlr (s : State) (f : Fin 6) (q : CodeParam) (et : EdgeTable) (qm layers : Nat) (llr : List Int) : ThrOut :=
  let tab := s.thrTables f
  let iters := if q.iter = 0 then s.g (Reg.THR_CFG_ITER_DEF f) else q.iter
  if q.code = 1 then (match polarTable tab with | some t => polarDecode t q llr | none => ⟨[], false, 0, 0, 0, 0, 0, 0⟩)
  else match graphOf tab q.graph with
    | some g => g.decodeTb q et qm layers iters llr
    | none => ⟨[], false, 0, 0, 0, 0, 0, 0⟩

/-- What a DECODE command computes from its LLR8 buffer. -/
def State.thrDecode (s : State) (f : Fin 6) (c : List Word) (llr : List Int) : ThrOut :=
  s.decodeLlr f (codeParam (thrParam c)) (s.edgeBank f (cfield c 0 2 1)) (cfield c 5 24 4) (cfield c 6 0 6) llr

/-- DECODE (R247 to R253, R257): the head command decodes its allocation; the bits go to DST and the counters count. -/
def execDecode (f : Fin 6) (s : State) : Host.Outcome State Fault Refusal :=
  act (fun s => s.thrStart f (fun op => op != 1) (fun s _ c =>
    let q := codeParam (thrParam c)
    let src := grnBase + 32 * cfield c 2 0 23
    let g := cfield c 5 0 24
    if s.poisoned src g then s.consumePoison f 3
    else
      let s := s.wakeRange src g
      let o := s.thrDecode f c ((s.ld src g).map llr8)
      let n := 32 * ceilDiv q.tbs 256
      let b := packLsb n o.out
      let s := s.store (grnBase + 32 * cfield c 3 0 23) (b ++ zeros (n - b.length))
      let s := ((s.addc (Reg.THR_CB_CNT f) o.blocks).addc (Reg.THR_ITER_CNT f) o.iterSum).addc (Reg.THR_ES_CNT f) o.early
      let s := (s.addc (Reg.THR_CB_CRC_FAIL_CNT f) o.cbFail).addc (Reg.THR_CB_ERASED_CNT f) o.erased
      let s := s.addc (Reg.THR_TB_CRC_FAIL_CNT f) (b2n !o.pass)
      s.modThr f (fun t => { t with run := some ⟨c, true, false, thrStatus c (b2n !o.pass) q.c o⟩ }))) s

/-- The coded bits of an ENCODE (R258); none where the graph's core does not fix the parities (log 25). -/
def State.thrEncode (s : State) (f : Fin 6) (c : List Word) (tb : List Bool) : Option (List Bool) :=
  let q := codeParam (thrParam c)
  let tab := s.thrTables f
  let g := cfield c 5 0 24
  if q.code = 1 then (polarTable tab).map (fun t => polarEncode t q g tb)
  else match graphOf tab q.graph with
    | some x => x.encodeTb q g (cfield c 5 24 4) (cfield c 6 0 6) tb
    | none => none

/-- ENCODE (R246, R257, R258): the head command encodes its transport block; G bits go to DST in codeword order. -/
def execEncode (f : Fin 6) (s : State) : Host.Outcome State Fault Refusal :=
  act (fun s => s.thrStart f (fun op => op != 0) (fun s _ c =>
    let q := codeParam (thrParam c)
    let src := grnBase + 32 * cfield c 2 0 23
    let n := ceilDiv q.tbs 8
    let out := ceilDiv (cfield c 5 0 24) 8
    if s.poisoned src n then s.consumePoison f 3
    else
      let s := s.wakeRange src n
      let (b, s) := match s.thrEncode f c ((lsbBits (s.ld src n)).take q.tbs) with
        | some l => (packLsb out l, s)
        | none => s.freeBytes out
      let s := (s.store (grnBase + 32 * cfield c 3 0 23) b).addc (Reg.THR_ENC_CB_CNT f) q.c
      s.modThr f (fun t => { t with run := some ⟨c, true, false, thrStatus c 3 q.c ⟨[], true, 0, 0, 0, 0, 0, 0⟩⟩ }))) s

/-! ### Cancellation and tables (R252, R256) -/

/-- Every queued command with a tag is removed, and a running one ends as CANCELLED (R256). -/
def State.thrCancel (s : State) (f : Fin 6) (tag : Nat) : State :=
  s.modThr f (fun t => { t with queue := t.queue.filter (fun c => thrTag c != tag),
                                run := t.run.map (fun r => if thrTag r.cmd = tag then { r with cancelled := true } else r) })

/-- THR_CANCEL (R256). -/
def execThrCancel (agent : Byte) (f : Fin 6) (val : Word) (s : State) : Host.Outcome State Fault Refusal :=
  act (fun s => s.push agent.toNat .fw val.toNat (Reg.THR_CANCEL_GO f) (fun s => s.thrCancel f (s.g (Reg.THR_CANCEL_TAG f)))) s

/-- Whether a queued or running command names an edge-class bank (R252). -/
def Thr.usesBank (t : Thr) (b : Nat) : Bool :=
  (t.queue ++ (match t.run with | some r => [r.cmd] | none => [])).any (fun c => cfield c 0 0 2 == 0 && cfield c 0 2 1 == b)

/-- THR_ETBL_WRITE (R252): a write to an edge-class record, ignored while a command names its bank. -/
def State.etblWrite (s : State) (agent : Nat) (f : Fin 6) (bank c v : Nat) : State :=
  let a := if bank = 0 then (Reg.THR_ETBL0_c_OFFSET f c).addr else (Reg.THR_ETBL1_c_OFFSET f c).addr
  s.guard agent a true (fun s => if (s.fr f).thr.usesBank bank then s.ignore else s.writeFields agent a v)

/-- THR_ETBL_WRITE (R252). -/
def execThrEtblWrite (agent : Byte) (f : Fin 6) (bank : Fin 2) (c : Fin 64) (val : Word) (s : State) : Host.Outcome State Fault Refusal :=
  act (fun s => s.etblWrite agent.toNat f bank.val c.val val.toNat) s

end Sys2Proof.Machine
end

