-- ==== Sys2Proof/Machine/Plan.lean ====
section
/-!
DEFINITION. Slot plans: the check that uplink and downlink plans share (07 R204 to R208, 08 R243 R244 R259), groups and their assignment to fronds (R207, R210), and the acceptance of control messages (12 R341, R342, R347, R350).
-/
namespace Sys2Proof.Machine

open Sys2Proof (Byte Word FhMsg PilotPattern)

/-! ### Allocation entries (R205) -/

/-- The allocation of an entry, with no work done. -/
def entryAlloc (e : List Byte) : Alloc :=
  { index := byteAt e 0, layers := bits (byteAt e 1) 0 6, path := bits (byteAt e 1) 6 2, ueid := le e 2 2, prb0 := bits (le e 4 2) 0 9,
    nprb := bits (le e 6 2) 0 9, sym0 := bits (byteAt e 8) 0 4, nsym := bits (byteAt e 8) 4 4, qm := bits (byteAt e 9) 0 4,
    pilotMap := bits (le e 10 2) 0 14, ppat := bits (byteAt e 12) 0 4, layer0 := bits (byteAt e 13) 0 5, seqId := le e 14 2,
    decode := (e.drop 16).take 16, frond := 0, models := false, marks := 0, erased := 0, res := 0, refDone := false, lrnDone := false,
    resL := 0, resR := 0, mllrL := 0, mllrR := 0, clampL := 0, nllr := 0, tL := 0, tR := 0, tG := 0, decision := none, reason := 0,
    done := false, crcOk := false, labelled := 0, bits := [], bufR := 0, bufL := 0, buf := none, dec := none, clamps := 0 }

/-- The 32-byte entry of an allocation (R205). -/
def Alloc.entry (a : Alloc) : List Byte :=
  toLE 1 a.index ++ toLE 1 (a.layers + a.path <<< 6) ++ toLE 2 a.ueid ++ toLE 2 a.prb0 ++ toLE 2 a.nprb ++ toLE 1 (a.sym0 + a.nsym <<< 4) ++
    toLE 1 a.qm ++ toLE 2 a.pilotMap ++ toLE 1 a.ppat ++ toLE 1 a.layer0 ++ toLE 2 a.seqId ++ a.decode

/-- The symbols of an allocation. -/
def Alloc.syms (a : Alloc) : List Nat := (List.range a.nsym).map (· + a.sym0)

/-- Its data symbols: those that carry no pilots. -/
def Alloc.dataSyms (a : Alloc) : List Nat := a.syms.filter (fun s => !a.pilotMap.testBit s)

/-- G, the coded bits that its data REs carry (R226, R244; DEDUCED, log 26). -/
def Alloc.coded (a : Alloc) : Nat := 12 * a.nprb * a.dataSyms.length * a.layers * a.qm

/-- Whether a symbol and PRB lie in an allocation. -/
def Alloc.covers (a : Alloc) (sym prb : Nat) : Bool := decide (a.sym0 ≤ sym ∧ sym < a.sym0 + a.nsym ∧ a.prb0 ≤ prb ∧ prb < a.prb0 + a.nprb)

/-- Whether two allocations overlap (R207). -/
def Alloc.overlaps (a b : Alloc) : Bool :=
  decide (a.prb0 < b.prb0 + b.nprb ∧ b.prb0 < a.prb0 + a.nprb ∧ a.sym0 < b.sym0 + b.nsym ∧ b.sym0 < a.sym0 + a.nsym)

/-- Whether two allocations have the shape that members of one group share (R207). -/
def Alloc.sameShape (a b : Alloc) : Bool :=
  a.prb0 == b.prb0 && a.nprb == b.nprb && a.sym0 == b.sym0 && a.nsym == b.nsym && a.pilotMap == b.pilotMap && a.ppat == b.ppat

/-! ### The check (R208, R259) -/

/-- What the check of a plan rests on: direction, NPORT, NPRB and spf of the carrier, the thresher tables and the pilot patterns of the job. -/
structure PlanCfg where
  tx    : Bool
  nport : Nat
  nprb  : Nat
  spf   : Nat
  tab   : List Byte
  pats  : List PilotPattern

/-- The pilot patterns of the receive job's stream graph section, which uplink and downlink plans name (R206, R259). -/
def State.pilotPatterns (s : State) : List PilotPattern :=
  match s.roleJob 1 with
  | some k => (match s.graph k with | some g => g.patterns | none => [])
  | none => []

/-- Pattern of a number (R206). -/
def patternOf (l : List PilotPattern) (n : Nat) : Option PilotPattern := l.find? (fun p => p.ppat.toNat == n)

/-- Reason 2 of the header (R204, R259). -/
def PlanCfg.headBad (c : PlanCfg) (p : List Byte) : Bool :=
  bits (le p 0 2) 10 6 != 0 || bit (byteAt p 2) 7 || decide (c.spf ≤ bits (byteAt p 2) 0 7) || bits (le p 4 2) 14 2 != 0 || !zeroRange p 6 10 ||
    (c.tx && le p 4 2 != 0)

/-- Reason 2 of an entry (R205, R243, R244, R259). -/
def PlanCfg.entryBad (c : PlanCfg) (e : List Byte) (a : Alloc) : Bool :=
  let q := codeParam a.decode
  let qms := if c.tx then [2, 4, 6, 8, 10, 12] else [1, 2, 4, 6, 8, 10]
  a.layers == 0 || decide (32 < a.layers) || decide (1 < a.path) || bits (le e 4 2) 9 7 != 0 || a.nprb == 0 || bits (le e 6 2) 9 7 != 0 ||
    decide (13 < a.sym0) || a.nsym == 0 || decide (14 < a.nsym) || !qms.contains a.qm || bits (byteAt e 9) 4 4 != 0 ||
    bits (le e 10 2) 14 2 != 0 || bits (byteAt e 12) 4 4 != 0 || bits (byteAt e 13) 5 3 != 0 || paramBad c.tx a.decode ||
    ruleBad q (graphOf c.tab q.graph) a.coded a.qm a.layers

/-- Reason 3 of an entry. -/
def PlanCfg.rangeBad (c : PlanCfg) (a : Alloc) : Bool :=
  decide (c.nprb < a.prb0 + a.nprb ∨ 14 < a.sym0 + a.nsym) || a.pilotMap == 0 || (List.range 14).any (fun s => a.pilotMap.testBit s && !a.syms.contains s)

/-- Reason 6 of an entry against the entries before it (R206, R207, R259). -/
def PlanCfg.layerBad (c : PlanCfg) (a : Alloc) (before : List Alloc) : Bool :=
  let g := before.filter a.overlaps
  let sum := g.foldl (fun (n : Nat) b => n + b.layers) a.layers
  (match patternOf c.pats a.ppat with
   | none => true
   | some p => decide (p.layers.length < a.layer0 + a.layers)) ||
    g.any (fun b => decide (a.layer0 < b.layer0 + b.layers ∧ b.layer0 < a.layer0 + a.layers)) || decide (32 < sum ∨ c.nport < sum) ||
    (c.tx && a.path == 1 && decide (c.nport < a.layer0 + a.layers))

/-- First position of a list at which a test of an entry and those before it fails. -/
def firstBad (f : Alloc → List Alloc → Bool) (l : List Alloc) : Option Nat :=
  (List.range l.length).find? (fun i => match l[i]? with | some a => f a (l.take i) | none => false)

/-- The entries of a plan. -/
def planEntries (p : List Byte) : List (List Byte) := (List.range (byteAt p 3)).map (fun i => (p.drop (16 + 32 * i)).take 32)

/-- Reasons 1 to 6 of R208: the lowest that fails with its entry number, 0xFF for the header; an entry is reported where it first breaks a rule against those before it (DEDUCED, log 26). -/
def PlanCfg.reason (c : PlanCfg) (p : List Byte) : Option (Nat × Nat) :=
  let es := planEntries p
  let l := es.map entryAlloc
  if p.length < 16 ∨ p.length ≠ 16 + 32 * byteAt p 3 then some (1, 0xFF)
  else if c.headBad p then some (2, 0xFF)
  else match es.findIdx? (fun e => c.entryBad e (entryAlloc e)) with
    | some i => some (2, i)
    | none =>
      match firstBad (fun a _ => c.rangeBad a) l with
      | some i => some (3, i)
      | none => match firstBad (fun a b => b.any (fun x => x.index == a.index)) l with
        | some i => some (4, i)
        | none => match firstBad (fun a b => b.any (fun x => a.overlaps x && !a.sameShape x)) l with
          | some i => some (5, i)
          | none => (firstBad (fun a b => c.layerBad a b) l).map (fun i => (6, i))

/-! ### Groups (R207, R210) -/

/-- Whether an allocation comes before another in the order of R210. -/
def Alloc.before (a b : Alloc) : Bool := decide (a.prb0 < b.prb0) || (a.prb0 == b.prb0 && decide (a.sym0 < b.sym0))

/-- Insertion behind everything that does not come later. -/
def insAlloc (a : Alloc) : List Alloc → List Alloc
  | [] => [a]
  | b :: l => if a.before b then a :: b :: l else b :: insAlloc a l

/-- The groups of accepted allocations, in the order of R210, each with its members in plan order. -/
def groupsOf (l : List Alloc) : List (List Alloc) :=
  let firsts := ((List.range l.length).zip l).filterMap (fun e => if (l.take e.1).any e.2.overlaps then none else some e.2)
  (firsts.foldl (fun a x => insAlloc x a) []).map (fun f => l.filter f.overlaps)

/-- Load of a group (R210). -/
def groupLoad (g : List Alloc) : Nat := match g with | a :: _ => a.nprb * a.nsym * g.foldl (fun (n : Nat) b => n + b.layers) 0 | [] => 0

/-- The frond with the least load so far; ties go to the lower number (R210). -/
def leastLoaded (loads : List (Fin 6 × Nat)) : Fin 6 :=
  match loads with
  | [] => 0
  | x :: l => (l.foldl (fun (b : Fin 6 × Nat) y => if y.2 < b.2 then y else b) x).1

/-- GROUP_ASSIGNMENT (R210): the frond of each group's first member. -/
def assignGroups (fronds : List (Fin 6)) (gs : List (List Alloc)) : List (Nat × Fin 6) :=
  (gs.foldl (fun (st : List (Fin 6 × Nat) × List (Nat × Fin 6)) g =>
    let f := leastLoaded st.1
    (st.1.map (fun e => if e.1 = f then (e.1, e.2 + groupLoad g) else e), st.2 ++ g.map (fun a => (a.index, f))))
    (fronds.map (fun f => (f, 0)), [])).2

/-- The allocations of a plan with their fronds. -/
def assigned (fronds : List (Fin 6)) (l : List Alloc) : List Alloc :=
  let m := assignGroups fronds (groupsOf l)
  l.map (fun a => { a with frond := match m.find? (fun e => e.1 == a.index) with | some e => e.2 | none => 0 })

/-! ### Control messages (R341, R342, R346, R347, R350) -/

/-- Sequence numbers of one PC_ID, or of one RTC_ID, received (R342): a gap counts and has no other effect. -/
def State.rxSequence (s : State) (p : Fin 4) (key seq : Nat) : State :=
  let s := match sget none s.fh.rxSeq key with
    | some n => if seq = (n + 1) % 256 then s else s.inc (Reg.FH_P_SEQ_GAP_CNT p)
    | none => s
  { s with fh := { s.fh with rxSeq := sset none s.fh.rxSeq key (some seq) } }

/-- An accepted frame of a link counts (R341), and its message's number is followed (R342). -/
def State.fhAccepted (s : State) (m : FhMsg) (ctl : Bool) : State :=
  let p := linkPort m.link.val
  let s := s.inc (Reg.FH_P_RX_FRAME_CNT p)
  s.rxSequence p (be m.body 0 2 + b2n ctl <<< 16) (byteAt m.body 2)

/-- Whether a frame's message reaches the device: its link is up and the ports are powered (R54, R341). -/
def State.fhLive (s : State) (m : FhMsg) : Bool :=
  decide (s.boot.phase = .started) && (s.g (Reg.FH_Pp_STS_LINK_UP (linkPort m.link.val))).testBit (m.link.val % 4)

/-- KIND of a control message (R342). -/
def ctlKind (m : FhMsg) : Nat := byteAt m.body 0

/-- A control message fails (R350): dropped, counted, EV_FH_CTL_BAD; why 1 KIND or reserved field, 2 sender, 3 R348. -/
def State.ctlBad (s : State) (m : FhMsg) (why : Nat) : State :=
  (s.inc (Reg.FH_P_CTL_BAD_CNT (linkPort m.link.val))).ev 0x0803 0x07 (ctlKind m + m.link.val <<< 8 + why <<< 12)

/-- Why a control message fails before its kind is served (R342, R346, R347, R350), 0 when it does not. Kinds with a control header have reserved bits there. -/
def State.ctlWhy (s : State) (m : FhMsg) : Nat :=
  let k := ctlKind m
  let plan := k == 1 || k == 2
  if (k < 1 ∨ k > 4) ∨ byteAt m.body 1 ≠ 0 ∨ byteAt m.body 3 ≠ 0x80 ∨ m.body.length < (if plan then 4 else 12) ∨
      (plan = false ∧ (bits (le m.body 4 2) 10 6 ≠ 0 ∨ bit (byteAt m.body 6) 7 = true)) then 1
  else if m.src ≠ s.macAddr then 2
  else 0

/-- A control message of a kind: accepted as a frame, then served unless it fails (R350). -/
def State.control (s : State) (m : FhMsg) (kind : Nat) (serve : State → State) : State :=
  if !s.fhLive m || ctlKind m != kind then s
  else
    let s := s.fhAccepted m true
    match s.ctlWhy m with
    | 0 => serve s
    | w => s.ctlBad m w

/-- PLAN_RSP (R346, R347): uplink 0 or downlink 1, reason, entry number. -/
def State.planRsp (s : State) (job dir reason entry sfn slot : Nat) : State :=
  s.fhSendAt job 0x11 sfn slot 0xFF [BitVec.ofNat 8 dir, BitVec.ofNat 8 reason, BitVec.ofNat 8 entry, 0]

/-- Whether a plan's carrier takes slots (R55, R208 reason 9, R390): ports, a job, RUN, time valid in domain A once, and for a job in domain B in that domain once. -/
def State.planOn (s : State) (job : Option Nat) (nport tdom : Nat) : Bool :=
  nport != 0 && job.isSome && s.inRun && s.domA.reached && (tdom == 0 || s.domB.reached)

end Sys2Proof.Machine
end

