-- ==== Sys2Proof/Machine/Memory.lean ====
section
/-!
DEFINITION. The memories (10): uncorrectable and corrected words (R303), the loft cache (R312, R313), granary atomics (R300, R125), the semaphore port (R299), retention of a bank (R306), the gleaner (R425 to R427).
-/
namespace Sys2Proof.Machine

open Sys2Proof (Byte Word Addr AmoOp BankRef EccState CtlRead)

/-! ### Which memory a word lies in (R301, R309, R316, R416) -/

/-- The leaf-store bank of an offset (R309); the 128 accumulator tiles lie in banks 24 to 31, sixteen after one another (PRESUMED, log 22). -/
def leafBankOf (o : Nat) : Nat :=
  if o < 0x500000 then lineBank (o / 128)
  else if o < 0x600000 then 20 + o / 128 % 4
  else 24 + (o - 0x600000) / 0x40000

/-- Where an ECC word lies: memory code, frond code and index as EV_MEM_UE gives them (R316), its location (R416), the SOURCE of its memory (R34). -/
structure WordAt where
  mem    : Nat
  frond  : Nat
  index  : Nat
  loc    : BitVec 24
  src    : Nat
  deriving DecidableEq, Repr

/-- The memory of an address; for the barn the loft cache when `loft` says so. -/
def State.wordAt (s : State) (a : Nat) (loft : Bool) : Option WordAt :=
  match s.region a with
  | .granary o => some ⟨1, 15, bankChannel (o / 0x40000), locCode 1 15 (o / 0x40000), 9⟩
  | .leaf f o => some ⟨if o < 0x600000 then 2 else 3, f, leafBankOf o, locCode 2 f (leafBankOf o), unitSrc f 5⟩
  | .sig f c _ => some ⟨4, f, c, locCode 4 f c, unitSrc f 2⟩
  | .barn o => if loft then some ⟨5, 15, o / 256 % 2, locCode 7 15 5, 10⟩ else some ⟨6, 15, o / 256 % 2, locCode 7 15 6, 10⟩
  | .reg | .none => none

/-- The counters and address registers of a memory after an uncorrectable word (R303); a controller's cache has none. -/
def State.ueRegs (s : State) (w : WordAt) (a : Nat) : State :=
  let lo := a % 4294967296
  let hi := a / 4294967296
  if w.mem = 1 then ((s.inc Reg.GRN_UE_CNT).p Reg.GRN_UE_ADDR_LO lo).p Reg.GRN_UE_ADDR_HI hi
  else if w.mem ≤ 4 then ((s.inc (Reg.LEAF_UE_CNT w.frond)).p (Reg.LEAF_UE_ADDR_LO w.frond) lo).p (Reg.LEAF_UE_ADDR_HI w.frond) hi
  else if w.mem = 7 then s
  else ((s.inc Reg.BRN_UE_CNT).p Reg.BRN_UE_ADDR_LO lo).p Reg.BRN_UE_ADDR_HI hi

/-- EV_MEM_UE of a word (R303, R316). -/
def State.ueEvent (s : State) (w : WordAt) (a : Nat) : State :=
  s.raise 0x0601 w.src (jobByte (s.locOwner w.loc)) (w.mem + w.frond <<< 4 + w.index <<< 8 + a <<< 16)

/-- UNCORRECTABLE_ERROR (R303): the word raises EV_MEM_UE, counts, is recorded, and stays poisoned; answers the location charged. A word already poisoned raises nothing again. -/
def State.memUe (s : State) (a : Nat) (loft : Bool) : State × Option WordAt :=
  match s.wordAt a loft with
  | none => (s, none)
  | some w =>
    let a := eccWord a
    if s.poison.contains a then (s, none) else (((s.ueRegs w a).setPoison a).ueEvent w a, some w)

/-- A corrected word counts in its memory and, for R421, at its location. -/
def State.memCe (s : State) (a : Nat) (loft : Bool) : State :=
  match s.wordAt a loft with
  | none => s
  | some w =>
    let s := if w.mem = 1 then s.inc Reg.GRN_CE_CNT else if w.mem ≤ 4 then s.inc (Reg.LEAF_CE_CNT w.frond) else s.inc Reg.BRN_CE_CNT
    if w.mem ≤ 4 then { s with flt := { s.flt with ce := sset 0 s.flt.ce w.loc.toNat (sget 0 s.flt.ce w.loc.toNat + 1) } } else s

/-- An uncorrectable word met by an agent of a job: it is classified (R418), and the job its location works for faults (R417). -/
def State.ueFault (s : State) (a : Nat) (loft : Bool) (testOk : Bool) : State :=
  match s.memUe a loft with
  | (s, none) => s
  | (s, some w) => s.hwFault w.loc 1 testOk 0x0601 w.src

/-! ### Loft cache (R312, R313) -/

/-- LOFT_MISS_FILL (R312, R313): an access that missed completes, and its line is allocated into the requester's ways; a line written is dirty; a word the barn corrects counts, one it cannot is poisoned (R303). A line held by now leaves nothing to do. -/
def execLoftMissFill (job : Option (Fin 16)) (off : Nat) (store : Bool) (ecc : EccState) (s : State) : Host.Outcome State Fault Refusal :=
  act (fun s =>
    let line := off / 256
    if off ≥ s.barnBytes || s.loftHas line then s
    else
      let s := (s.loftAccess (job.map (·.val)) line)
      let s := if store then { s with mems := { s.mems with loft := s.dirtied (brnBase + off) 1 } } else s
      match ecc with
      | .clean => s
      | .corrected => s.memCe (brnBase + off) false
      | .uncorrectable => s.ueFault (brnBase + off) false true) s

/-- BRN_WAY_MASK_WRITE (R313): the mask of the selected job, ignored when too wide or when it meets another job's. -/
def execBrnWayMaskWrite (agent : Byte) (val : Word) (s : State) : Host.Outcome State Fault Refusal :=
  act (fun s =>
    let m := bits val.toNat 0 16
    let j := s.g Reg.BRN_WAY_SEL
    let old := (sget 0 s.mems.ways j).toNat
    if !s.mayWrite agent.toNat .fw then (if m ≠ old ∨ val.toNat ≥ 65536 then s.ignore else s)
    else
      let s := if val.toNat ≥ 65536 then s.ignore else s
      if popCount 16 m > 8 || s.mems.ways.any (fun (e : Nat × BitVec 16) => e.1 != j && e.2.toNat &&& m != 0) || decide (j > 15) then s.ignore
      else s.setWays j (BitVec.ofNat 16 m)) s

/-! ### Atomics (R300, R125) -/

/-- SOURCE code of controller c: frond controllers 0 to 5, the system controller 6 (R34, R300). -/
def ctlSrc (c : Fin 7) : Nat := if c.val < 6 then unitSrc c.val 6 else 0

/-- What a controller's access to granary bytes meets (R297, R304): frond controllers are checked, the system controller reaches every bank that is on. -/
def State.amoAccess (s : State) (c : Fin 7) (a n : Nat) (write : Bool) : AccRes :=
  match s.region a with
  | .granary o =>
    if a % n ≠ 0 then .unmapped
    else match s.agentJob (ctlSrc c) with
      | some j => s.access (ctlSrc c) j a n write
      | none => if c.val = 6 ∧ s.bank (o / 0x40000) ≠ 0 ∧ s.bank (o / 0x40000) ≠ 3 then .ok else .unmapped
  | _ => .unmapped

/-- EV_DET_FORBIDDEN (R125): the atomic is not performed and the issuing job faults. -/
def State.detForbidden (s : State) (c : Fin 7) (kind : Nat) : State :=
  let job := s.agentJob (ctlSrc c)
  let s := s.raise 0x010A 9 (jobByte job) (ctlSrc c + kind <<< 8)
  match job with
  | some j => s.jobFault j 0x010A 9
  | none => s

/-- The new value of a word of `w` bits under an AMO of the RISC-V A extension. -/
def amoValue (op : AmoOp) (w old v : Nat) : Nat :=
  match op with
  | .swap | .sc => v
  | .add => (old + v) % 2 ^ w
  | .xor => old ^^^ v
  | .and => old &&& v
  | .or => old ||| v
  | .min => if sx w old ≤ sx w v then old else v
  | .max => if sx w old ≥ sx w v then old else v
  | .minu => min old v
  | .maxu => max old v
  | .lr => old

/-- The register result of an atomic as the words a controller receives: sign-extended from its width. -/
def amoResult (dw : Bool) (v : Nat) : List Word :=
  let x := if dw then v else toBits 64 (sx 32 v)
  [BitVec.ofNat 32 x, BitVec.ofNat 32 (x / 4294967296)]

/-- A value goes back to the issuer of an access (the model's log, log 4). -/
def State.answer (s : State) (l : List Word) : State := { s with readOut := s.readOut ++ l }

/-- An atomic that is performed (R300): the old value is returned when asked for; LR makes a reservation of its 32-byte word, SC stores only while its reservation lasts. -/
def State.amoDo (s : State) (c : Fin 7) (ret : Bool) (op : AmoOp) (a n v : Nat) : State :=
  let dw := n == 8
  let s := s.wakeRange a n
  let old := s.ldN a n
  let free := { s with mems := { s.mems with resv := s.mems.resv.filter (fun r => r.1 != c.val) } }
  match op with
  | .lr => ({ free with mems := { free.mems with resv := free.mems.resv ++ [(c.val, a / 32 * 32)] } }).answer (amoResult dw old)
  | .sc => if s.mems.resv.contains (c.val, a / 32 * 32) then (free.storeN a n v).answer (amoResult dw 0) else free.answer (amoResult dw 1)
  | _ =>
    let s := s.storeN a n (amoValue op (8 * n) old v)
    if ret then s.answer (amoResult dw old) else s

/-- Where a line of a controller's cache lies (R316, R416). -/
def ctlCache (c : Fin 7) : WordAt :=
  if c.val < 6 then ⟨7, c.val, 0, locCode 6 c.val 6, ctlSrc c⟩ else ⟨7, 15, 0, locCode 7 15 7, ctlSrc c⟩

/-- What a controller's access meets before it acts (R301, R303): a corrected word is repaired and counts; an uncorrectable one is poisoned; an uncorrectable line of its own cache is discarded and fetched again, or written back poisoned when it is dirty. The answer is the location charged, with the result of its test. -/
def State.ctlMeet (s : State) (c : Fin 7) (a : Nat) : CtlRead → State × Option (WordAt × Bool)
  | .clean => (s, none)
  | .corrected => (s.memCe a false, none)
  | .uncorrectable ok => let (s, w) := s.memUe a false; (s, w.map (fun w => (w, ok)))
  | .cacheLine dirty ok => ((if dirty then s.setPoison a else s).ueEvent (ctlCache c) (eccWord a), some (ctlCache c, ok))

/-- The hardware fault of what an access met, once the access is done (R417). -/
def State.ctlFault (s : State) : Option (WordAt × Bool) → State
  | none => s
  | some (w, ok) => s.hwFault w.loc 1 ok 0x0601 w.src

/-- GRANARY_AMO (R300): a controller's atomic, LR or SC performed at the granary bank; with DET = 1 a returning one is forbidden (R125); an access that R297 does not allow is unmapped, an LR as a read. -/
def execGranaryAmo (c : Fin 7) (ret : Bool) (op : AmoOp) (addr : Addr) (dw : Bool) (val : BitVec 64) (read : CtlRead) (s : State) : Host.Outcome State Fault Refusal :=
  act (fun s =>
    let n := if dw then 8 else 4
    let returns := ret || op == .lr || op == .sc
    let write := op != .lr
    match s.amoAccess c addr.toNat n write with
    | .ok =>
      if s.det && returns then s.detForbidden c 2
      else
        let (s, hit) := s.ctlMeet c addr.toNat read
        (s.amoDo c ret op addr.toNat n (val.toNat % 2 ^ (8 * n))).ctlFault hit
    | r =>
      let s := match s.agentJob (ctlSrc c) with
        | some j => s.refuse (ctlSrc c) j addr.toNat write r
        | none => s.unmapped (ctlSrc c) addr.toNat write
      if returns then s.answer [0, 0] else s) s

/-- The sum of two FP32 codes as the granary forms it, rounded once (R103, R300); the spec states no result with an infinite operand: free (log 5). -/
def State.faddSum (s : State) (a b : Nat) : Nat × State :=
  let f : FpFmt := ⟨8, 23, false, false⟩
  match f.decode false a, f.decode false b with
  | .inf _, _ | _, .inf _ => let (w, s) := s.free; (w.toNat, s)
  | x, y => ((f.encode (x.add y)).1, s)

/-- GRN_FADD (R300): a write of VAL by the set's own controller adds the value to the word at its address; any other agent's write is ignored; with DET = 1 it is forbidden (R125). -/
def execGrnFadd (agent : Byte) (c : Fin 7) (val : Word) (read : CtlRead) (s : State) : Host.Outcome State Fault Refusal :=
  act (fun s =>
    if agent.toNat ≠ ctlSrc c then s.ignore
    else
      let a := s.g64 (Reg.GRN_FADDc_ADDR_LO c.val) (Reg.GRN_FADDc_ADDR_HI c.val)
      match s.amoAccess c a 4 true with
      | .ok =>
        if s.det then s.detForbidden c 1
        else
          let (s, hit) := s.ctlMeet c a read
          let s := s.wakeRange a 4
          let (v, s) := s.faddSum (s.ldN a 4) val.toNat
          (s.storeN a 4 v).ctlFault hit
      | r => match s.agentJob (ctlSrc c) with
        | some j => s.refuse (ctlSrc c) j a true r
        | none => s.unmapped (ctlSrc c) a true) s

/-! ### Semaphore port (R139, R299) -/

/-- A post through the semaphore port: granary pairs only; one that would take the counter above 65,535 leaves it unchanged (R138, R139, R299). -/
def State.portPost (s : State) (k : Nat) (free : Bool) (n : Nat) : State :=
  if k < 0x400 then s else (s.post 0 k free n).getD s

/-- SEMAPHORE_PORT_POST (R139, R299): an agent's post to a granary pair. -/
def execSemaphorePortPost (_agent : Byte) (sem : BitVec 11) (side : Bool) (count : BitVec 16) (s : State) : Host.Outcome State Fault Refusal :=
  act (fun s => if s.inRun then s.portPost sem.toNat side count.toNat else s) s

/-! ### Retention (R306) -/

/-- Whether a bank in use enters RETENTION when it has served no access for 2 µs (R306). -/
def State.mayRetain (s : State) : BankRef → Bool
  | .granary b => s.bank b.val == 1 && !s.sysBank b.val && !s.on (Reg.GRN_CHn_BIND_NORET (bankChannel b.val))
  | .leaf f k => decide (k.val < 20) && (s.jobOf f.val).isSome
  | .sig f _ => (s.jobOf f.val).isSome

/-- BANK_RETENTION_ENTRY (R306): in RUN, a bank that has served no access for 2 µs enters RETENTION; system banks, the accumulator memory and the window never do. -/
def execBankRetentionEntry (b : BankRef) (s : State) : Host.Outcome State Fault Refusal :=
  act (fun s =>
    if s.inRun && s.mayRetain b then
      match b with
      | .granary b => s.setBank b.val 2
      | .leaf f k => s.setBank (leafBankKey f.val k.val) 2
      | .sig f c => s.setBank (leafBankKey f.val (32 + c.val)) 2
    else s) s

/-! ### The gleaner (R425 to R427) -/

/-- The bank the granary pass is at: the first from its position that is neither OFF nor MASKED (R427). -/
def State.gleanNext (s : State) (k : Nat) : Option Nat :=
  (List.range (1024 - k)).findSome? (fun i => if s.bank (k + i) = 1 ∨ s.bank (k + i) = 2 then some (k + i) else none)

/-- After the last word of a bank the pass goes on to the next bank in use; after the last bank the pass completes and counts, late when it took more than 60 s (R425 to R427). -/
def State.gleanOn (s : State) (o : Nat) : State :=
  if o % 0x40000 / 32 ≠ 8191 then s
  else match s.gleanNext (o / 0x40000 + 1) with
    | some b => { s with flt := { s.flt with gleanBank := b } }
    | none =>
      let late := decide (s.ticks - s.flt.gleanStart > 60000000000)
      let s := (s.inc Reg.FLT_GLEAN_PASS_CNT).addc Reg.FLT_GLEAN_LATE_CNT (b2n late)
      { s with flt := { s.flt with gleanBank := 0, gleanStart := s.ticks } }

/-- Whether the gleaner visits an address now: a granary bank only in its turn; a leaf store or signal-core memory of a bound frond; the barn and the loft cache lines held (R425, R427). -/
def State.gleanable (s : State) (a : Nat) (loft : Bool) : Bool :=
  match s.region a with
  | .granary o => s.gleanNext s.flt.gleanBank == some (o / 0x40000)
  | .leaf f _ => (s.jobOf f).isSome
  | .sig f _ _ => (s.jobOf f).isSome
  | .barn o => !loft || s.loftHas (o / 256)
  | .reg | .none => false

/-- GLEANER_VISIT (R427): the gleaner reads a word, waking its bank; a corrected word is repaired and counts, an uncorrectable one is poisoned and classified, and no job faults; the pass goes on. -/
def execGleanerVisit (addr : Addr) (loft : Bool) (ecc : EccState) (testOk : Bool) (s : State) : Host.Outcome State Fault Refusal :=
  act (fun s =>
    if !(s.inRun && s.gleanable addr.toNat loft) then s
    else
      let s := s.wakeRange addr.toNat 1
      let s := match ecc with
        | .clean => s
        | .corrected => s.memCe addr.toNat loft
        | .uncorrectable =>
          match s.memUe addr.toNat loft with
          | (s, none) => s
          | (s, some w) => s.classify w.loc 1 testOk
      match s.region addr.toNat with
      | .granary o => s.gleanOn o
      | _ => s) s

end Sys2Proof.Machine
end

