-- ==== Sys2Proof/Machine/ArrOps.lean ====
section
/-!
DEFINITION. The arithmetic of the cube array (03 R70 to R94, 04 R99 to R107): operands of a pass as the leaf store and the stationary registers hold them, the sum of one element, and the write to the accumulator.
-/
namespace Sys2Proof.Machine

open Sys2Proof (Byte Word)

/-! ### Formats (R73, R86) -/

/-- K step of an operand pair; none for a pair outside R73. -/
def kStep (a b : Nat) : Option Nat :=
  if (a = 0 ∧ b = 0) ∨ (a = 0 ∧ b = 1) ∨ (a = 6 ∧ (b = 6 ∨ b = 7)) then some 32
  else if (a = 1 ∧ b = 1) ∨ (a = 7 ∧ b = 7) then some 64
  else if (a = 2 ∨ a = 3) ∧ (b = 2 ∨ b = 3) then some 32
  else if (a = 4 ∧ b = 4) ∨ (a = 5 ∧ b = 5) then some 8
  else if a = 8 ∧ b = 8 then some 16
  else none

/-- Whether an element-wise pass may use a format (R94). -/
def ewFmt (a : Nat) : Bool := a == 0 || a == 2 || a == 3 || a == 4 || a == 5 || a == 6

/-- Bits of an element of a format; both components of a complex one. -/
def fmtBits (a : Nat) : Nat := if a = 1 ∨ a = 7 then 4 else if a = 4 ∨ a = 5 ∨ a = 8 then 16 else 8

/-- The floating-point layout of a format code. -/
def fmtFp (a : Nat) : Option FpFmt :=
  match a with
  | 2 => some fp8e4m3
  | 3 => some fp8e5m2
  | 4 => some bf16
  | 5 => some fp16
  | _ => none

/-- Accumulator type of a streamed format (R73, R80): 0 INT32, 1 FP32, 2 CI32, 3 INT32 of an INT4 stream, whose exactness limit differs (R109). -/
def accType (a : Nat) : Nat := if a = 0 then 0 else if a = 1 then 3 else if a = 8 then 2 else 1

/-- Element `i` of a packed row of codes: 4, 8 or 16 bits, lower index in the lower bits (R87). -/
def codeAt (w : Nat) (bs : List Byte) (i : Nat) : Nat := bits (le bs (w * i / 8) (ceilDiv w 8)) (w * i % 8) w

/-- A zero point of a command, as it is coded for a format (R85). -/
def zeroPoint (fmt z : Nat) : Int := if fmt = 1 then sx 4 z else sx 8 z

/-! ### Panes (R77, R98) -/

/-- Height of a pane in cube rows: one less where its rows include logical row 15 on a frond with a masked row (R98). -/
def State.paneH (s : State) (f : Nat) (c : PaneCfg) : Nat :=
  if s.on (Reg.ARR_SPARE_STS_MASKED f) && decide (c.i0 + c.h = 16) then c.h - 1 else c.h

/-- Leaf-store bytes of one streamed row (R73, R94). -/
def rowSize (c : PassCmd) (w : Nat) : Nat :=
  if c.op ≥ 2 then 4 * w * fmtBits c.fmtS / 8
  else if c.fmtS = 4 ∨ c.fmtS = 5 then 16 else 32

/-- Output columns of a pane counted as its N_VALID counts them. -/
def nLimit (c : PassCmd) (w : Nat) : Nat := if c.fmtS = 8 then 2 * w else 4 * w

/-- Leaf-store bytes of a stationary operand (R87). -/
def statSize (c : PassCmd) (w : Nat) : Nat := (kStep c.fmtS c.fmtT).getD 0 * nLimit c w * fmtBits c.fmtT / 8

/-- Leaf offset of a streamed row (R87). -/
def rowAt (c : PassCmd) (b r : Nat) : Nat := c.strm + (b * c.stride + r * c.pitch) * 32

/-- Rows of a block that are read and written: all 4H, or M_VALID in the last block (R88). -/
def rowsOf (c : PassCmd) (h b : Nat) : Nat := if b + 1 = c.blocks then c.mValid else 4 * h

/-- Real output columns that are written (R88). -/
def colsOf (c : PassCmd) : Nat := if c.fmtS = 8 then 2 * c.nValid else c.nValid

/-! ### Operands (R74, R75, R87, R88, R101) -/

/-- A streamed row's codes as integers, K step elements: CI8 has its real and imaginary parts in turn. Elements at K_VALID or above are ZP_S. -/
def sInts (c : PassCmd) (k : Nat) (row : List Byte) : List Int :=
  if c.fmtS = 8 then
    (List.range (2 * k)).map (fun i => if i / 2 < c.kValid then sx 8 (codeAt 8 row i) else 0)
  else
    let w := fmtBits c.fmtS
    (List.range k).map (fun i => if i < c.kValid then sx w (codeAt w row i) else zeroPoint c.fmtS c.zpS)

/-- The stationary element of K index `i` and output column `n`: its place in the operand (R87). -/
def tIndex (c : PassCmd) (k w i n : Nat) : Nat := if c.transT then n * k + i else i * nLimit c w + n

/-- The stationary integers that meet real output column `n` (R74): CI8 builds its real block from B, or from its conjugate with CONJ_T. Elements outside K_VALID and N_VALID are ZP_T. -/
def tInts (c : PassCmd) (k w : Nat) (bs : List Byte) (n : Nat) : List Int :=
  if c.fmtS = 8 then
    (List.range (2 * k)).map (fun i =>
      if i / 2 < c.kValid ∧ n / 2 < c.nValid then
        let p := tIndex c k w (i / 2) (n / 2)
        let re := sx 8 (codeAt 8 bs (2 * p))
        let im := (if c.conjT then -1 else 1) * sx 8 (codeAt 8 bs (2 * p + 1))
        match i % 2, n % 2 with
        | 0, 0 => re
        | 0, _ => im
        | _, 0 => -im
        | _, _ => re
      else 0)
  else
    let b := fmtBits c.fmtT
    (List.range k).map (fun i =>
      if i < c.kValid ∧ n < c.nValid then sx b (codeAt b bs (tIndex c k w i n)) else zeroPoint c.fmtT c.zpT)

/-- A streamed row's floating-point values (R101). -/
def sNums (F : FpFmt) (c : PassCmd) (k : Nat) (row : List Byte) : List Num :=
  (List.range k).map (fun i => if i < c.kValid then F.arrayNum (codeAt F.width row i) else .fin false 0 0)

/-- The stationary's floating-point values of output column `n`. -/
def tNums (F : FpFmt) (c : PassCmd) (k w : Nat) (bs : List Byte) (n : Nat) : List Num :=
  (List.range k).map (fun i =>
    if i < c.kValid ∧ n < c.nValid then F.arrayNum (codeAt F.width bs (tIndex c k w i n)) else .fin false 0 0)

/-! ### Sums (R70, R76, R104) -/

/-- Exact sum of products. -/
def dotI (a b : List Int) : Int := (List.zipWith (· * ·) a b).foldl (· + ·) 0

/-- Exact products. -/
def prods (a b : List Num) : List Num := List.zipWith Num.mul a b

/-- Exact sum of numbers in order. -/
def sumN : List Num → Num
  | [] => .fin false 0 0
  | x :: l => l.foldl Num.add x

/-- One level of the K tree: each adder rounds the sum of a pair to FP32 (R104). -/
def treeLevel : List Num → List Num
  | a :: b :: l => ofF32 (toF32 (a.add b)) :: treeLevel l
  | l => l

/-- The K tree over eight layers: 8 to 4, 4 to 2, 2 to 1 (R70). -/
def kTree (l : List Num) : Nat := toF32 ((treeLevel (treeLevel (treeLevel l))).headD (.fin false 0 0))

/-- The groups of `n` consecutive products, one for each layer. -/
def layers (n : Nat) (l : List Num) : List (List Num) := (List.range 8).map (fun i => (l.drop (n * i)).take n)

/-- FP32 sum of floating-point products (R104): in an FP8 pass each layer's four products are summed exactly and rounded once; a BF16 or FP16 layer has one product. -/
def fpSum (fmt : Nat) (p : List Num) : Nat :=
  if fmt = 4 ∨ fmt = 5 then kTree p else kTree ((layers 4 p).map (fun g => ofF32 (toF32 (sumN g))))

/-- An exact integer partial scaled by block shifts, rounded once to FP32 (R75, R104). -/
def bsPart (v : Int) (shift : Int) : Nat := toF32 (Num.scaled v shift)

/-- Base of the shift map entry of a block at a leaf offset (R157). -/
def State.shiftAt (s : State) (f fmt a : Nat) : Nat :=
  leafBase f + (if fmt = 6 then s.g (Reg.STR_BS_MAP_SB8 f) * 4096 + a / 32 else s.g (Reg.STR_BS_MAP_SB4 f) * 4096 + a / 16) % 0x800000

/-- Where the shifts of a streamed row lie: one for each of its blocks (R157); none outside the block-scaled formats. -/
def State.rowShiftsAt (s : State) (f fmt a size : Nat) : List Nat :=
  if fmt = 6 ∨ fmt = 7 then (List.range (ceilDiv size (if fmt = 7 then 16 else 32))).map (fun i => s.shiftAt f fmt (a + (if fmt = 7 then 16 else 32) * i)) else []

/-- The shift of the block at a leaf offset (R157). -/
def State.shiftOf (s : State) (f fmt a : Nat) : Int := sx 8 (s.ld1 (s.shiftAt f fmt a)).toNat

/-- The sum of one output element: an integer modulo 2^32, or an FP32 code (R73 to R76, R104). `srow` holds the row's bytes, `sshift` the shifts of its blocks. -/
def elemSum (c : PassCmd) (k w : Nat) (srow : List Byte) (sshift : List Int) (t : StatReg) (n : Nat) : Nat :=
  match fmtFp c.fmtS, fmtFp c.fmtT with
  | some F, some G =>
    fpSum c.fmtS (prods (sNums F c k srow) (tNums G c k w t.bytes n))
  | _, _ =>
    let a := sInts c k srow
    let b := tInts c k w t.bytes n
    let sh := fun (i : Nat) => sx 8 (t.shifts.getD i 0).toNat
    if c.fmtS = 6 then bsPart (dotI a b) (sshift.getD 0 0 + sh n)
    else if c.fmtS = 7 then
      addF32 (bsPart (dotI (a.take 32) (b.take 32)) (sshift.getD 0 0 + sh (2 * n)))
        (bsPart (dotI (a.drop 32) (b.drop 32)) (sshift.getD 1 0 + sh (2 * n + 1)))
    else toBits 32 (dotI a b)

/-- The sum joins the accumulator element: integers modulo 2^32, FP32 rounded (R103, R104). -/
def accAdd (fmtS old v : Nat) : Nat := if accType fmtS = 1 then addF32 old v else (old + v) % 4294967296

/-! ### Element-wise (R94) -/

/-- The streamed element `n` of an element-wise row: an exact value. A BS8 element takes the shift of its run of 32. -/
def ewNum (c : PassCmd) (row : List Byte) (sshift : List Int) (n : Nat) : Num :=
  match fmtFp c.fmtS with
  | some F => F.arrayNum (codeAt F.width row n)
  | none =>
    if c.fmtS = 6 then Num.scaled (sx 8 (codeAt 8 row n)) (sshift.getD (n / 32) 0) else Num.ofInt (sx 8 (codeAt 8 row n))

/-- The tile element after an element-wise operation. An integer product saturates (R103, DEDUCED, log 21); an integer sum is an accumulation, modulo 2^32. -/
def ewElem (c : PassCmd) (old : Nat) (row : List Byte) (sshift : List Int) (n : Nat) : Nat :=
  let x := ewNum c row sshift n
  if accType c.fmtS = 1 then toF32 (if c.op = 2 then (ofF32 old).mul x else (ofF32 old).add x)
  else
    let y := sx 8 (codeAt 8 row n)
    if c.op = 2 then toBits 32 (satS 32 (sx 32 old * y)) else toBits 32 (sx 32 old + y)

/-! ### Writing a block (R80, R88, R89, R107) -/

/-- Device address of a tile element (R309). -/
def accAddr (f t r c : Nat) : Nat := leafBase f + 0x600000 + t * 0x4000 + r * 256 + c * 4

/-- Key of a cell's correction state. -/
def cellKey (t i j : Nat) : Nat := 256 * t + 16 * i + j

/-- Correction state of a cell. -/
def State.cell (s : State) (f : Fin 6) (t i j : Nat) : Cell := sget Cell.zero (s.fr f).cells (cellKey t i j)

/-- The state with a cell's correction state set. -/
def State.setCell (s : State) (f : Fin 6) (t i j : Nat) (x : Cell) : State :=
  s.modFr f (fun y => { y with cells := sset Cell.zero y.cells (cellKey t i j) x })

/-- The tile a block writes (R85). -/
def tileOf (c : PassCmd) (b : Nat) : Nat := if c.accInc then c.tile + b else c.tile

/-- Whether a block replaces the tile's contents: the first block of an MM_SET that writes the tile (R89). -/
def blockSets (c : PassCmd) (b : Nat) : Bool := c.op == 1 && (c.accInc || b == 0)

/-- A row sum after a block: replaced or added, modulo 2^32; untouched outside the write mask (R107). -/
def rowSum (set : Bool) (rows : List (Option Int)) (i : Nat) (old : Word) : Word :=
  match rows.getD i none with
  | none => old
  | some v => BitVec.ofInt 32 (if set then v else old.toInt + v)

/-- A cell's correction state after a block of a matrix pass (R107, R110): `rows` holds the row sums of the cell's four rows that the mask lets through. -/
def Cell.step (x : Cell) (c : PassCmd) (k : Nat) (set : Bool) (rows : List (Option Int)) : Cell :=
  let zs := BitVec.ofInt 8 (zeroPoint c.fmtS c.zpS)
  let zt := BitVec.ofInt 8 (zeroPoint c.fmtT c.zpT)
  { r0 := rowSum set rows 0 x.r0, r1 := rowSum set rows 1 x.r1, r2 := rowSum set rows 2 x.r2, r3 := rowSum set rows 3 x.r3
    nk := if set then BitVec.ofNat 32 k else x.nk + BitVec.ofNat 32 k
    zs := if set then zs else x.zs
    zt := if set then zt else x.zt
    mix := if set then false else x.mix || x.zs != zs || x.zt != zt
    ty := accType c.fmtS }

/-- The row sum of a block's row (R107): the codes fed, as integers; floating-point rows have none. -/
def rowCodes (c : PassCmd) (k : Nat) (row : List Byte) : Int :=
  match fmtFp c.fmtS with
  | some _ => 0
  | none => (sInts c k row).foldl (· + ·) 0

/-- What one block needs of the leaf store, row by row: bytes and block shifts. -/
def State.blockRows (s : State) (f : Nat) (c : PassCmd) (w n b : Nat) : List (List Byte × List Int) :=
  let size := rowSize c w
  let step := if c.fmtS = 7 then 16 else 32
  (List.range n).map (fun r =>
    let a := rowAt c b r
    (s.ld (leafBase f + a) size,
      if c.fmtS = 6 ∨ c.fmtS = 7 then (List.range (ceilDiv size step)).map (fun i => s.shiftOf f c.fmtS (a + step * i)) else []))

/-- The elements of one block are written, row by row and column by column. -/
def State.blockWrite (s : State) (f : Fin 6) (t i0 j0 : Nat) (rows : List (List Byte × List Int)) (cols : Nat)
    (g : Nat → List Byte × List Int → Nat → Nat) : State :=
  rows.zipIdx.foldl (fun s e =>
    (List.range cols).foldl (fun s n =>
      let a := accAddr f t (4 * i0 + e.2) (4 * j0 + n)
      s.stN a 4 (g (s.ldN a 4) e.1 n)) s) s

/-- The correction state of the cells that a block wrote (R107). -/
def State.blockCells (s : State) (f : Fin 6) (t i0 j0 : Nat) (c : PassCmd) (k : Nat) (set : Bool) (sums : List Int) (cols : Nat) : State :=
  (List.range (ceilDiv sums.length 4)).foldl (fun s i =>
    (List.range (ceilDiv cols 4)).foldl (fun s j =>
      s.setCell f t (i0 + i) (j0 + j)
        ((s.cell f t (i0 + i) (j0 + j)).step c k set ((List.range 4).map (fun r => sums[4 * i + r]?)))) s) s

/-- One block of a matrix pass (R72 to R76, R88, R89); `zero`: the block counts as zero (R158). -/
def State.mmBlock (s : State) (f : Fin 6) (p : PaneCfg) (h : Nat) (c : PassCmd) (t : StatReg) (zero : Bool) (b : Nat) : State :=
  let k := (kStep c.fmtS c.fmtT).getD 0
  let rows := s.blockRows f c p.w (rowsOf c h b) b
  let set := blockSets c b
  let tile := tileOf c b
  let s' := s.blockWrite f tile p.i0 p.j0 rows (colsOf c) (fun old e n =>
    let v := if zero then 0 else elemSum c k p.w e.1 e.2 t n
    if set then v else accAdd c.fmtS old v)
  s'.blockCells f tile p.i0 p.j0 c k set (rows.map (fun e => if zero then 0 else rowCodes c k e.1)) (colsOf c)

/-- One block of an element-wise pass (R94); the correction state stays (DEDUCED, log 21), the region takes the pass's accumulator type (R80). `zero`: the streamed block counts as zero (R158). -/
def State.ewBlock (s : State) (f : Fin 6) (p : PaneCfg) (h : Nat) (c : PassCmd) (zero : Bool) (b : Nat) : State :=
  let rows := (s.blockRows f c p.w (rowsOf c h b) b).map (fun e => if zero then (e.1.map (fun _ => 0#8), e.2) else e)
  let tile := tileOf c b
  let s' := s.blockWrite f tile p.i0 p.j0 rows c.nValid (fun old e n => ewElem c old e.1 e.2 n)
  (List.range (ceilDiv rows.length 4)).foldl (fun s i =>
    (List.range (ceilDiv c.nValid 4)).foldl (fun s j =>
      s.setCell f tile (p.i0 + i) (p.j0 + j) { s.cell f tile (p.i0 + i) (p.j0 + j) with ty := (if accType c.fmtS = 0 ∧ (s.cell f tile (p.i0 + i) (p.j0 + j)).ty = 3 then 3 else accType c.fmtS) }) s) s'

/-- Whether a block reads a poisoned word: a streamed row or a shift of it, or an accumulator element that it adds to or changes (R303). -/
def State.blockPoison (s : State) (f : Fin 6) (p : PaneCfg) (h : Nat) (c : PassCmd) (b : Nat) : Bool :=
  if s.poison.isEmpty then false
  else (List.range (rowsOf c h b)).any (fun r =>
    s.poisoned (leafBase f + rowAt c b r) (rowSize c p.w) ||
      (s.rowShiftsAt f c.fmtS (rowAt c b r) (rowSize c p.w)).any (fun a => s.poisoned a 1) ||
      (!blockSets c b && s.poisoned (accAddr f (tileOf c b) (4 * p.i0 + r) (4 * p.j0)) (4 * colsOf c)))

end Sys2Proof.Machine
end

