-- ==== Sys2Proof/Machine/StreamState.lean ====
section
/-!
DEFINITION. The state of a stream (05 R131, R136), how one starts, and the lists that the library tiler writes and starts at job start and after a restart (R130, R329).
-/
namespace Sys2Proof.Machine

open Sys2Proof (Byte Word DescInit GraphInfo)

/-- One stream of a frond. -/
def State.strm (s : State) (f : Fin 6) (n : Fin 32) : Stream := (s.fr f).streams.get n

/-- The state with one stream changed. -/
def State.modStrm (s : State) (f : Fin 6) (n : Fin 32) (g : Stream → Stream) : State :=
  s.modFr f (fun x => { x with streams := x.streams.set n (g (x.streams.get n)) })

/-! ### State of a stream -/

/-- STATE of a stream (R136's register): 0 IDLE, 1 RUN, 2 WAIT, 3 DONE, 4 ACC_SHORT, 5 ERR, 6 ABORTED. -/
def State.strSt (s : State) (f : Fin 6) (n : Fin 32) : Nat := s.g (Reg.STR_Sn_STS_STATE f n)

/-- The state with a stream's STATE set; RUN reads 1 in RUN and WAIT, and outside WAIT nothing is waited on. -/
def State.setStrSt (s : State) (f : Fin 6) (n : Fin 32) (c : Nat) : State :=
  let s := (s.p (Reg.STR_Sn_STS_STATE f n) c).p (Reg.STR_Sn_CTL_RUN f n) (b2n (c == 1 || c == 2))
  if c = 2 then s
  else
    ((s.p (Reg.STR_Sn_STS_WKIND f n) 0).p (Reg.STR_Sn_STS_WOBJ f n) 0).modStrm f n (fun x => { x with waitAt := none, reports := 0 })

/-- Global stream number (R131). -/
def gStream (f : Fin 6) (n : Fin 32) : Nat := 32 * f.val + n.val

/-- One bit of a sticky register set. -/
def State.stick (s : State) (F : Fld) (n : Nat) : State := s.p F (s.g F ||| 1 <<< n)

/-! ### Starting (R131, R136) -/

/-- A stream starts at a list: descriptors still in flight from before stay. -/
def State.startStream (s : State) (f : Fin 6) (n : Fin 32) (head : Nat) : State :=
  let s := (s.setStrSt f n 1).modStrm f n (fun x => { x with fetched := [], next := head, ended := false, rep := 0, repAt := 0, aborting := false })
  ((s.p (Reg.STR_Sn_STS_ERR f n) 0).p (Reg.STR_Sn_POS f n) head).p (Reg.STR_Sn_CTL_HEAD f n) head

/-! ### The tiler's lists (R130, R329) -/

/-- One descriptor goes into the granary space of its job, as the frond controller writes it (R29, R297). -/
def State.putDesc (s : State) (j : Nat) (x : DescInit) : State :=
  let a := grnBase + 32 * x.place.toNat
  match s.access (unitSrc x.frond 6) j a 32 true with
  | .ok => s.store a (toLE 32 x.desc.toNat)
  | r => s.refuse (unitSrc x.frond 6) j a true r

/-- The descriptor lists of a job, as the tiler produces them at job start (R130). -/
def State.writeLists (s : State) (j : Nat) : State :=
  match s.graph j with
  | none => s
  | some g => g.descriptors.foldl (fun t x => t.putDesc j x) s

/-- The places at which a job's streams on a frond start: the first descriptor listed of each (DEDUCED, log 23). -/
def streamHeads (g : GraphInfo) (f : Fin 6) : List (Fin 32 × Nat) :=
  (List.finRange 32).filterMap (fun n => (g.descriptors.find? (fun x => x.frond == f && x.stream == n)).map (fun x => (n, x.place.toNat)))

/-- A job's streams on a frond start (R329). -/
def State.startLists (s : State) (j : Nat) (f : Fin 6) : State :=
  match s.graph j with
  | none => s
  | some g => (streamHeads g f).foldl (fun t e => t.startStream f e.1 e.2) s

/-- What the frond controllers' firmware does once a job is ready (R130, R137, R329): semaphores restored, the lists written, streams started on the fronds that work for it. -/
def State.startJob (s : State) (j : Nat) : State :=
  let s := (s.restoreSems j).writeLists j
  (s.heldFronds j).foldl (fun t f => t.startLists j f) s

end Sys2Proof.Machine
end

