-- ==== Sys2Proof/Machine/Array.lean ====
section
/-!
DEFINITION. The cube array (03): pane plans, dispatch, stationary loads, passes, completion.
-/
namespace Sys2Proof.Machine

open Sys2Proof (Byte Word PassCheck PassRep TagCheck)

/-- The array of a frond changed. -/
def State.modArr (s : State) (f : Fin 6) (g : Arr → Arr) : State := s.modFr f (fun x => { x with arr := g x.arr })

/-- One pane of a frond. -/
def State.pane (s : State) (f : Fin 6) (p : Fin 32) : Pane := (s.fr f).arr.panes.get p

/-- The state with one pane changed; PANE_BUSY follows (R96's register). -/
def State.modPane (s : State) (f : Fin 6) (p : Fin 32) (g : Pane → Pane) : State :=
  let x := g (s.pane f p)
  let busy := !x.queue.isEmpty || !x.ran.isEmpty
  let s := s.modArr f (fun a => { a with panes := a.panes.set p x })
  s.p (⟨(Reg.ARR_STS f).addr, p.val, 1⟩ : Fld) (b2n busy)

/-! ### Pane plans (R77 to R79) -/

/-- PANE_PLAN_APPLY (R78): a write of 1 to APPLY captures the plan and stops dispatch; it has no effect while APPLY reads 1. -/
def execPanePlanApply (agent : Byte) (f : Fin 6) (val : Word) (s : State) : Host.Outcome State Fault Refusal :=
  act (fun s => s.guard agent.toNat (Reg.ARR_PANE_APPLY_APPLY f).addr true (fun s =>
    let was := s.on (Reg.ARR_PANE_APPLY_APPLY f)
    let take := s.mayWrite agent.toNat .fw && val.getLsbD 0
    let s := (s.writeFields agent.toNat (Reg.ARR_PANE_APPLY_APPLY f).addr val.toNat).p (Reg.ARR_PANE_APPLY_APPLY f) (b2n (was || take))
    if take && !was then
      s.modArr f (fun a => { a with captured := some ((List.range 32).map (fun n => (s.reg (Reg.ARR_PANE_CFGp_I0 f n).addr).toNat)) })
    else s)) s

/-- The pane of a configuration word (R79's register). -/
def paneOf (w : Nat) : PaneCfg := ⟨bits w 0 4, 2 ^ bits w 4 3, bits w 8 4, 2 ^ bits w 12 3⟩

/-- Whether two panes share a cube. -/
def PaneCfg.meets (a b : PaneCfg) : Bool :=
  decide (a.i0 < b.i0 + b.h ∧ b.i0 < a.i0 + a.h ∧ a.j0 < b.j0 + b.w ∧ b.j0 < a.j0 + a.w)

/-- The lowest code of R79 that applies to an enabled pane, given the enabled panes of lower number. -/
def planCode (masked : Bool) (lower : List PaneCfg) (w : Nat) : Nat :=
  let c := paneOf w
  if bits w 4 3 > 4 ∨ bits w 12 3 > 4 then 1
  else if c.i0 % c.h ≠ 0 ∨ c.j0 % c.w ≠ 0 then 2
  else if c.h * c.w < 8 then 3
  else if lower.any (fun d => d.meets c) then 4
  else if masked ∧ c.h = 1 ∧ c.i0 = 15 then 5
  else if w.testBit 7 ∨ w.testBit 15 ∨ bits w 17 15 ≠ 0 then 6
  else 0

/-- The plan check (R79): the first failing pane with its code, or none; `lower` holds the enabled panes already passed. -/
def planFail (masked : Bool) : List PaneCfg → List (Nat × Nat) → Option (Nat × Nat)
  | _, [] => none
  | lower, (n, w) :: l =>
    if !w.testBit 16 then planFail masked lower l
    else
      let code := planCode masked lower w
      if code ≠ 0 then some (n, code) else planFail masked (lower ++ [paneOf w]) l

/-- PANE_PLAN_INSTALL (R78): once every pass dispatched under the old plan is complete, the captured plan is checked and installed, or rejected. -/
def execPanePlanInstall (f : Fin 6) (s : State) : Host.Outcome State Fault Refusal :=
  act (fun s =>
    let a := (s.fr f).arr
    match a.captured with
    | none => s
    | some ws =>
      if a.panes.toList.any (fun p => !p.queue.isEmpty || !p.ran.isEmpty) then s
      else
        let s := (s.modArr f (fun a => { a with captured := none })).p (Reg.ARR_PANE_APPLY_APPLY f) 0
        match planFail (s.on (Reg.ARR_SPARE_STS_MASKED f)) [] ((List.range 32).zip ws) with
        | some (n, code) =>
          let s := ((s.p (Reg.ARR_PANE_APPLY_ERR f) 1).p (Reg.ARR_PANE_APPLY_ERR_PANE f) n).p (Reg.ARR_PANE_APPLY_ERR_CODE f) code
          s.raise 0x0105 (unitSrc f 0) (jobByte (s.jobOf f)) (n + code <<< 8)
        | none =>
          let s := s.modArr f (fun a => { a with panes := Vector.ofFn (fun (i : Fin 32) =>
            let w := ws.getD i.val 0
            { Pane.empty with cfg := if w.testBit 16 then some (paneOf w) else none }) })
          ((s.p (Reg.ARR_PANE_APPLY_ERR f) 0).p (Reg.ARR_PANE_APPLY_ERR_PANE f) 0).p (Reg.ARR_PANE_APPLY_ERR_CODE f) 0) s

/-! ### Dispatch (R84, R90) -/

/-- Whether bytes of the leaf store from an offset lie outside it or in the accumulator memory (R90 code 4). -/
def outsideLeaf (a n : Nat) : Bool := decide (a + n > 0x600000)

/-- The streamed rows that a pass reads lie beyond the general store and window (R90 code 4). -/
def strmBad (c : PassCmd) (w h : Nat) : Bool :=
  c.strm % 32 != 0 || decide (c.strm ≥ 0x800000) || outsideLeaf (rowAt c (c.blocks - 1) (c.mValid - 1)) (rowSize c w) ||
    (decide (c.blocks ≥ 2) && outsideLeaf (rowAt c (c.blocks - 2) (4 * h - 1)) (rowSize c w))

/-- Whether an element-wise command breaks R94. -/
def ewBad (c : PassCmd) (w : Nat) : Bool :=
  decide (c.op ≥ 2) && (c.fmtS != c.fmtT || c.newstat || c.conjT || c.transT || !ewFmt c.fmtS || (c.fmtS == 6 && decide (w < 8)))

/-- Whether a zero point is set in a format without one; ZP_T is ignored element-wise (R88, R94). -/
def zpBad (c : PassCmd) : Bool :=
  (decide (c.fmtS > 1) && c.zpS != 0) || (decide (c.op < 2 ∧ c.fmtT > 1) && c.zpT != 0)

/-- The lowest code of R90 that applies to a pass command; 0 for none. BLOCKS above 4,096 takes code 5 whatever ACC_INC is: R85 shuts it out, and R90's table names no code for it with ACC_INC 0 (DESIGN CHOICE, log 21). -/
def State.passCode (s : State) (f : Fin 6) (c : PassCmd) : Nat :=
  let x := s.pane f (Fin.ofNat 32 c.pane)
  if c.op > 3 then 1
  else if c.fmtS > 8 ∨ c.fmtT > 8 ∨ kStep c.fmtS c.fmtT = none then 2
  else match x.cfg with
    | none => 3
    | some p =>
      let h := s.paneH f p
      if strmBad c p.w h || c.stat % 64 != 0 || decide (c.stat ≥ 0x800000) || (c.newstat && outsideLeaf c.stat (statSize c p.w)) then 4
      else if c.blocks = 0 ∨ c.blocks > 4096 ∨ c.tile > 127 ∨ (c.accInc = true ∧ c.tile + c.blocks - 1 > 127) then 5
      else if c.mValid = 0 ∨ c.mValid > 4 * h ∨ c.nValid = 0 ∨ c.nValid > nLimit c p.w ∨
        (c.op < 2 ∧ (c.kValid = 0 ∨ c.kValid > (kStep c.fmtS c.fmtT).getD 0)) then 6
      else if c.rsvd || zpBad c || (c.conjT && c.fmtS != 8) then 7
      else if ewBad c p.w then 8
      else if c.op < 2 ∧ c.newstat = false ∧ x.everMM = false then 9
      else if c.pitch * 32 < rowSize c p.w then 10
      else 0

/-- Whether no command dispatched before is still to complete. -/
def State.arrDrained (s : State) (f : Fin 6) : Bool := (s.fr f).arr.panes.toList.all (fun p => p.queue.isEmpty && p.ran.isEmpty)

/-- After a rejected command the job faults, once the commands dispatched before it are complete (R90). -/
def State.rejectFault (s : State) (f : Fin 6) : State :=
  if (s.fr f).arr.halted && s.arrDrained f then s.frondFault f 0x0106 (unitSrc f 0) else s

/-- PASS_COMMAND_REJECT (R90): the first rejected command since the JOB reset is recorded, dispatch stops, and the job faults when the commands dispatched before are complete. -/
def State.passReject (s : State) (f : Fin 6) (c : PassCmd) (code : Nat) : State :=
  let s := s.modArr f (fun a => { a with halted := true })
  let s := if s.g (Reg.ARR_CMD_ERR_CODE f) = 0 then
      ((s.p (Reg.ARR_CMD_ERR_CODE f) code).p (Reg.ARR_CMD_ERR_PANE f) c.pane).p (Reg.ARR_CMD_ERR_SEQ_LO f) c.seq
    else s
  (s.raise 0x0106 (unitSrc f 0) (jobByte (s.jobOf f)) (code + c.pane <<< 4 + c.seq <<< 32)).rejectFault f

/-- PASS_DISPATCH (R84): the head command goes to its pane's queue of 4, or is rejected (R90); dispatch waits while the pane's queue is full or a plan is being applied. For code 9 a matrix pass counts as run in the pane from its dispatch on, since the pane runs its commands in order (DESIGN CHOICE, log 21). -/
def execPassDispatch (f : Fin 6) (s : State) : Host.Outcome State Fault Refusal :=
  act (fun s =>
    let a := (s.fr f).arr
    match a.queue with
    | [] => s
    | c :: q =>
      if a.halted || a.captured.isSome then s
      else
        let code := s.passCode f c
        let p := Fin.ofNat 32 c.pane
        if code ≠ 0 then (s.modArr f (fun a => { a with queue := q })).passReject f c code
        else if (s.pane f p).queue.length ≥ 4 then s
        else
          (s.modArr f (fun a => { a with queue := q })).modPane f p (fun x =>
            { x with queue := x.queue ++ [c], everMM := x.everMM || decide (c.op < 2) })) s

/-! ### Stationary loads (R81, R83, R91 to R93) -/

/-- Whether the pane's current pass may still run a block: its next matrix command continues it (R91). -/
def Pane.curInUse (x : Pane) : Bool :=
  match x.queue.find? (fun c => decide (c.op < 2)) with
  | some c => !c.newstat
  | none => false

/-- The command whose stationary is loaded next, when a register is free for it: at most two passes hold one (R92). -/
def Pane.nextLoad (x : Pane) : Option PassCmd :=
  if x.loaded.length + b2n x.curInUse ≥ 2 then none
  else (x.queue.filter (fun c => c.newstat))[x.loaded.length]?

/-- Where the shifts of a stationary of a block-scaled format lie (R157). -/
def State.statShiftsAt (s : State) (f : Nat) (c : PassCmd) (w : Nat) : List Nat :=
  if c.fmtT = 6 ∨ c.fmtT = 7 then
    let n := 4 * w * (if c.fmtS = 7 then 2 else 1)
    let step := if c.fmtT = 6 then 32 else 16
    (List.range n).map (fun j => s.shiftAt f c.fmtT (c.stat + step * j))
  else []

/-- STATIONARY_LOAD (R91 to R93): the stationary of the next new pass is loaded into the free register and takes that pass's tag; cycles held back and waits for lanes and banks count (R83, R92, R310). -/
def execStationaryLoad (f : Fin 6) (p : Fin 32) (hold laneWait bankConf : Nat) (s : State) : Host.Outcome State Fault Refusal :=
  act (fun s =>
    let x := s.pane f p
    match x.cfg, x.nextLoad with
    | some g, some c =>
      let size := statSize c g.w
      let sh := s.statShiftsAt f c g.w
      let t : StatReg := ⟨x.nextTag, s.ld (leafBase f + c.stat) size, sh.map s.ld1, s.poisoned (leafBase f + c.stat) size || sh.any (fun a => s.poisoned a 1)⟩
      let s := sh.foldl (fun t a => t.wakeRange a 1) (s.wakeRange (leafBase f + c.stat) size)
      let s := ((s.addc (Reg.ARR_STAT_HOLD_CNT f) hold).addc (Reg.ARR_LANE_WAIT_CNT f) (laneWait + bankConf)).addc (Reg.LEAF_BANK_CONF_CNT f) bankConf
      s.modPane f p (fun x => { x with loaded := x.loaded ++ [t], nextTag := x.nextTag + 1 })
    | _, _ => s) s

/-! ### Passes (R89, R94, R95, R158) -/

/-- ARG of EV_CUBE_PARITY (R96). -/
def parityArg (row col : Fin 17) (layer : Fin 8) (kind : Fin 4) (pane seq : Nat) : Nat :=
  (if row.val = 16 then 15 else row.val) + (if col.val = 16 then 15 else col.val) <<< 4 + layer.val <<< 8 + b2n (col.val == 16) <<< 11 +
    (kind.val + 1) <<< 12 + b2n (row.val == 16) <<< 15 + pane <<< 16 + seq <<< 32

/-- ARRAY_PARITY_FAULT (R95): the pane stops, the fault is charged to the cube, and the job faults (R417). -/
def State.parityFault (s : State) (f : Fin 6) (p : Fin 32) (row col : Fin 17) (layer : Fin 8) (kind : Fin 4) (testOk : Bool) (seq : Nat) : State :=
  let s := (s.inc (Reg.ARR_PARITY_CNT f)).modPane f p (fun x => { x with stopped := true })
  let s := s.raise 0x0104 (unitSrc f 0) (jobByte (s.jobOf f)) (parityArg row col layer kind p.val seq)
  s.hwFault (locCode 3 f (32 * row.val + col.val)) 3 testOk 0x0104 (unitSrc f 0)

/-- SCALE_DESYNC (R158): the event and the count of a tag mismatch. -/
def State.desync (s : State) (f : Fin 6) (p : Fin 32) (stat : Bool) (dtag stag seq : Nat) : State :=
  (s.inc (Reg.STR_DESYNC_CNT f)).raise 0x0102 (unitSrc f 0) (jobByte (s.jobOf f))
    (p.val + b2n stat <<< 5 + dtag <<< 8 + stag <<< 16 + seq <<< 32)

/-- The blocks that desyncs erase: from the block each is found at up to the next block number that is a multiple of 64 (R158). -/
def erased (at_ : List Nat) (b : Nat) : Bool := at_.any (fun k => decide (k ≤ b ∧ b < (k / 64 + 1) * 64))

/-- The tiles that a pass writes, as the tile table shows them: HELD (R150), with the ERASED mark where an erased block was written (R158). -/
def State.holdTiles (s : State) (f : Nat) (c : PassCmd) (at_ : List Nat) : State :=
  (List.range c.blocks).foldl (fun t b =>
    let n := tileOf c b
    let t := t.p (Reg.STR_TILEt_STATE f n) 1
    if erased at_ b then t.p (Reg.STR_TILEt_ERASED f n) 1 else t) s

/-- The blocks of a pass run in order (R76). -/
def State.passBlocks (s : State) (f : Fin 6) (g : PaneCfg) (c : PassCmd) (t : StatReg) (at_ : List Nat) : State :=
  let h := s.paneH f g
  (List.range c.blocks).foldl (fun s b => if c.op < 2 then s.mmBlock f g h c t (erased at_ b) b else s.ewBlock f g h c (erased at_ b) b) s

/-- The leaf-store banks that a pass's streamed rows and their shifts lie in wake (R306). -/
def State.wakeRows (s : State) (f : Fin 6) (g : PaneCfg) (c : PassCmd) : State :=
  (List.range c.blocks).foldl (fun t b =>
    (List.range (rowsOf c (t.paneH f g) b)).foldl (fun t r => (t.rowShiftsAt f c.fmtS (rowAt c b r) (rowSize c g.w)).foldl (fun u a => u.wakeRange a 1) (t.wakeRange (leafBase f + rowAt c b r) (rowSize c g.w))) t) s

/-- A pass's arithmetic and its reports: waits counted (R83, R93, R310), tiles HELD, the pass among those not yet complete. -/
def State.passRun (s : State) (f : Fin 6) (p : Fin 32) (g : PaneCfg) (c : PassCmd) (t : StatReg) (at_ : List Nat) (rep : PassRep) : State :=
  let s := s.wakeRows f g c
  let s := ((s.addc (Reg.ARR_LANE_WAIT_CNT f) (rep.laneWait + rep.bankConf)).addc (Reg.LEAF_BANK_CONF_CNT f) rep.bankConf).addc
    (Reg.ARR_BUBBLE_CNT f) rep.bubbles
  ((s.passBlocks f g c t at_).holdTiles f c at_).modPane f p (fun x => { x with ran := x.ran ++ [c] })

/-- The comparisons of a pass that find a mismatch (R158): in a block-scaled pass, at a block it has and beyond the blocks that an earlier mismatch erases, with tags that differ. -/
def desyncAt (c : PassCmd) (l : List TagCheck) : List TagCheck :=
  l.foldl (fun k x => if (c.fmtS = 6 ∨ c.fmtS = 7) ∧ x.block < c.blocks ∧ x.dataTag ≠ x.scaleTag ∧ k.all (fun y => decide ((y.block / 64 + 1) * 64 ≤ x.block)) = true
    then k ++ [x] else k) []

/-- The head command of a pane runs with its stationary, unless a check of the array fails or it consumes poison (R95, R158, R303). -/
def State.passGo (s : State) (f : Fin 6) (p : Fin 32) (g : PaneCfg) (c : PassCmd) (t : StatReg) (rep : PassRep) : State :=
  let poison := t.poison && decide (c.op < 2) || (List.range c.blocks).any (fun b => s.blockPoison f g (s.paneH f g) c b)
  match rep.check with
  | .parity row col layer kind testOk => s.parityFault f p row col layer kind testOk c.seq
  | .poison => s.frondFault f 0x0601 (unitSrc f 0)
  | .clean => if poison then s.frondFault f 0x0601 (unitSrc f 0) else s.passRun f p g c t [] rep
  | .desync l =>
    if poison then s.frondFault f 0x0601 (unitSrc f 0)
    else
      let hits := desyncAt c l
      (hits.foldl (fun t x => t.desync f p x.stationary x.dataTag.toNat x.scaleTag.toNat c.seq) s).passRun f p g c t (hits.map (·.block)) rep

/-- A pane runs its head command when that has the operation named (R84): a new pass takes the stationary loaded for it, a continuing one keeps the current one (R91, R92). -/
def State.paneRun (s : State) (f : Fin 6) (p : Fin 32) (op : Nat) (rep : PassRep) : State :=
  let x := s.pane f p
  match x.cfg, x.queue with
  | some g, c :: q =>
    if c.op ≠ op ∨ x.stopped = true then s
    else
      let none_ : StatReg := ⟨0, [], [], false⟩
      let next : Option (StatReg × Option StatReg × List StatReg) :=
        if op ≥ 2 then some (none_, x.cur, x.loaded)
        else if c.newstat then (match x.loaded with | t :: l => some (t, some t, l) | [] => none)
        else x.cur.map (fun t => (t, some t, x.loaded))
      match next with
      | none => s
      | some (t, cur, loaded) =>
        (s.modPane f p (fun x => { x with queue := q, cur := cur, loaded := loaded })).passGo f p g c t rep
  | _, _ => s

/-- PASS_MM_ACC (R89). -/
def execPassMmAcc (f : Fin 6) (p : Fin 32) (rep : PassRep) (s : State) : Host.Outcome State Fault Refusal :=
  act (fun s => s.paneRun f p 0 rep) s

/-- PASS_MM_SET (R89). -/
def execPassMmSet (f : Fin 6) (p : Fin 32) (rep : PassRep) (s : State) : Host.Outcome State Fault Refusal :=
  act (fun s => s.paneRun f p 1 rep) s

/-- PASS_EW_MUL (R94). -/
def execPassEwMul (f : Fin 6) (p : Fin 32) (rep : PassRep) (s : State) : Host.Outcome State Fault Refusal :=
  act (fun s => s.paneRun f p 2 rep) s

/-- PASS_EW_ADD (R94). -/
def execPassEwAdd (f : Fin 6) (p : Fin 32) (rep : PassRep) (s : State) : Host.Outcome State Fault Refusal :=
  act (fun s => s.paneRun f p 3 rep) s

/-! ### Completion (R89, R150) -/

/-- The tiles a pass writes. -/
def passTiles (c : PassCmd) : List Nat := ((List.range c.blocks).map (tileOf c)).eraseDups

/-- Whether a pass that is not yet complete writes a tile. -/
def State.tileOpen (s : State) (f : Fin 6) (t : Nat) : Bool :=
  (s.fr f).arr.panes.toList.any (fun p => p.ran.any (fun c => (passTiles c).contains t))

/-- After a pass with LAST_K the tiles it wrote are READY, unless a later pass has written them (R150). -/
def State.readyTiles (s : State) (f : Fin 6) (c : PassCmd) : State :=
  if c.lastK then
    (passTiles c).foldl (fun t n => if t.tileOpen f n then t else t.p (Reg.STR_TILEt_STATE f n) 2) s
  else s

/-- The stream that generated a pass learns of its completion (R89, R134): the descriptor is done once all its passes are. -/
def passDone (pos : Nat) : List Flight → List Flight
  | [] => []
  | d :: l =>
    if d.pos = pos ∧ dKind d.desc = 2 ∧ d.done = false then
      { d with open_ := d.open_ - 1, done := decide (d.open_ ≤ 1 ∧ d.gen = dfield d.desc 96 16 * dfield d.desc 112 8) } :: l
    else d :: passDone pos l

/-- PASS_COMPLETE (R89): the oldest pass of the pane that has run is reported complete; after a rejected command the last one makes the job fault (R90). -/
def execPassComplete (f : Fin 6) (p : Fin 32) (s : State) : Host.Outcome State Fault Refusal :=
  act (fun s =>
    match (s.pane f p).ran with
    | [] => s
    | c :: r =>
      let s := (s.inc (Reg.ARR_PASS_CNT f)).modPane f p (fun x => { x with ran := r })
      let s := s.readyTiles f c
      (s.modStrm f (Fin.ofNat 32 c.stream) (fun x => { x with flight := passDone c.pos x.flight })).rejectFault f) s

end Sys2Proof.Machine
end

