-- ==== Sys2Proof/Machine/Scale.lean ====
section
/-!
DEFINITION. The drain unit (04 R108 to R123, R127; 05 R154 to R157): scale records, correction, conversion, measurement, overrun, adaptation.
-/
namespace Sys2Proof.Machine

open Sys2Proof (Byte Word)

/-! ### Scale records (R115) -/

/-- Device address of a scale record. -/
def State.sclAt (s : State) (f rec : Nat) : Nat := leafBase f + s.g (Reg.LEAF_SCL_BASE f) * 4096 + 16 * rec

/-- The bytes of a scale record. -/
def State.scl (s : State) (f rec : Nat) : List Byte := s.ld (s.sclAt f rec) 16

/-- SHIFT, FMT_OUT, MMAX of a record's bytes. -/
def sclShift (r : List Byte) : Int := sx 8 (byteAt r 0)
/-- See `sclShift`. -/
def sclFmt (r : List Byte) : Nat := byteAt r 1 % 16
/-- See `sclShift`. -/
def sclMmax (r : List Byte) : Int := sx 16 (le r 2 2)

/-- The output formats of R116 as a drain treats them: an integer of a width (with or without a complex region), a floating-point format, a block-scaled mantissa of a width. -/
inductive OutFmt where
  | int (w : Nat) (complex : Bool)
  | fp (F : FpFmt)
  | bs (w : Nat)
  deriving DecidableEq, Repr

/-- FMT_OUT (R116); none for a reserved code. -/
def outFmt (c : Nat) : Option OutFmt :=
  match c with
  | 0 => some (.int 8 false)
  | 1 => some (.int 4 false)
  | 2 => some (.fp fp8e4m3)
  | 3 => some (.fp fp8e5m2)
  | 4 => some (.fp bf16)
  | 5 => some (.fp fp16)
  | 6 => some (.bs 8)
  | 7 => some (.bs 4)
  | 8 => some (.int 8 true)
  | 9 => some (.int 16 false)
  | 10 => some (.int 32 false)
  | 11 => some (.fp fp32)
  | 12 => some (.int 16 true)
  | _ => none

/-- Bits of one output element. -/
def OutFmt.bits : OutFmt → Nat
  | .int w _ => w
  | .fp F => F.width
  | .bs w => w

/-- Capacity C (R116); none for the block-scaled formats. -/
def capacity : OutFmt → Option Int
  | .int w _ => some ((w : Int) - 1)
  | .fp F => some ((F.topE : Int) - F.bias)
  | .bs _ => none

/-- SCALE_ADAPT (R122): one record at its step end; answers whether SHIFT was clamped. -/
def adaptRecord (r : List Byte) : List Byte × Bool :=
  let mmax := sclMmax r
  let cleared (shift : Nat) (lim : Bool) : List Byte :=
    toLE 1 shift ++ toLE 1 (byteAt r 1) ++ toLE 2 0x8000 ++ zeros 4 ++ toLE 1 (setBits (setBits (byteAt r 8) 0 1 0) 1 1 (b2n (lim || (byteAt r 8).testBit 1))) ++ r.drop 9
  match (if (byteAt r 1).testBit 4 ∧ mmax ≠ -32768 then (outFmt (sclFmt r)).bind capacity else none) with
  | none => (cleared (byteAt r 0) false, false)
  | some c =>
    let sh := if mmax > c then sclShift r + min 6 (mmax - c) else if mmax ≤ c - 2 then sclShift r - 1 else sclShift r
    let q := clampI (-128) 127 sh
    (cleared (toBits 8 q) (q != sh), q != sh)

/-- The records of a range adapt in ascending order (R122, R123). -/
def State.adaptRange (s : State) (f first last : Nat) : State :=
  ((List.range (last + 1 - first)).map (· + first)).foldl (fun t k =>
    let (r, lim) := adaptRecord (t.scl f k)
    let t := t.store (t.sclAt f k) r
    if lim then t.inc (Reg.LEAF_SHIFT_LIM_CNT f) else t) s

/-- LEAF_SCL_STEP (R122, R123): GO ends the step of a range; a write while GO reads 1 is ignored and counted; an empty range is done at once. GO then reads 1 until SCALE_STEP_DONE. -/
def execLeafSclStep (agent : Byte) (f : Fin 6) (val : Word) (s : State) : Host.Outcome State Fault Refusal :=
  act (fun s => s.guard agent.toNat (Reg.LEAF_SCL_STEP_GO f).addr true (fun s =>
    if s.on (Reg.LEAF_SCL_STEP_GO f) then s.ignore
    else
      let go := s.mayWrite agent.toNat .fw && val.getLsbD 16
      let s := (s.writeFields agent.toNat (Reg.LEAF_SCL_STEP_GO f).addr val.toNat).p (Reg.LEAF_SCL_STEP_GO f) 0
      let first := s.g (Reg.LEAF_SCL_STEP_FIRST f)
      let last := s.g (Reg.LEAF_SCL_STEP_LAST f)
      if go && decide (first ≤ last) then (s.adaptRange f first last).p (Reg.LEAF_SCL_STEP_GO f) 1 else s)) s

/-- SCALE_STEP_DONE (R123): the range has been adapted; GO clears. -/
def execScaleStepDone (f : Fin 6) (s : State) : Host.Outcome State Fault Refusal :=
  act (fun s => s.p (Reg.LEAF_SCL_STEP_GO f) 0) s

/-! ### A region (R108, R109, R154) -/

/-- A region of a tile: tile, first cell row and column. -/
structure Region3 where
  tile : Nat
  row0 : Nat
  col0 : Nat
  deriving DecidableEq, Repr

/-- The cell an element of a region lies in. -/
def State.regionCell (s : State) (f : Fin 6) (g : Region3) (r c : Nat) : Cell := s.cell f g.tile (g.row0 + r / 4) (g.col0 + c / 4)

/-- A row sum of a cell as a signed number. -/
def Cell.rowSumOf (x : Cell) (i : Nat) : Int := ([x.r0, x.r1, x.r2, x.r3].getD i 0).toInt

/-- The word that an accumulator element holds. -/
def State.accWord (s : State) (f : Nat) (g : Region3) (r c : Nat) : Nat := s.ldN (accAddr f g.tile (4 * g.row0 + r) (4 * g.col0 + c)) 4

/-- An integer element after zero-point correction (R109): modulo 2^32, as a signed number. -/
def State.corrected (s : State) (f : Fin 6) (g : Region3) (csum r c : Nat) : Int :=
  let x := s.regionCell f g r c
  let a : Int := s.accWord f g r c
  if x.zs = 0 ∧ x.zt = 0 then sx 32 (toBits 32 a)
  else
    let col := sx 32 (s.ldN (leafBase f + csum + 4 * c) 4)
    sx 32 (toBits 32 (a - x.zt.toInt * x.rowSumOf ((4 * g.row0 + r) % 4) - x.zs.toInt * col + x.nk.toInt * x.zs.toInt * x.zt.toInt))

/-! ### Conversion (R117, R118) -/

/-- The result of one element: its code, whether it saturated, whether it was NaN, its measure. -/
structure DrainElem where
  code : Nat
  sat  : Bool
  nan  : Bool
  meas : Option Int
  deriving DecidableEq, Repr

/-- R117 for one element under a shift. -/
def drainElem (o : OutFmt) (shift : Int) (x : Num) : DrainElem :=
  match x with
  | .nan => ⟨0, true, true, none⟩
  | _ =>
    let v := x.scale (-shift)
    match o with
    | .fp F => let (q, lim) := F.encode v; ⟨q, lim, false, v.expo⟩
    | .int w _ | .bs w =>
      let u := (v.toIntRne).getD 0
      let q := satS w u
      ⟨toBits w q, q != u, false, if v.isZero then none else some (bitsNeeded u)⟩

/-- The shift of a block-scaled output block (R118): the smallest at or above the record's SHIFT that lets every mantissa fit, at most 127. -/
def blockShift (w : Nat) (floor_ : Int) (xs : List Num) : Int :=
  match (List.range (128 - floor_).toNat).find? (fun (i : Nat) => xs.all (fun x => x == .nan || !(drainElem (.bs w) (floor_ + i) x).sat)) with
  | some i => floor_ + i
  | none => 127

/-- One output row: its elements, and the shifts of its blocks of 32 (R118). -/
def drainRow (o : OutFmt) (shift : Int) (xs : List Num) : List DrainElem × List Int :=
  match o with
  | .bs w =>
    let blocks := (List.range (ceilDiv xs.length 32)).map (fun i => (xs.drop (32 * i)).take 32)
    let sh := blocks.map (blockShift w shift)
    ((blocks.zip sh).flatMap (fun (e : List Num × Int) => e.1.map (drainElem o e.2)), sh)
  | _ => (xs.map (drainElem o shift), [])

/-- Elements packed in their format, low index in the low bits (R99). -/
def packCodes (w : Nat) (l : List Nat) : List Byte :=
  toLE (ceilDiv (w * l.length) 8) (l.zipIdx.foldl (fun (n : Nat) e => n + e.1 <<< (w * e.2)) 0)

/-! ### Marks of an allocation (R121, R155, R232) -/

/-- A drain's allocation tag reaches the frond controller: the allocation is marked for the guard, or the mark counts as late once it has been decided (R121, R232). Tag 0xFFFF names none. -/
def State.markAlloc (s : State) (tag bit_ : Nat) : State :=
  match s.tagged tag with
  | none => s
  | some (x, a) =>
    if a.decision.isSome then s.inc Reg.JOB_RX_LATE_MARK_CNT
    else s.modAlloc x.idx a.index (fun b => { b with marks := b.marks ||| bit_ })

/-! ### A drain -/

/-- The figures of a drained region: saturated elements, NaN elements, largest measure. -/
structure DrainSum where
  sat  : Nat
  nan  : Nat
  meas : Option Int
  deriving DecidableEq, Repr

/-- The figures of a list of elements. -/
def drainSum (l : List DrainElem) : DrainSum :=
  ⟨l.countP (·.sat), l.countP (·.nan), l.foldl (fun m e => match m, e.meas with | some a, some b => some (max a b) | none, b => b | a, none => a) none⟩

/-- A scale record after a drain (R120, R121): MMAX, SAT_STEP and OVR. -/
def recordAfter (o : OutFmt) (r : List Byte) (d : DrainSum) (wideTile : Bool) : List Byte :=
  let mmax := match o, d.meas with
    | .bs _, _ => le r 2 2
    | _, none => le r 2 2
    | _, some m => toBits 16 (max (sclMmax r) m)
  r.take 2 ++ toLE 2 mmax ++ toLE 4 (min 0xFFFFFFFF (le r 4 4 + d.sat)) ++ toLE 1 (byteAt r 8 ||| b2n wideTile) ++ r.drop 9

/-- The exact value of a region's element after correction and outlier combination (R109, R114); `hl` names the hi and lo regions with their column sums. -/
def State.drainValue (s : State) (f : Fin 6) (g : Region3) (csum : Nat) (hl : Option (Region3 × Region3 × Nat)) (r c : Nat) : Num :=
  if (s.regionCell f g r c).ty = 1 then ofF32 (s.accWord f g r c)
  else
    let m := s.corrected f g csum r c
    match hl with
    | none => Num.ofInt m
    | some (hi, lo, oc) => Num.ofInt (sx 32 (toBits 32 (m + 256 * s.corrected f hi oc r c + s.corrected f lo oc r c)))

/-- A row of output is written, with its block shifts in the map (R155, R157). Bytes beyond the leaf store are unmapped (R29). -/
def State.drainStore (s : State) (f : Fin 6) (o : OutFmt) (a : Nat) (e : List DrainElem × List Int) : State :=
  let bs := packCodes o.bits (e.1.map (·.code))
  if a + bs.length > 0x800000 then s.unmapped (unitSrc f 0) (leafBase f + a) true
  else
    let s := s.store (leafBase f + a) bs
    let fmt := if o.bits = 8 then 6 else 7
    let step := if o.bits = 8 then 32 else 16
    e.2.zipIdx.foldl (fun t x => t.store (t.shiftAt f fmt (a + step * x.2)) [BitVec.ofInt 8 x.1]) s

/-- Zero-point pairs and counts of the cells that regions cover. -/
def State.regionCells (s : State) (f : Fin 6) (g : Region3) (rows cols : Nat) : List (Nat × Nat × Cell) :=
  (List.range (ceilDiv rows 4)).flatMap (fun i => (List.range (ceilDiv cols 4)).map (fun j =>
    (g.row0 + i, g.col0 + j, s.cell f g.tile (g.row0 + i) (g.col0 + j))))

/-- Whether some integer cell's NK is above the limit of R109 (R111). R109 names a limit for INT8 streamed operands and for INT4 × INT4; CI32 cells get none (DESIGN CHOICE, log 21). -/
def rangeOver (l : List (Nat × Nat × Cell)) : Bool :=
  l.any (fun e => (e.2.2.ty == 0 && decide (e.2.2.nk.toNat > 32768)) || (e.2.2.ty == 3 && decide (e.2.2.nk.toNat > 262144)))

/-- The largest NK in a tile (R126). -/
def State.tileNk (s : State) (f : Fin 6) (t : Nat) : Nat :=
  (List.range 256).foldl (fun m i => max m (s.cell f t (i / 16) (i % 16)).nk.toNat) 0

/-- The tiles of a drain's regions that hold an integer cell of the drain out of range, each once, with the largest NK in the tile (R111, R126). -/
def State.wideTiles (s : State) (f : Fin 6) (l : List Region3) (rows cols : Nat) : List (Nat × Nat) :=
  ((l.filter (fun g => rangeOver (s.regionCells f g rows cols))).map (·.tile)).eraseDups.map (fun t => (t, s.tileNk f t))

/-- A region is converted, written, measured and counted (R117 to R121, R155); `wide` lists the tiles out of range with their largest NK (R111). -/
def State.drainRegion (s : State) (f : Fin 6) (o : OutFmt) (rec tag : Nat) (g : Region3) (rows cols dst pitch csum : Nat)
    (hl : Option (Region3 × Region3 × Nat)) (wide : List (Nat × Nat)) : State :=
  let r := s.scl f rec
  let out := (List.range rows).map (fun i => drainRow o (sclShift r) ((List.range cols).map (fun c => s.drainValue f g csum hl i c)))
  let d := drainSum (out.flatMap (·.1))
  let wideTile := decide (d.sat * 256 > rows * cols) || !wide.isEmpty
  let s := out.zipIdx.foldl (fun t e => t.drainStore f o (dst + e.2 * pitch) e.1) s
  let s := s.store (s.sclAt f rec) (recordAfter o (s.scl f rec) d wideTile)
  let s := (s.addc (Reg.LEAF_SAT_CNT f) d.sat).addc (Reg.LEAF_NAN_CNT f) d.nan
  let s := wide.foldl (fun t e => t.raise 0x0108 (unitSrc f 0) (jobByte (s.jobOf f)) (e.1 + e.2 <<< 32)) s
  if wideTile then
    ((s.inc (Reg.LEAF_OVERRUN_CNT f)).raise 0x0101 (unitSrc f 0) (jobByte (s.jobOf f))
      (rec + g.tile <<< 8 + (min 0xFFFF d.sat) <<< 16 + tag <<< 32)).markAlloc tag 1
  else s

end Sys2Proof.Machine
end

