-- ==== Sys2Proof/Machine/Stream.lean ====
section
/-!
DEFINITION. Streams (05 R131 to R140, R150 to R153, R159 to R164): issue, completion, errors, starting and aborting, bales, semaphore-only, barrier and link descriptors, watchdog, deadlock, re-tiling.
-/
namespace Sys2Proof.Machine

open Sys2Proof (Byte Word SpillRep)

/-- The stream waits (R136's register): a wait of the same kind on the same object goes on; another begins now. -/
def State.waitOn (s : State) (f : Fin 6) (n : Fin 32) (kind obj : Nat) : State :=
  if s.strSt f n = 2 ∧ s.g (Reg.STR_Sn_STS_WKIND f n) = kind ∧ s.g (Reg.STR_Sn_STS_WOBJ f n) = obj then s
  else
    let s := ((s.setStrSt f n 2).p (Reg.STR_Sn_STS_WKIND f n) kind).p (Reg.STR_Sn_STS_WOBJ f n) obj
    let s := s.p (Reg.STR_Sn_WAIT f n) (s.compact (s.stampDom 0x0200 (jobByte (s.jobOf f))))
    s.modStrm f n (fun x => { x with waitAt := some s.ticks, reports := 0 })

/-- STREAM_ERROR (R164): the stream stops at the descriptor in state ERR, and its job faults. -/
def State.streamErr (s : State) (f : Fin 6) (n : Fin 32) (code kind pos : Nat) : State :=
  let s := ((s.setStrSt f n 5).p (Reg.STR_Sn_STS_ERR f n) code).p (Reg.STR_Sn_POS f n) pos
  let s := (s.stick (Reg.STR_ERR_STK f) n).raise 0x0203 (unitSrc f 4) (jobByte (s.jobOf f)) (gStream f n + code <<< 8 + kind <<< 12 + pos <<< 16)
  s.frondFault f 0x0203 (unitSrc f 4)

/-- ACC_SHORT (R151): the claim is refused and the stream stops at its descriptor. -/
def State.accShort (s : State) (f : Fin 6) (n : Fin 32) : State :=
  (((s.setStrSt f n 4).stick (Reg.STR_ERR_STK f) n).inc (Reg.STR_ACC_SHORT_CNT f)).irq f (unitSrc f 4) n

/-! ### Issue (R132, R135, R138) -/

/-- What the conditions of a kind of descriptor say once its own waits are met: issue it, wait, an error code, hold it without a wait of its own, or ACC_SHORT. -/
inductive Gate where
  | go
  | wait (kind obj : Nat)
  | err (code : Nat)
  | hold
  | short
  deriving DecidableEq, Repr

/-- Whether an XFER is a multicast (R142). -/
def isMcast (d : BitVec 256) : Bool := dKind d == 1 && dMcast d != 0

/-- Whether a stream waits with its head descriptor on a counter that holds its count. -/
def State.headWaits (s : State) (f g : Fin 6) (m : Fin 32) (k : Nat) (free : Bool) (v : Nat) : Bool :=
  (decide (k ≥ 0x400) || g == f) && s.strSt g m == 2 && s.g (Reg.STR_Sn_STS_WKIND g m) == (if free then 2 else 1) &&
    s.g (Reg.STR_Sn_STS_WOBJ g m) == k && !(s.strm g m).aborting && s.frondRuns g &&
    (match (s.strm g m).fetched with | (_, d) :: _ => decide (dWaitN d ≤ v) | [] => false)

/-- Whether a multicast of a stream waits at the receiver frond f on a counter that holds its count (R145). -/
def State.rxWaits (s : State) (f g : Fin 6) (m : Fin 32) (k : Nat) (free : Bool) (v : Nat) : Bool :=
  decide (k < 0x100) && (s.strm g m).flight.any (fun x => isMcast x.desc && !x.done && decide (dWaitN x.desc ≠ 0) && dWsem x.desc == k &&
    dWside x.desc == free && decide (dWaitN x.desc ≤ v) && x.rx.any (fun r => r.frond == f && !r.started && !r.detached))

/-- Whether a stream of lower global number that waits on the same counter is served first (R138). -/
def State.semBefore (s : State) (f : Fin 6) (num k : Nat) (free : Bool) (v : Nat) : Bool :=
  (List.finRange 6).any (fun g => (List.finRange 32).any (fun m =>
    decide (gStream g m < num) && (s.headWaits f g m k free v || s.rxWaits f g m k free v)))

/-- Whether a descriptor's wait is met (R138); a multicast's wait is each receiver's own (R145). -/
def State.semReady (s : State) (f : Fin 6) (n : Fin 32) (d : BitVec 256) : Bool :=
  if dWaitN d = 0 ∨ isMcast d = true then true
  else
    let v := s.semGet f (dWsem d) (dWside d)
    decide (dWaitN d ≤ v) && !s.semBefore f (gStream f n) (dWsem d) (dWside d) v

/-- The descriptor leaves the head of its stream: its count is taken, the stream shows the next place. -/
def State.popHead (s : State) (f : Fin 6) (n : Fin 32) (pos : Nat) (d : BitVec 256) : State :=
  let s := if isMcast d then s else (s.semTake f (dWsem d) (dWside d) (dWaitN d)).getD s
  let s := (s.setStrSt f n 1).modStrm f n (fun x => { x with fetched := x.fetched.tail })
  s.p (Reg.STR_Sn_POS f n) (pos + 1)

/-- A descriptor goes into flight. -/
def State.addFlight (s : State) (f : Fin 6) (n : Fin 32) (x : Flight) : State :=
  s.modStrm f n (fun y => { y with flight := y.flight ++ [x] })

/-- A descriptor in flight, done or not. -/
def mkFlight (d : BitVec 256) (pos : Nat) (done : Bool) : Flight := ⟨d, pos, done, 0, 0, 0, [], [], 0, 0⟩

/-- The head descriptor of a stream, when it is of one of the kinds and the stream issues: RUN or WAIT, not aborting, its frond working (R327), not held by a BARRIER of its own (R140). -/
def State.headOf (s : State) (f : Fin 6) (n : Fin 32) (kinds : List Nat) : Option (Nat × Nat × BitVec 256) :=
  let x := s.strm f n
  match s.jobOf f, x.fetched with
  | some j, (pos, d) :: _ =>
    if kinds.contains (dKind d) && (s.strSt f n == 1 || s.strSt f n == 2) && !x.aborting && s.frondRuns f &&
      !x.flight.any (fun y => dKind y.desc == 6) then some (j, pos, d) else none
  | _, _ => none

/-! ### Completion (R132, R134, R135, R138, R140) -/

/-- The posts of a completed descriptor: for a multicast one to each attached receiver's own pair (R145). A post past 65,535 leaves its counter unchanged; the answer says whether one did (R138). -/
def State.postFlight (s : State) (f : Fin 6) (x : Flight) : State × Bool :=
  let one := fun (e : State × Bool) (r : Fin 6) => match e.1.post r (dPsem x.desc) (dPside x.desc) (dPostN x.desc) with
    | some t => (t, e.2)
    | none => (e.1, true)
  if isMcast x.desc then ((x.rx.filter (fun r => !r.detached)).map (·.frond)).foldl one (s, false) else one (s, false) f

/-- A stream with nothing left in flight that an abort waits for is ABORTED (R136). -/
def State.abortTest (s : State) (f : Fin 6) (n : Fin 32) : State :=
  let x := s.strm f n
  if x.aborting && x.flight.isEmpty then
    ((s.setStrSt f n 6).stick (Reg.STR_ERR_STK f) n).modStrm f n (fun x => { x with aborting := false, fetched := [] })
  else s

/-- A descriptor in flight is complete: it leaves, posts, and with END takes the stream to DONE (R135, R138). -/
def State.finish (s : State) (f : Fin 6) (n : Fin 32) (x : Flight) : State :=
  let s := s.modStrm f n (fun y => { y with flight := y.flight.erase x })
  let s := if dKind x.desc = 6 ∧ s.strSt f n = 2 then s.setStrSt f n 1 else s
  match s.postFlight f x with
  | (s, true) => s.streamErr f n 8 (dKind x.desc) x.pos
  | (s, false) =>
    if dEnd x.desc && !(s.strm f n).aborting then
      (((s.setStrSt f n 3).stick (Reg.STR_DONE_STK f) n).modStrm f n (fun y => { y with fetched := [] })).irq f (unitSrc f 4) n
    else s.abortTest f n

/-- Whether stream m of a frond has arrived at a BARRIER of an ID with every earlier descriptor complete (R140). -/
def State.atBarrier (s : State) (f : Fin 6) (m : Fin 32) (id : Nat) : Bool :=
  match (s.strm f m).flight with
  | [x] => dKind x.desc == 6 && dBarId x.desc == id
  | _ => false

/-- The barrier of a stream completes with its partners once all have arrived (R140). -/
def State.barrierOf (s : State) (f : Fin 6) (n : Fin 32) : State :=
  match (s.strm f n).flight with
  | [x] =>
    let mask := dMask x.desc
    let all := (List.finRange 32).filter (fun m => mask.testBit m.val)
    if dKind x.desc == 6 && all.all (fun m => s.atBarrier f m (dBarId x.desc)) then
      all.foldl (fun t m => match (t.strm f m).flight with | [y] => t.finish f m y | _ => t) s
    else s
  | _ => s

/-- Every barrier of a frond whose condition is met completes. -/
def State.barrierTest (s : State) (f : Fin 6) : State := (List.finRange 32).foldl (fun t n => t.barrierOf f n) s

/-- DESCRIPTOR_COMPLETE (R134, R135, R138): the k-th descriptor in flight, its work done, completes; one with END only as the last. -/
def execDescriptorComplete (f : Fin 6) (n : Fin 32) (k : Nat) (s : State) : Host.Outcome State Fault Refusal :=
  act (fun s =>
    let l := (s.strm f n).flight
    match l[k]? with
    | some x => if x.done && (!dEnd x.desc || decide (l.length = 1)) then (s.finish f n x).barrierTest f else s
    | none => s) s

/-! ### Starting and stopping (R131, R136) -/

/-- A write of STR_Sn_CTL (R136): RUN starts a stream that is IDLE, DONE, ACC_SHORT or ABORTED and is ignored in RUN, WAIT and ERR; ABORT stops one in any state. -/
def State.strCtl (s : State) (agent : Nat) (f : Fin 6) (n : Fin 32) (v : Nat) : State :=
  s.guard agent (Reg.STR_Sn_CTL_RUN f n).addr true (fun s =>
    let st := s.strSt f n
    let live := st == 1 || st == 2
    let run := v.testBit 31 && s.mayWrite agent .fw
    let abort := v.testBit 30 && s.mayWrite agent .fw
    if run && (live || st == 5) then s.ignore
    else
      let t := ((s.writeFields agent (Reg.STR_Sn_CTL_RUN f n).addr v).p (Reg.STR_Sn_CTL_ABORT f n) 0).p (Reg.STR_Sn_CTL_RUN f n) (b2n live)
      if run then t.startStream f n (t.g (Reg.STR_Sn_CTL_HEAD f n))
      else if abort then (t.modStrm f n (fun x => { x with aborting := true })).abortTest f n
      else t)

/-- STREAM_START (R136). -/
def execStreamStart (agent : Byte) (f : Fin 6) (n : Fin 32) (val : Word) (s : State) : Host.Outcome State Fault Refusal :=
  act (fun s => s.strCtl agent.toNat f n val.toNat) s

/-- STREAM_ABORT (R136). -/
def execStreamAbort (agent : Byte) (f : Fin 6) (n : Fin 32) (val : Word) (s : State) : Host.Outcome State Fault Refusal :=
  act (fun s => s.strCtl agent.toNat f n val.toNat) s

/-- The descriptors of a bale that starts at a place: up to 64, not across a 2 KiB boundary, ending after a LINK or END (R131). -/
def State.bale (s : State) (pos : Nat) : Nat → List (Nat × BitVec 256)
  | 0 => []
  | k + 1 =>
    let d := s.ld256 (grnBase + 32 * pos)
    if dKind d = 7 ∨ dEnd d = true then [(pos, d)] else (pos, d) :: s.bale (pos + 1) k

/-- BALE_FETCH (R131): with 16 or fewer descriptors left unissued, the next bale is read in one request; an access that the stream engine may not make is unmapped and reads 0 (R29, R297). -/
def execBaleFetch (f : Fin 6) (n : Fin 32) (s : State) : Host.Outcome State Fault Refusal :=
  act (fun s =>
    let x := s.strm f n
    match s.jobOf f with
    | none => s
    | some j =>
      if !(s.strSt f n == 1 || s.strSt f n == 2) || x.ended || x.aborting || decide (x.fetched.length > 16) || !s.frondRuns f then s
      else
        let k := 64 - x.next % 64
        let a := grnBase + 32 * x.next
        let acc := s.access (unitSrc f 4) j a (32 * k) false
        let l := if acc = .ok then s.bale x.next k else (List.range k).map (fun i => (x.next + i, 0#256))
        let s := (s.wakeRange a (32 * l.length)).inc (Reg.STR_BALE_CNT f)
        let s := s.modStrm f n (fun x => { x with
          fetched := x.fetched ++ l, next := x.next + l.length,
          ended := l.any (fun e => dKind e.2 == 7 || dEnd e.2) })
        s.refuse (unitSrc f 4) j a false acc) s

/-! ### Descriptors that act at once (R134, R135, R140) -/

/-- A descriptor that completes at issue: without END it posts at once; with END it stays until the stream's others are complete. -/
def State.atIssue (s : State) (f : Fin 6) (n : Fin 32) (pos : Nat) (d : BitVec 256) : State :=
  let x := mkFlight d pos true
  let s := s.addFlight f n x
  if dEnd d then s else s.finish f n x

/-- LINK rules that need the stream: a repeat inside the repeat of another LINK (R135). -/
def State.linkGate (s : State) (f : Fin 6) (n : Fin 32) (d : BitVec 256) : Gate :=
  let x := s.strm f n
  match x.fetched with
  | (pos, _) :: _ => if dRepeat d ≠ 0 ∧ x.rep ≠ 0 ∧ x.repAt ≠ pos then .err 11 else .go
  | [] => .hold

/-- The stream goes on at a place. -/
def State.goTo (s : State) (f : Fin 6) (n : Fin 32) (pos rep repAt : Nat) : State :=
  (s.modStrm f n (fun x => { x with fetched := [], next := pos, ended := false, rep := rep, repAt := repAt })).p (Reg.STR_Sn_POS f n) pos

/-! ### Posts and limits by register (R139, R151) -/

/-- STR_SEM_POST (R139): the frond controller posts to a local or granary pair; a reserved number makes the write ignored; the register reads 0. -/
def execStrSemPost (agent : Byte) (f : Fin 6) (val : Word) (s : State) : Host.Outcome State Fault Refusal :=
  act (fun s => s.guard agent.toNat (Reg.STR_SEM_POST_SEM f).addr true (fun s =>
    let k := bits val.toNat 0 11
    if !s.mayWrite agent.toNat .fw then (if val = 0 then s else s.ignore)
    else if semReserved k then s.ignore
    else
      let s := if bits val.toNat 12 4 ≠ 0 then s.ignore else s
      (s.post f k (val.getLsbD 11) (bits val.toNat 16 16)).getD s)) s

/-- The tiles below ACC_LIMIT that streams other than n have claimed (R151). -/
def State.claimedOthers (s : State) (f : Fin 6) (n : Nat) : Nat :=
  (List.range (s.g (Reg.STR_CFG_ACC_LIMIT f))).countP (fun t => s.on (Reg.STR_TILEt_CLAIMED f t) && s.g (Reg.STR_TILEt_CLAIMANT f t) != n)

/-- Whether the allocator refuses a claim of a stream (R151). -/
def State.claimShort (s : State) (f : Fin 6) (n foot : Nat) : Bool := decide (foot > s.g (Reg.STR_CFG_ACC_LIMIT f) - s.claimedOthers f n)

/-- Loops that wait for tiles are refused when their claim no longer fits (R151). -/
def State.accRetest (s : State) (f : Fin 6) : State :=
  (List.finRange 32).foldl (fun t n =>
    match (t.strm f n).fetched with
    | (_, d) :: _ =>
      if t.strSt f n == 2 && t.g (Reg.STR_Sn_STS_WKIND f n) == 3 && dKind d == 2 && dbit d 83 && t.claimShort f n (dfield d 192 8)
      then t.accShort f n else t
    | [] => t) s

/-- ACC_LIMIT_WRITE (R151): 0 or above 128 is ignored; a smaller limit may refuse loops that wait. -/
def execAccLimitWrite (agent : Byte) (f : Fin 6) (val : Word) (s : State) : Host.Outcome State Fault Refusal :=
  act (fun s => s.guard agent.toNat (Reg.STR_CFG_ACC_LIMIT f).addr true (fun s =>
    let v := bits val.toNat 0 8
    if s.mayWrite agent.toNat .fw && (v == 0 || decide (v > 128)) then s.ignore
    else (s.writeFields agent.toNat (Reg.STR_CFG_ACC_LIMIT f).addr val.toNat).accRetest f)) s

/-! ### Waiting too long (R160, R161) -/

/-- STREAM_WAIT_WATCHDOG (R160): every 20 µs of a wait of kinds 1 to 5 is reported; the tag is what STR_Sn_STS and STR_Sn_WAIT show. -/
def execStreamWaitWatchdog (f : Fin 6) (n : Fin 32) (s : State) : Host.Outcome State Fault Refusal :=
  act (fun s =>
    let x := s.strm f n
    let k := s.g (Reg.STR_Sn_STS_WKIND f n)
    match x.waitAt with
    | some t =>
      if s.strSt f n = 2 ∧ 1 ≤ k ∧ k ≤ 5 ∧ s.ticks ≥ t + 20000 * (x.reports + 1) then
        (s.inc (Reg.STR_WAIT_WD_CNT f)).modStrm f n (fun x => { x with reports := x.reports + 1 })
      else s
    | none => s) s

/-- The streams that post a semaphore pair as a frond sees it, as the stream graph of a job declares them (R160). -/
def State.postersOf (s : State) (j : Option Nat) (f : Fin 6) (k : Nat) : List Nat :=
  match j.bind s.graph with
  | some g => (g.posters.filter (fun e => e.2.1.toNat == k && (decide (k ≥ 0x400) || e.1 == f))).flatMap (·.2.2)
  | none => []

/-- The attached receiver of a multicast that is furthest behind (R146, R160). -/
def slowest (l : List McRx) : Option McRx :=
  (l.filter (fun r => !r.detached)).foldl (fun m r => match m with
    | some x => if r.delivered < x.delivered then some r else m
    | none => some r) none

/-- Whether a stream can end the wait of another, of wait kinds 1 to 5 (R160). -/
def State.endsWait (s : State) (w e : Fin 6 × Fin 32) : Bool :=
  let obj := s.g (Reg.STR_Sn_STS_WOBJ w.1 w.2)
  match s.g (Reg.STR_Sn_STS_WKIND w.1 w.2) with
  | 1 | 2 => (s.postersOf (s.jobOf w.1) w.1 obj).contains (gStream e.1 e.2)
  | 3 => e.1 == w.1 && s.on (Reg.STR_TILEt_CLAIMED w.1 obj) && s.g (Reg.STR_TILEt_CLAIMANT w.1 obj) == e.2.val
  | 4 => e.1 == w.1 && (s.strm w.1 w.2).flight.any (fun x => dKind x.desc == 6 && (dMask x.desc).testBit e.2.val) && !s.atBarrier w.1 e.2 obj
  | 5 => (s.strm w.1 w.2).flight.any (fun x => isMcast x.desc && (match slowest x.rx with
      | some r => (s.postersOf (s.jobOf r.frond) r.frond (dWsem x.desc)).contains (gStream e.1 e.2)
      | none => false))
  | _ => false

/-- Whether streams form a cycle of reported waits, each able to end the wait of the one before it (R160, R161). -/
def State.isCycle (s : State) (l : List (Fin 6 × Fin 32)) : Bool :=
  l.eraseDups.length == l.length &&
  match l with
  | [] => false
  | a :: r => (l.zip (r ++ [a])).all (fun e =>
      s.strSt e.1.1 e.1.2 == 2 && decide ((s.strm e.1.1 e.1.2).reports ≥ 1) && s.endsWait e.1 e.2)

/-- DEADLOCK_CONFIRM (R161): a wait cycle, confirmed by the controller of its highest-numbered stream, aborts that stream and faults its job. -/
def execDeadlockConfirm (f : Fin 6) (cycle : List (Fin 6 × Fin 32)) (s : State) : Host.Outcome State Fault Refusal :=
  act (fun s =>
    match s.jobOf f with
    | none => s
    | some j =>
      let top := cycle.foldl (fun (m : Nat) e => max m (gStream e.1 e.2)) 0
      if !s.isCycle cycle || decide (top / 32 ≠ f.val) then s
      else
        let n := Fin.ofNat 32 (top % 32)
        let s := (s.modStrm f n (fun x => { x with aborting := true })).abortTest f n
        let s := s.raise 0x0201 (unitSrc f 6) j (top + cycle.length <<< 8)
        s.jobFault j 0x0201 (unitSrc f 6)) s

/-! ### Re-tiling (R153) -/

/-- EV_ACC_SPILL, once for a layer of a job however many spills follow (R153). -/
def State.spillReport (s : State) (f : Fin 6) (j : Nat) (r : SpillRep) : State :=
  if (s.job j).spilled.contains r.layer.toNat then s
  else (s.raise 0x0103 (unitSrc f 6) j (r.layer.toNat + r.tiles.toNat <<< 16 + r.bytes.toNat <<< 32)).modJob j
    (fun x => { x with spilled := x.spilled ++ [r.layer.toNat] })

/-- TILER_RETILE (R153): the library tiler writes the new list of the layer into the job's granary space and restarts the stream there; EV_ACC_SPILL once when the layer spills. -/
def execTilerRetile (f : Fin 6) (n : Fin 32) (head : BitVec 23) (bales : List (BitVec 256)) (spill : Option SpillRep) (s : State) :
    Host.Outcome State Fault Refusal :=
  act (fun s =>
    match s.jobOf f with
    | none => s
    | some j =>
      if s.strSt f n ≠ 4 then s
      else
        let a := grnBase + 32 * head.toNat
        match s.access (unitSrc f 6) j a (32 * bales.length) true with
        | .ok =>
          let s := s.store a (bales.flatMap (fun d => toLE 32 d.toNat))
          let s := match spill with
            | some r => s.spillReport f j r
            | none => s
          s.startStream f n head.toNat
        | r => s.refuse (unitSrc f 6) j a true r) s

end Sys2Proof.Machine
end

