-- ==== Sys2Proof/Machine/Xfer.lean ====
section
/-!
DEFINITION. Transfers (05 R141 to R146): tensor records, the move of planes, rows and bytes, multicast.
-/
namespace Sys2Proof.Machine

open Sys2Proof (Byte Word XferRep)

/-! ### Tensor records (R141) -/

/-- A tensor record. -/
structure Tns where
  base  : Nat
  fill  : Byte
  valid : Bool
  rows  : Nat
  bytes : Nat
  pitch : Nat
  deriving DecidableEq, Repr

/-- Record t of a frond. -/
def State.tns (s : State) (f : Fin 6) (t : Nat) : Tns :=
  { base := 32 * s.g (Reg.STR_TNSt_0 f t) + s.g (Reg.STR_TNSt_1_BASE_HI f t) <<< 32
    fill := BitVec.ofNat 8 (s.g (Reg.STR_TNSt_1_FILL f t))
    valid := s.on (Reg.STR_TNSt_1_VALID f t)
    rows := s.g (Reg.STR_TNSt_2 f t)
    bytes := s.g (Reg.STR_TNSt_3_ROW_BYTES f t)
    pitch := 32 * s.g (Reg.STR_TNSt_3_PITCH f t) }

/-- Bytes from the base through the last byte; none where the tensor has no byte. -/
def Tns.span (t : Tns) : Nat := if t.rows = 0 ∨ t.bytes = 0 then 0 else (t.rows - 1) * t.pitch + t.bytes

/-- Whether a range lies in one region bound to a job (R141): like an access by its stream engine, but a barn region counts whatever its mode, and a protected model slot is bound to the job all the same (R266). -/
def State.bound (s : State) (f : Fin 6) (j a n : Nat) : Bool :=
  match s.region a with
  | .barn o => (s.job j).bind.barn.any (fun r => r.mode != 0 && r.holds o n false)
  | _ => s.access (unitSrc f 4) j a n false == .ok

/-- Whether a record breaks R141 for the stream engine of a frond of a job: its extent outside the job's regions, or its pitch below its rows. -/
def State.tnsBad (s : State) (f : Fin 6) (j : Nat) (t : Tns) : Bool :=
  decide (t.pitch < t.bytes) || (decide (t.span ≠ 0) && !s.bound f j t.base t.span)

/-! ### Multicast rules (R145) -/

/-- The fronds that a MCAST field names. -/
def mcastFronds (d : BitVec 256) : List (Fin 6) := (List.finRange 6).filter (fun r => (dMcast d).testBit r.val)

/-- Whether a multicast breaks R145. -/
def State.mcastBad (s : State) (f : Fin 6) (n : Fin 32) (j : Nat) (d : BitVec 256) (dst : Tns) : Bool :=
  let own := match s.region dst.base with | .leaf g _ => g == f.val | _ => false
  let set_ : Option (BitVec 6) := match s.graph j with
    | some g => (g.mcast.find? (fun (e : Fin 6 × Fin 32 × BitVec 6) => e.1 == f && e.2.1 == n)).map (fun (e : Fin 6 × Fin 32 × BitVec 6) => e.2.2)
    | none => none
  let listed := match set_ with | some m => (mcastFronds d).all (fun r => m.getLsbD r.val) | none => false
  !own || !listed || decide (dWsem d ≥ 0x100) || decide (dPsem d ≥ 0x100)

/-! ### Rows (R142, R143) -/

/-- One row of a transfer: source address with the bytes read there, destination address, and the bytes written in all (those past the bytes read take FILL). -/
structure XRow where
  src  : Nat
  nsrc : Nat
  dst  : Nat
  n    : Nat
  deriving DecidableEq, Repr

/-- The row r of plane p (R143): positions beyond the source give FILL, positions beyond the destination are not written. -/
def xferRow (d : BitVec 256) (a b : Tns) (p r : Nat) : XRow :=
  let sr := dfield d 96 20 + p * dfield d 232 12 + r
  let dr := dfield d 128 20 + p * dfield d 244 12 + r
  let sb := dfield d 160 16
  let db := dfield d 176 16
  let n := if dr < b.rows then min (dfield d 208 16) (b.bytes - db) else 0
  let k := if sr < a.rows then min n (a.bytes - sb) else 0
  ⟨a.base + sr * a.pitch + sb, k, b.base + dr * b.pitch + db, n⟩

/-- The rows of a transfer in order: planes, then rows (R143). -/
def xferRows (d : BitVec 256) (a b : Tns) : List XRow :=
  (List.range (dfield d 224 8)).flatMap (fun p => (List.range (dfield d 192 16)).map (fun r => xferRow d a b p r))

/-- Reading a row: banks wake, barn lines go through the loft cache. -/
def State.rowTouch (s : State) (j : Nat) (a n : Nat) : State := if n = 0 then s else (s.loftRange (some j) a n).wakeRange a n

/-- The bytes of a row, with FILL past the bytes read. -/
def State.rowBytes (s : State) (x : XRow) (fill : Byte) : List Byte := s.ld x.src x.nsrc ++ List.replicate (x.n - x.nsrc) fill

/-- Which bytes of a row come from a poisoned word (R303). -/
def State.rowPoison (s : State) (x : XRow) : List Nat :=
  if s.poisoned x.src x.nsrc then (List.range x.nsrc).filter (fun i => s.poisoned (x.src + i) 1) else []

/-- One row is moved: poison goes with the bytes (R303). -/
def State.moveRow (s : State) (j : Nat) (fill : Byte) (x : XRow) : State :=
  if x.n = 0 then s
  else
    let s := s.rowTouch j x.src x.nsrc
    let bs := s.rowBytes x fill
    let bad := s.rowPoison x
    let s := (s.loftRange (some j) x.dst x.n).store x.dst bs
    bad.foldl (fun t i => t.setPoison (x.dst + i)) s

/-- What the transfer met in a word of its source (R303), before the bytes move: a corrected word counts, an uncorrectable one is poisoned. -/
def State.xferMeet (s : State) (rows : List XRow) (a : Nat) (ecc : EccState) : State × Option WordAt :=
    if rows.any (fun x => decide (x.nsrc ≠ 0 ∧ eccWord a < x.src + x.nsrc ∧ x.src < eccWord a + eccSize a)) then
      let loft := match s.region a with | .barn o => s.loftHas (o / 256) | _ => false
      match ecc with
      | .clean => (s, none)
      | .corrected => (s.memCe a loft, none)
      | .uncorrectable => s.memUe a loft
    else (s, none)

/-! ### Multicast (R145, R146) -/

/-- Leaf offset, byte and poison of every byte a multicast writes, in issue order. -/
def State.mcastBytes (s : State) (f : Fin 6) (fill : Byte) (rows : List XRow) : List (Nat × Byte × Bool) :=
  rows.flatMap (fun x =>
    let bad := s.rowPoison x
    (s.rowBytes x fill).zipIdx.map (fun e => (x.dst - leafBase f + e.2, e.1, bad.contains e.2)))

/-- A list cut into blocks of 1,024. -/
def blocks1024 (l : List (Nat × Byte × Bool)) : List (List (Nat × Byte × Bool)) :=
  (List.range (ceilDiv l.length 1024)).map (fun i => (l.drop (1024 * i)).take 1024)

/-- The addresses that a transfer writes, as ranges: each row, for a multicast in each receiver that it names (R145). -/
def writeRanges (f : Fin 6) (d : BitVec 256) (rows : List XRow) : List (Nat × Nat) :=
  let l := (rows.filter (fun x => decide (x.n ≠ 0))).map (fun x => (x.dst, x.n))
  if isMcast d then (mcastFronds d).flatMap (fun r => l.map (fun e => (leafBase r.val + (e.1 - leafBase f.val), e.2))) else l

/-- The ranges that a descriptor of a frond writes, by its tensor records. -/
def State.writesOf (s : State) (f : Fin 6) (d : BitVec 256) : List (Nat × Nat) :=
  writeRanges f d (xferRows d (s.tns f (dfield d 64 6)) (s.tns f (dfield d 70 6)))

/-- Whether a transfer would write bytes that an earlier one still in flight on the frond writes; with DET = 1 it waits for that one (R162). -/
def State.detHold (s : State) (f : Fin 6) (d : BitVec 256) : Bool :=
  s.det && (List.finRange 32).any (fun n => (s.strm f n).flight.any (fun x => dKind x.desc == 1 &&
    (s.writesOf f x.desc).any (fun a => (s.writesOf f d).any (fun b => decide (a.1 < b.1 + b.2 ∧ b.1 < a.1 + a.2)))))

/-! ### Requests (R144) -/

/-- Requests that an access of `n` bytes takes: at most 1,024 bytes within a 1 KiB block, and in the barn at most 256 within a 256-byte block. The answer names the pool: 0 the frond's own leaf store, 1 the first pool, 2 the barn's. -/
def State.reqs (s : State) (f : Fin 6) (a n : Nat) : Nat × Nat :=
  if n = 0 then (0, 0)
  else match s.region a with
    | .leaf g o => if g = f.val then (0, 0) else (1, ceilDiv (o % 1024 + n) 1024)
    | .barn o => (2, ceilDiv (o % 256 + n) 256)
    | .granary o | .sig _ _ o => (1, ceilDiv (o % 1024 + n) 1024)
    | _ => (0, 0)

/-- Requests of a transfer in a pool: its reads, and its writes but for the receivers of a multicast, which take blocks. -/
def State.reqCount (s : State) (f : Fin 6) (d : BitVec 256) (rows : List XRow) (pool : Nat) : Nat :=
  (rows.map (fun x =>
    let r := s.reqs f x.src x.nsrc
    let w := if isMcast d then (0, 0) else s.reqs f x.dst x.n
    (if r.1 = pool then r.2 else 0) + (if w.1 = pool then w.2 else 0))).sum

/-- Requests that a pool of a frond holds: 256 in the first, 512 in the barn's. -/
def poolSize (pool : Nat) : Nat := if pool = 2 then 512 else 256

/-- Requests of a frond in flight in a pool. -/
def State.poolUsed (s : State) (f : Fin 6) (pool : Nat) : Nat :=
  ((List.finRange 32).map (fun n => ((s.strm f n).flight.map (fun x => if pool = 2 then x.reqB else x.req1)).sum)).sum

/-- Whether the requests of a transfer are held: one of its pools has no room (R144). -/
def State.poolHold (s : State) (f : Fin 6) (d : BitVec 256) (rows : List XRow) : Bool :=
  [1, 2].any (fun p => decide (0 < s.reqCount f d rows p ∧ poolSize p ≤ s.poolUsed f p))

/-- The requests that a transfer keeps in flight until it completes: as many as its pool has room for, the others having gone before (DESIGN CHOICE, log 7). -/
def State.reqHeld (s : State) (f : Fin 6) (d : BitVec 256) (rows : List XRow) (pool : Nat) : Nat :=
  min (s.reqCount f d rows pool) (poolSize pool - s.poolUsed f pool)

/-! ### XFER -/

/-- The conditions of an XFER at issue (R141, R144, R145, R162): the lowest code that applies; requests that a full pool holds keep the stream in wait kind 7. -/
def State.xferGate (s : State) (f : Fin 6) (n : Fin 32) (j : Nat) (d : BitVec 256) : Gate :=
  let a := s.tns f (dfield d 64 6)
  let b := s.tns f (dfield d 70 6)
  if !a.valid || !b.valid then .err 3
  else if s.tnsBad f j a || s.tnsBad f j b then .err 4
  else if isMcast d && s.mcastBad f n j d b then .err 9
  else if s.detHold f d then .hold
  else if s.poolHold f d (xferRows d a b) then .wait 7 0
  else .go

/-- The rows of a unicast transfer in order, up to the first that writes into another job's resource, such as a protected model slot (R266, R323): that one ends the transfer, an unmapped one is left out (R29). -/
def State.moveRows (s : State) (f : Fin 6) (j : Nat) (fill : Byte) : List XRow → State
  | [] => s
  | x :: l =>
    match (if x.n = 0 then .ok else s.access (unitSrc f 4) j x.dst x.n true) with
    | .ok => (s.moveRow j fill x).moveRows f j fill l
    | .unmapped => (s.unmapped (unitSrc f 4) x.dst true).moveRows f j fill l
    | .cross k => s.crossAccess (unitSrc f 4) j k x.dst true

/-- A unicast transfer moves all its rows; a multicast reads its blocks once and holds them for its receivers. -/
def State.xferBody (s : State) (f : Fin 6) (n : Fin 32) (rep : XferRep) (j pos : Nat) (d : BitVec 256) : State :=
  let a := s.tns f (dfield d 64 6)
  let b := s.tns f (dfield d 70 6)
  let rows := xferRows d a b
  let x : Flight := { mkFlight d pos true with req1 := s.reqHeld f d rows 1, reqB := s.reqHeld f d rows 2 }
  let s := s.addc (Reg.STR_OUTST_FULL_CNT f) rep.poolHeld
  let (s, hit) := s.xferMeet rows rep.word.toNat rep.ecc
  let s := if isMcast d then
      let s := rows.foldl (fun t x => t.rowTouch j x.src x.nsrc) s
      let bl := blocks1024 (s.mcastBytes f a.fill rows)
      s.addFlight f n { x with done := bl.isEmpty, blocks := bl, rx := (mcastFronds d).map (fun r => (⟨r, false, 0, false⟩ : McRx)) }
    else (s.addFlight f n x).moveRows f j a.fill rows
  match hit with
  | some w => s.hwFault w.loc 1 true 0x0601 w.src
  | none => s

/-! ### Delivery of multicast blocks (R145, R146) -/

/-- A receiver whose own wait is met starts (R145): its count is taken, after streams of lower number that wait on the same counter (R138). -/
def State.mcStart (s : State) (num : Nat) (d : BitVec 256) (r : McRx) : Option State :=
  if r.started then some s
  else if dWaitN d ≠ 0 ∧ s.semBefore r.frond num (dWsem d) (dWside d) (s.semGet r.frond (dWsem d) (dWside d)) = true then none
  else s.semTake r.frond (dWsem d) (dWside d) (dWaitN d)

/-- A block lands in a receiver's leaf store. -/
def State.mcWrite (s : State) (r : Fin 6) (l : List (Nat × Byte × Bool)) : State :=
  l.foldl (fun t e =>
    let t := t.store (leafBase r + e.1) [e.2.1]
    if e.2.2 then t.setPoison (leafBase r + e.1) else t) s

/-- A receiver is detached (R146): reported, counted, told; a real-time job's receiver faults. -/
def State.mcDetach (s : State) (f : Fin 6) (n : Fin 32) (lag : Nat) (r : McRx) : State :=
  let s := (s.inc (Reg.STR_MC_DETACH_CNT f)).raise 0x0202 (unitSrc f 4) (jobByte (s.jobOf f))
    (gStream f n + r.frond.val <<< 8 + (min lag 0xFFFF) <<< 16 + r.delivered <<< 32)
  (s.stick (Reg.STR_MC_RX_STS r.frond) f.val).irq r.frond (unitSrc r.frond 4) f

/-- The real-time job of a receiver frond, which faults when its receiver is detached (R146). -/
def State.mcJob (s : State) (r : Fin 6) : Option Nat :=
  match s.jobOf r with
  | some j => if (s.job j).bind.kind then none else some j
  | none => none

/-- The receivers that take their next block now: attached, named, their wait met, blocks left. -/
def State.mcTakers (s : State) (num : Nat) (x : Flight) (who : BitVec 6) : State × List (Fin 6) :=
  x.rx.foldl (fun (e : State × List (Fin 6)) r =>
    if r.detached || !who.getLsbD r.frond.val || decide (r.delivered ≥ x.blocks.length) then e
    else match e.1.mcStart num x.desc r with
      | some t => (t, e.2 ++ [r.frond])
      | none => e) (s, [])

/-- MCAST_BLOCK_DELIVERY (R145, R146): each receiver named takes its next block once its own wait is met; a receiver whose lag would pass the slack is detached first; the descriptor is done when every attached receiver has every block. -/
def execMcastBlockDelivery (f : Fin 6) (n : Fin 32) (k : Nat) (credits : BitVec 6) (s : State) : Host.Outcome State Fault Refusal :=
  act (fun s =>
    match (s.strm f n).flight[k]? with
    | none => s
    | some x =>
      if !isMcast x.desc || x.done then s
      else
        let (s, take) := s.mcTakers (gStream f n) x credits
        let after := fun (r : McRx) => r.delivered + b2n (take.contains r.frond)
        let top := x.rx.foldl (fun (m : Nat) r => if r.detached then m else max m (after r)) 0
        let slack := s.g (Reg.STR_CFG_MC_SLACK f)
        let late := x.rx.filter (fun r => !r.detached && decide (top - after r > slack))
        let s := late.foldl (fun t r => t.mcDetach f n (top - after r) r) s
        let go := x.rx.filter (fun r => take.contains r.frond && !late.contains r)
        let s := go.foldl (fun t r => t.mcWrite r.frond (x.blocks.getD r.delivered [])) s
        let rx := x.rx.map (fun (r : McRx) =>
          if late.contains r then { r with detached := true }
          else if take.contains r.frond then { r with started := true, delivered := r.delivered + 1 } else r)
        let done := rx.all (fun (r : McRx) => r.detached || decide (r.delivered ≥ x.blocks.length))
        let s := s.modStrm f n (fun y => { y with flight := y.flight.set k { x with rx := rx, done := done } })
        (late.filterMap (fun r => s.mcJob r.frond)).eraseDups.foldl (fun t j => t.jobFault j 0x0202 (unitSrc f 4)) s) s

end Sys2Proof.Machine
end

