-- ==== Sys2Proof/Machine/Loop.lean ====
section
/-!
DEFINITION. Array loops (05 R147 to R151), drains (R154 to R156, 04 R110, R111, R115, R127), spills and reloads of tiles (R152).
-/
namespace Sys2Proof.Machine

open Sys2Proof (Byte Word)

/-! ### ARRAY_LOOP (R147 to R149, R151) -/

/-- The pass template of a loop descriptor, in the leaf store (R147). -/
def State.tmplOf (s : State) (f : Fin 6) (d : BitVec 256) : BitVec 256 := s.ld256 (leafBase f + 32 * dfield d 64 18)

/-- Whether a tile keeps a claim waiting: it is not FREE (R151). -/
def State.tileTaken (s : State) (f : Fin 6) (t : Nat) : Bool := s.g (Reg.STR_TILEt_STATE f t) != 0

/-- The conditions of an ARRAY_LOOP at issue (R149, R151). -/
def State.loopGate (s : State) (f : Fin 6) (n : Fin 32) (d : BitVec 256) : Gate :=
  let c := passOf (s.tmplOf f d) n.val 0
  let claim := loopClaim d c
  if claim.any (fun t => decide (t ≥ s.g (Reg.STR_CFG_ACC_LIMIT f))) then .err 6
  else if tmplBad d c then .err 13
  else if dbit d 83 && s.claimShort f n (dfield d 192 8) then .short
  else match claim.find? (fun t => s.tileTaken f t) with
    | some t => .wait 3 t
    | none => .go

/-- A tile claimed by a stream. -/
def State.claimTile (s : State) (f : Fin 6) (n t : Nat) : State := (s.p (Reg.STR_TILEt_CLAIMED f t) 1).p (Reg.STR_TILEt_CLAIMANT f t) n

/-- The claim is recorded and the loop issues: its template is read once. -/
def State.loopBody (s : State) (f : Fin 6) (n : Fin 32) (pos : Nat) (d : BitVec 256) : State :=
  let t := s.tmplOf f d
  let s := s.wakeRange (leafBase f + 32 * dfield d 64 18) 32
  let s := (loopClaim d (passOf t n.val pos)).foldl (fun u x => u.claimTile f n x) s
  let s := s.addFlight f n { mkFlight d pos false with tmpl := t }
  s.modFr f (fun x => { x with gens := x.gens ++ [(n.val, pos)] })

/-- Pass command `i` of a loop (R148); an address that its steps lead beyond 8 MiB stays beyond it, for the array to reject (R90 code 4). -/
def loopCmd (d t : BitVec 256) (n pos i : Nat) : PassCmd :=
  let c := passOf t n pos
  let kt := loopKT d
  let nt := loopNT d
  let k := if dbit d 82 then i / nt else i % kt
  let m := if dbit d 82 then i % nt else i / kt
  { c with
    stat := c.stat + 64 * (k * dfield d 128 16 + m * dfield d 144 16)
    strm := c.strm + 32 * k * dfield d 160 16
    tile := c.tile + m * dfield d 120 7
    op := if k = 0 then c.op else 0
    kValid := if k + 1 = kt then dfield d 176 8 else c.kValid
    nValid := if m + 1 = nt then dfield d 184 8 else c.nValid
    lastK := c.lastK && k + 1 == kt
    seq := (c.seq + i) % 4294967296 }

/-- The loop of a stream that still generates: the first in flight at a place with commands left. -/
def State.genAt (s : State) (f : Fin 6) (n : Fin 32) (pos : Nat) : Option (Nat × Flight) :=
  ((s.strm f n).flight.zipIdx.find? (fun e => e.1.pos == pos && dKind e.1.desc == 2 && decide (e.1.gen < loopKT e.1.desc * loopNT e.1.desc))).map
    (fun e => (e.2, e.1))

/-- PASS_COMMAND_GENERATE (R148, R162): the loop issued first generates its next command into the array command queue when that has room (R84). -/
def execPassCommandGenerate (f : Fin 6) (n : Fin 32) (s : State) : Host.Outcome State Fault Refusal :=
  act (fun s =>
    match (s.fr f).gens with
    | [] => s
    | (m, pos) :: r =>
      if m ≠ n.val ∨ (s.fr f).arr.queue.length ≥ 64 then s
      else match s.genAt f n pos with
        | none => s
        | some (k, x) =>
          let s := s.modArr f (fun a => { a with queue := a.queue ++ [loopCmd x.desc x.tmpl n.val pos x.gen] })
          let s := s.modStrm f n (fun y => { y with flight := y.flight.set k { x with gen := x.gen + 1, open_ := x.open_ + 1 } })
          if x.gen + 1 = loopKT x.desc * loopNT x.desc then s.modFr f (fun y => { y with gens := r }) else s) s

/-! ### DRAIN (R154 to R156) -/

/-- The main region of a drain, and its hi and lo regions when it combines outliers. -/
def drainMain (d : BitVec 256) : Region3 := ⟨dfield d 64 7, dfield d 71 4, dfield d 75 4⟩
/-- See `drainMain`. -/
def drainHi (d : BitVec 256) : Region3 := ⟨dfield d 192 7, dfield d 199 4, dfield d 203 4⟩
/-- See `drainMain`. -/
def drainLo (d : BitVec 256) : Region3 := ⟨dfield d 207 7, dfield d 214 4, dfield d 218 4⟩

/-- The regions that a drain names. -/
def drainRegions (d : BitVec 256) : List Region3 := if dbit d 93 then [drainMain d, drainHi d, drainLo d] else [drainMain d]

/-- Rows and columns of a drain. -/
def drainRows (d : BitVec 256) : Nat := dfield d 79 6 + 1
/-- See `drainRows`. -/
def drainCols (d : BitVec 256) : Nat := dfield d 85 6 + 1

/-- R156 as far as the descriptor and the record's format show it. -/
def drainStaticBad (d : BitVec 256) (o : Option OutFmt) : Bool :=
  (drainRegions d).any (fun g => decide (4 * g.row0 + drainRows d > 64) || decide (4 * g.col0 + drainCols d > 64)) ||
    (match o with
     | some o => (match o with | .int _ true => decide (drainCols d % 2 = 1) | _ => false) ||
         decide (dfield d 146 12 * 32 * 8 < drainCols d * o.bits)
     | none => false)

/-- Whether a cell of the regions has a zero point (R156). -/
def State.drainZp (s : State) (f : Fin 6) (d : BitVec 256) : Bool :=
  (drainRegions d).any (fun g => (s.regionCells f g (drainRows d) (drainCols d)).any (fun e => e.2.2.zs != 0 || e.2.2.zt != 0))

/-- The conditions of a DRAIN at issue (R123, R155, R156). -/
def State.drainGate (s : State) (f : Fin 6) (d : BitVec 256) : Gate :=
  let st := fun (g : Region3) => s.g (Reg.STR_TILEt_STATE f g.tile)
  if drainStaticBad d (outFmt (sclFmt (s.scl f (dfield d 96 8)))) then .err 7
  else if (drainRegions d).any (fun g => st g == 0) then .err (if !dbit d 92 && s.drainZp f d then 7 else 12)
  else match (drainRegions d).find? (fun g => st g != 2) with
    | some g => .wait 3 g.tile
    | none =>
      if !dbit d 92 && s.drainZp f d then .err 7
      else if s.on (Reg.LEAF_SCL_STEP_GO f) then .hold else .go

/-- Reason of EV_SCL_RECORD_BAD (R126): 1 reserved format, 2 table in the accumulator memory, 3 reserved field, 4 region type; 0 none. Of several the lowest is reported, R126 giving no order (DESIGN CHOICE, log 23). -/
def State.recordBad (s : State) (f : Fin 6) (d : BitVec 256) : Nat :=
  let r := s.scl f (dfield d 96 8)
  let tys := (drainRegions d).flatMap (fun g => (s.regionCells f g (drainRows d) (drainCols d)).map (fun e => e.2.2.ty))
  match outFmt (sclFmt r) with
  | none => 1
  | some o =>
    let cplx := match o with | .int _ true => true | _ => false
    if decide (s.g (Reg.LEAF_SCL_BASE f) * 4096 ≥ 0x600000) then 2
    else if byteAt r 1 / 32 ≠ 0 ∨ byteAt r 8 / 4 ≠ 0 ∨ zeroRange r 9 7 = false then 3
    else if tys.any (fun t => (t == 2) != cplx) then 4
    else 0

/-- The first cell whose mix mark is set (R110): tile, cell row, cell column. -/
def State.drainMix (s : State) (f : Fin 6) (d : BitVec 256) : Option (Nat × Nat × Nat) :=
  (drainRegions d).findSome? (fun g =>
    ((s.regionCells f g (drainRows d) (drainCols d)).find? (fun e => e.2.2.mix)).map (fun e => (g.tile, e.1, e.2.1)))

/-- Whether a region holds a poisoned accumulator word (R303). -/
def State.drainPoison (s : State) (f : Fin 6) (d : BitVec 256) : Bool :=
  (drainRegions d).any (fun g => (List.range (drainRows d)).any (fun r =>
    s.poisoned (accAddr f g.tile (4 * g.row0 + r) (4 * g.col0)) (4 * drainCols d)))

/-- A tile freed: claim and ERASED mark clear (R150). -/
def State.freeTile (s : State) (f : Fin 6) (t : Nat) : State :=
  (((s.p (Reg.STR_TILEt_STATE f t) 0).p (Reg.STR_TILEt_ERASED f t) 0).p (Reg.STR_TILEt_CLAIMED f t) 0).p (Reg.STR_TILEt_CLAIMANT f t) 0

/-- A drain converts its region (R155); a bad record, a mixed cell or poison stops it and faults the job (R110, R127, R303). -/
def State.drainBody (s : State) (f : Fin 6) (n : Fin 32) (pos : Nat) (d : BitVec 256) : State :=
  let u := unitSrc f 0
  let rec_ := dfield d 96 8
  let tag := dfield d 112 16
  let rows := drainRows d
  let cols := drainCols d
  if s.recordBad f d ≠ 0 then
    (s.raise 0x0109 u (jobByte (s.jobOf f)) (rec_ + s.recordBad f d <<< 8)).frondFault f 0x0109 u
  else match s.drainMix f d with
    | some (t, i, k) => (s.raise 0x0107 u (jobByte (s.jobOf f)) (t + i <<< 8 + k <<< 12)).frondFault f 0x0107 u
    | none =>
      if s.drainPoison f d then s.frondFault f 0x0601 u
      else match outFmt (sclFmt (s.scl f rec_)) with
        | none => s
        | some o =>
          let hl := if dbit d 93 then some (drainHi d, drainLo d, 64 * dfield d 224 17) else none
          let wide := s.wideTiles f (drainRegions d) rows cols
          let erased_ := (drainRegions d).any (fun g => s.on (Reg.STR_TILEt_ERASED f g.tile))
          let s := if dbit d 92 then s.wakeRange (leafBase f + 64 * dfield d 160 17) (4 * cols) else s
          let s := s.drainRegion f o rec_ tag (drainMain d) rows cols (32 * dfield d 128 18) (32 * dfield d 146 12) (64 * dfield d 160 17) hl wide
          let s := if erased_ then s.markAlloc tag 2 else s
          let s := s.addFlight f n (mkFlight d pos true)
          if dbit d 91 then ((drainRegions d).foldl (fun t g => t.freeTile f g.tile) s).accRetest f else s

/-! ### ACC_MOVE (R152) -/

/-- The tiles that an ACC_MOVE names. -/
def movTiles (d : BitVec 256) : List Nat := (List.range (dfield d 71 8)).map (· + dfield d 64 7)

/-- Whether the head descriptor of a stream is an ACC_MOVE of a direction. -/
def State.headDir (s : State) (f : Fin 6) (n : Fin 32) (dir : Bool) : Bool :=
  match (s.strm f n).fetched with
  | (_, d) :: _ => dbit d 79 == dir
  | [] => false

/-- Whether a pass in flight writes a tile: one queued, running or not yet reported complete (R152). -/
def State.tilePending (s : State) (f : Fin 6) (t : Nat) : Bool :=
  let a := (s.fr f).arr
  s.tileOpen f t || a.queue.any (fun c => (passTiles c).contains t) || a.panes.toList.any (fun p => p.queue.any (fun c => (passTiles c).contains t))

/-- The conditions of a spill at issue (R152): it waits for the passes that write its tiles, then requires them HELD or READY. -/
def State.spillGate (s : State) (f : Fin 6) (d : BitVec 256) : Gate :=
  if dfield d 64 7 + dfield d 71 8 > 128 then .err 6
  else match (movTiles d).find? (fun t => s.tilePending f t) with
    | some t => .wait 3 t
    | none => if (movTiles d).any (fun t => s.g (Reg.STR_TILEt_STATE f t) == 0) then .err 12 else .go

/-- The conditions of a reload at issue (R151, R152): its tiles fall under the stream's claim, so ACC_LIMIT holds for them (log 23). -/
def State.reloadGate (s : State) (f : Fin 6) (d : BitVec 256) : Gate :=
  if dfield d 64 7 + dfield d 71 8 > 128 ∨ (movTiles d).any (fun t => decide (t ≥ s.g (Reg.STR_CFG_ACC_LIMIT f))) = true then .err 6
  else if (movTiles d).any (fun t => s.g (Reg.STR_TILEt_STATE f t) != 0) then .err 12
  else .go

/-- The 32 bytes of a cell's correction state in a spill image (R152: the layout is used only by a reload; log 23). -/
def cellBytes (x : Cell) : List Byte :=
  toLE 4 x.r0.toNat ++ toLE 4 x.r1.toNat ++ toLE 4 x.r2.toNat ++ toLE 4 x.r3.toNat ++ toLE 4 x.nk.toNat ++ [x.zs, x.zt] ++
    toLE 1 (b2n x.mix) ++ toLE 1 x.ty ++ zeros 8

/-- The cell of 32 bytes of a spill image. -/
def cellOf (b : List Byte) : Cell :=
  ⟨BitVec.ofNat 32 (le b 0 4), BitVec.ofNat 32 (le b 4 4), BitVec.ofNat 32 (le b 8 4), BitVec.ofNat 32 (le b 12 4), BitVec.ofNat 32 (le b 16 4),
    b.getD 20 0, b.getD 21 0, byteAt b 22 % 2 == 1, byteAt b 23 % 4⟩

/-- Leaf offset of the spill image of the i-th tile of an ACC_MOVE. -/
def imageAt (d : BitVec 256) (i : Nat) : Nat := dfield d 96 13 * 1024 + i * 24576

/-- One tile is spilled: values, then correction state; it is FREE afterwards. -/
def State.spillTile (s : State) (f : Fin 6) (j t a : Nat) : State :=
  let s := if a + 24576 > 0x800000 then s.unmapped (unitSrc f 0) (leafBase f + a) true
    else
      let s := s.moveRow j 0 ⟨accAddr f t 0 0, 0x4000, leafBase f + a, 0x4000⟩
      s.store (leafBase f + a + 0x4000) ((List.range 256).flatMap (fun i => cellBytes (s.cell f t (i / 16) (i % 16))))
  s.freeTile f t

/-- One tile is reloaded; it is HELD under the stream's claim. -/
def State.reloadTile (s : State) (f : Fin 6) (n j t a : Nat) : State :=
  let s := if a + 24576 > 0x800000 then (s.unmapped (unitSrc f 0) (leafBase f + a) false).zeroFill (accAddr f t 0 0) 0x4000
    else
      let s := s.moveRow j 0 ⟨leafBase f + a, 0x4000, accAddr f t 0 0, 0x4000⟩
      (List.range 256).foldl (fun u i => u.setCell f t (i / 16) (i % 16) (cellOf (u.ld (leafBase f + a + 0x4000 + 32 * i) 32))) s
  (s.claimTile f n t).p (Reg.STR_TILEt_STATE f t) 1

end Sys2Proof.Machine
end

