-- ==== Sys2Proof/Machine/SigCore.lean ====
section
/-!
DEFINITION. The signal cores (06 R185 to R200): moves, program flow, interrupts, faults, and the one way an instruction runs.
-/
namespace Sys2Proof.Machine

open Sys2Proof (Byte Word MoveSlot CoreRef)

/-! ### State of a core -/

/-- One core. -/
def State.core (s : State) (k : CoreRef) : SigCore := (s.fr k.f).sig.get k.c

/-- The state with one core changed. -/
def State.modCore (s : State) (k : CoreRef) (g : SigCore → SigCore) : State :=
  s.modFr k.f (fun x => { x with sig := x.sig.set k.c (g (x.sig.get k.c)) })

/-- STATE of a core (R199): 0 IDLE, 1 RUN, 2 WAIT, 3 HALT, 4 FAULT, 5 RETIRED. -/
def State.coreSt (s : State) (k : CoreRef) : Nat := s.g (Reg.SIG_Cc_STS_STATE k.f.val k.c.val)

/-- The state with a core's STATE set. -/
def State.setCoreSt (s : State) (k : CoreRef) (c : Nat) : State := s.p (Reg.SIG_Cc_STS_STATE k.f.val k.c.val) c

/-- An instruction word (R187), with its fields below. The spec gives no OP numbers: which OP the word holds is the command's row, and whether it is a reserved one its operand (log 24). -/
structure SigOp where
  word : BitVec 64
  deriving DecidableEq, Repr

/-- `n` bits of an instruction word from bit `lo`. -/
def SigOp.at (o : SigOp) (lo n : Nat) : Nat := bits o.word.toNat lo n

/-- Destination register, [11:8]. -/
def SigOp.dd (o : SigOp) : Fin 16 := Fin.ofNat 16 (o.at 8 4)

/-- First source, [15:12]. -/
def SigOp.sa (o : SigOp) : Fin 16 := Fin.ofNat 16 (o.at 12 4)

/-- Second source, [19:16]. -/
def SigOp.sb (o : SigOp) : Fin 16 := Fin.ofNat 16 (o.at 16 4)

/-- Immediate or sub-operation, [27:20]. -/
def SigOp.imm (o : SigOp) : Byte := BitVec.ofNat 8 (o.at 20 8)

/-- The move slot of 12 bits from bit `lo`; none when its EN is 0. -/
def SigOp.slot (o : SigOp) (lo : Nat) : Option MoveSlot :=
  if o.word.getLsbD lo then
    some ⟨o.word.getLsbD (lo + 1), Fin.ofNat 4 (o.at (lo + 2) 2), Fin.ofNat 8 (o.at (lo + 4) 3), Fin.ofNat 8 (o.at (lo + 7) 3), Fin.ofNat 4 (o.at (lo + 10) 2)⟩
  else none

/-- Count of a REP, [43:28]. -/
def SigOp.count (o : SigOp) : BitVec 16 := BitVec.ofNat 16 (o.at 28 16)

/-- Index of the last body instruction of a REP or REPD, [56:44]. -/
def SigOp.last (o : SigOp) : BitVec 13 := BitVec.ofNat 13 (o.at 44 13)

/-- The instruction that a core issues from its repeat cache (R194): its index lies in an active level that the cached body holds, and the word has been captured. -/
def SigCore.cached (x : SigCore) : Option (BitVec 64) :=
  match x.cache with
  | none => none
  | some (a, b) =>
    if x.reps.any (fun l => decide (a ≤ l.first ∧ l.last ≤ b ∧ l.first ≤ x.pc.toNat ∧ x.pc.toNat ≤ l.last)) then
      (x.held.find? (fun e => e.1 == x.pc.toNat)).map (fun e => e.2)
    else none

/-- Device address of a core's next instruction (R185). -/
def State.sigAddr (s : State) (k : CoreRef) : Nat := sigBase k.f.val k.c.val + 0x30000 + 8 * (s.core k).pc.toNat

/-- The instruction word that a core is about to run: from the repeat cache, else from C memory (R185, R194). -/
def State.sigWord (s : State) (k : CoreRef) : SigOp :=
  match (s.core k).cached with
  | some w => ⟨w⟩
  | none => ⟨BitVec.ofNat 64 (s.ldN (s.sigAddr k) 8)⟩

/-- Whether the boundary after the last instruction is held off (R196): delay slots, the start of a repeat body, a DI count, a handler. -/
def SigCore.heldOff (x : SigCore) : Bool := x.delay.isSome || x.atRep || x.di != 0 || x.shadow.isSome

/-- Which sources are pending: MBOX while MBI is not empty, TIME, HOST (R196). -/
def SigCore.pending (x : SigCore) : BitVec 3 := (x.pend &&& 0b110#3) ||| (if x.mbi.isEmpty then 0 else 1)

/-- The source served first among the pending and enabled (R196): TIME, MBOX, HOST, as its IEN bit. -/
def SigCore.serve (x : SigCore) : Option (Fin 3) :=
  let e := x.pending &&& x.ien
  if e.getLsbD 1 then some 1 else if e.getLsbD 0 then some 0 else if e.getLsbD 2 then some 2 else none

/-- A core asleep in WFI wakes when an enabled source is pending (R196). -/
def State.coreWake (s : State) (k : CoreRef) : State :=
  s.modCore k (fun x => { x with asleep := x.asleep && x.serve.isNone })

/-- A core whose STOP has been written ends at a boundary that is not held off, once its queued MOVEs are complete (R199). -/
def State.stopTest (s : State) (k : CoreRef) : State :=
  let x := s.core k
  if x.stop && !x.heldOff && x.mover.isEmpty then (s.modCore k (fun x => { x with stop := false, asleep := false })).setCoreSt k 0 else s

/-- Whether a core is at work: RUN or WAIT, awake, not stopping at this boundary, and its frond working; at the end of a slice only until a boundary that is not held off (R196, R199, R327). -/
def State.coreLive (s : State) (k : CoreRef) : Bool :=
  let x := s.core k
  (s.coreSt k == 1 || s.coreSt k == 2) && !x.asleep && !(x.stop && !x.heldOff) &&
    (s.frondRuns k.f.val || (x.heldOff && s.inRun && (match s.jobOf k.f.val with | some j => s.jst j == 1 | none => false)))

/-- Whether a core executes its next instruction: at work, with no pending enabled interrupt that this boundary must take first (R196). -/
def State.coreRuns (s : State) (k : CoreRef) : Bool :=
  s.coreLive k && ((s.core k).heldOff || (s.core k).serve.isNone)

/-- SIG_FAULT (R200): the core stops in FAULT with the code and index, and the job faults. -/
def State.sigFault (s : State) (k : CoreRef) (code at_ : Nat) : State :=
  let f := k.f.val
  let s := ((s.setCoreSt k 4).p (Reg.SIG_Cc_STS_FAULT f k.c.val) code).p (Reg.SIG_Cc_STS_PC_AT f k.c.val) at_
  (s.raise 0x010C (unitSrc f 2) (jobByte (s.jobOf f)) (k.c.val + code <<< 4 + at_ <<< 8)).frondFault f 0x010C (unitSrc f 2)

/-! ### Moves (R185, R187, R188) -/

/-- Bytes of a move size code; the reserved code has none. -/
def moveBytes (c : Fin 4) : Nat := if c = 0 then 16 else if c = 1 then 8 else if c = 2 then 4 else 0

/-- The low `n` bits of a number in reversed order. -/
def revBits (n v : Nat) : Nat := maskOf ((List.range n).filter (fun i => v.testBit (n - 1 - i)))

/-- Whether a length is one that modifiers 4 and 5 take (R188). -/
def lenOk (l : Nat) : Bool := (List.range 13).any (fun i => l == 2 ^ (i + 4))

/-- Address used and pointer afterwards (R188). -/
def moveAddr (x : SigCore) (m : MoveSlot) : Nat × Nat :=
  let p := (x.p.get m.ptr).toNat
  let n := (x.n.get m.ptr).toNat
  let l := (x.l.get m.ptr).toNat
  let size := moveBytes m.size
  let wrap := fun (v : Nat) => v % 2 ^ 18
  match m.modif.val with
  | 0 => (p, p)
  | 1 => (p, wrap (p + size))
  | 2 => (p, wrap (p + 2 ^ 18 - size))
  | 3 => (p, wrap (p + n))
  | 4 => (p, wrap (p / l * l + (p % l + n) % l))
  | 5 => let w := Nat.log2 l
         (p, wrap (p / l * l + revBits w ((revBits w (p % l) + revBits w (n % l)) % l)))
  | 6 => (wrap (p + n), p)
  | _ => (p, p)

/-- First offset and end of a bus's memory (R185): X, Y, C. -/
def busMem (b : Nat) : Nat × Nat := if b = 0 then (0, 0x18000) else if b = 1 then (0x18000, 0x30000) else (0x30000, 0x40000)

/-- The fault codes that a move slot runs into (R187, R188, R200). -/
def moveBad (x : SigCore) (b : Nat) (m : MoveSlot) : List Nat :=
  let size := moveBytes m.size
  let a := (moveAddr x m).1
  (if m.size = 3 ∨ m.modif = 7 then [1] else []) ++
    (if (m.modif = 4 ∨ m.modif = 5) ∧ lenOk (x.l.get m.ptr).toNat = false then [7]
     else if m.size ≠ 3 ∧ (a < (busMem b).1 ∨ a + size > (busMem b).2 ∨ a % size ≠ 0) then [2] else [])

/-- The move slots of an instruction with their buses: XMOV, YMOV, CMOV (R187). -/
def sigMoves (o : SigOp) : List (Nat × MoveSlot) :=
  ([(0, 28), (1, 40), (2, 52)] : List (Nat × Nat)).filterMap (fun b => (o.slot b.2).map (fun m => (b.1, m)))

/-- The registers that a load writes, with their values. -/
def State.moveLoad (s : State) (k : CoreRef) (m : MoveSlot) (a : Nat) : List (Nat × Word) :=
  (List.range (moveBytes m.size / 4)).map (fun i => (4 * m.quad.val + i, BitVec.ofNat 32 (s.ldN (sigBase k.f.val k.c.val + a + 4 * i) 4)))

/-- The bytes that a store writes. -/
def moveStore (x : SigCore) (m : MoveSlot) : List Byte :=
  (List.range (moveBytes m.size / 4)).flatMap (fun i => toLE 4 (x.d[(4 * m.quad.val + i) % 16]?.getD 0).toNat)

/-- The repeat cache is emptied; its body is captured again at the next iteration of its level (R194). -/
def SigCore.emptied (x : SigCore) : SigCore := { x with cache := none, held := [], recap := x.cache.or x.recap }

/-- A store to C memory inside the cached body empties the repeat cache (R194). -/
def SigCore.afterStore (x : SigCore) (a n : Nat) : SigCore :=
  match x.cache with
  | some (first, last) => if 0x30000 + 8 * first < a + n ∧ a < 0x30000 + 8 * (last + 1) then x.emptied else x
  | none => x

/-- The word of the instruction at PC is captured when it lies in the body that the cache holds and is not there yet (R194). -/
def SigCore.keep (x : SigCore) (w : BitVec 64) : SigCore :=
  match x.cache with
  | some (a, b) =>
    if a ≤ x.pc.toNat ∧ x.pc.toNat ≤ b ∧ x.held.all (fun e => e.1 != x.pc.toNat) then { x with held := x.held ++ [(x.pc.toNat, w)] } else x
  | none => x

/-- The moves of an instruction: loads and pointer updates to be written at the end of the cycle, and the state after the stores. -/
def State.doMoves (s : State) (k : CoreRef) (x : SigCore) (l : List (Nat × MoveSlot)) : State × List (Nat × Word) × List (Nat × BitVec 18) :=
  l.foldl (fun (e : State × List (Nat × Word) × List (Nat × BitVec 18)) m =>
    let (a, p) := moveAddr x m.2
    let pw := e.2.2 ++ (if (x.p.get m.2.ptr).toNat = p then [] else [(m.2.ptr.val, BitVec.ofNat 18 p)])
    if m.2.store then
      let bs := moveStore x m.2
      let t := (e.1.store (sigBase k.f.val k.c.val + a) bs).modCore k (fun y => y.afterStore a bs.length)
      (t, e.2.1, pw)
    else (e.1, e.2.1 ++ s.moveLoad k m.2 a, pw)) (s, [], [])

/-- Whether a load reads a poisoned word (R303). -/
def State.movePoison (s : State) (k : CoreRef) (x : SigCore) (l : List (Nat × MoveSlot)) : Bool :=
  l.any (fun m => !m.2.store && s.poisoned (sigBase k.f.val k.c.val + (moveAddr x m.2).1) (moveBytes m.2.size))

/-- Registers written at the end of a cycle. A register that two slots write holds a value the spec does not state: free (log 5, log 24). -/
def State.putRegs {n w : Nat} (s : State) (v : Vector (BitVec w) n) (l : List (Nat × BitVec w)) : Vector (BitVec w) n × State :=
  (List.range n).foldl (fun (e : Vector (BitVec w) n × State) i =>
    match l.filter (fun x => x.1 == i) with
    | [] => e
    | [x] => (e.1.setIfInBounds i x.2, e.2)
    | _ => let (u, t) := e.2.free; (e.1.setIfInBounds i (BitVec.ofNat w u.toNat), t)) (v, s)

/-! ### Program flow (R192, R193, R196) -/

/-- The end of a repeat body (R193): the innermost level that ends here takes its next iteration, or is exhausted and the level outside it is looked at. -/
def repEnd (pc : Nat) : List RepLevel → Option Nat × List RepLevel
  | [] => (none, [])
  | l :: r =>
    if l.last ≠ pc then (none, l :: r)
    else if l.left > 1 then (some l.first, { l with left := l.left - 1 } :: r)
    else repEnd pc r

/-- The levels that stay after a taken branch to a target (R192): the outermost ones whose bodies hold it. -/
def repKeep (t : Nat) (l : List RepLevel) : List RepLevel :=
  ((l.reverse).takeWhile (fun x => decide (x.first ≤ t ∧ t ≤ x.last))).reverse

/-- The core goes back to the first instruction of its innermost level; a level whose captured body was emptied is captured again from here (R194). -/
def SigCore.loopBack (x : SigCore) (t : Nat) (r : List RepLevel) : SigCore :=
  let y := { x with pc := BitVec.ofNat 13 t, reps := r }
  match r with
  | l :: _ => if x.recap = some (l.first, l.last) then { y with cache := x.recap, held := [], recap := none } else y
  | [] => y

/-- After an instruction at an index: the next iteration of a body that ends there, or the instruction that follows. -/
def SigCore.after (x : SigCore) (at_ : Nat) : SigCore :=
  match repEnd at_ x.reps with
  | (some t, r) => x.loopBack t r
  | (none, r) => { x with pc := BitVec.ofNat 13 (at_ + 1), reps := r }

/-- The next instruction in sequence. -/
def SigCore.seqNext (x : SigCore) : SigCore := x.after x.pc.toNat

/-- A transfer of control takes effect (R192, R196): a branch leaves repeat levels that do not hold its target; a return from a handler restores the shadow set and clears the pending source. -/
def SigCore.jump (x : SigCore) (d : Delay) (t : BitVec 13) : SigCore :=
  match d.kind, x.shadow with
  | 0, _ => { x with pc := t, reps := repKeep t.toNat x.reps }
  | 1, _ => { x with pc := t }
  | _, some h => { x with pc := h.ret, reps := h.reps, ix := h.ix, ien := h.ien, shadow := none, pend := x.pend &&& ~~~(1#3 <<< h.src.val) }
  | _, none => { x with pc := t }

/-- The core after an instruction that is no control instruction: `before` is the transfer that was waiting when it started (R192). -/
def SigCore.next (x : SigCore) (before : Option Delay) : SigCore :=
  match before with
  | none => x.seqNext
  | some d =>
    if d.left ≤ 1 then
      (match d.target with
       | some t => { x with delay := none }.jump d t
       | none => { x with delay := none }.seqNext)
    else { x with delay := some { d with left := d.left - 1 } }.seqNext

/-! ### Running an instruction -/

/-- What the compute slot of an instruction answers: registers D and P to write at the end of the cycle, the rest of the core, whether something saturated, fault codes, and the state (for free values). -/
structure SigRes where
  st   : State
  x    : SigCore
  dw   : List (Nat × Word)
  pw   : List (Nat × BitVec 18)
  ovf  : Bool
  bad  : List Nat

/-- How an instruction goes on: in sequence, by starting a transfer of control, by a repeat, by counting interrupts off. -/
inductive SigFlow where
  | seq
  | delay (d : Delay)
  | rep (first last count : Nat)
  | di (n : Nat)
  | sleep
  | halt
  deriving DecidableEq, Repr

/-- The move slots that an instruction carries: REP and REPD none (R187). -/
def SigFlow.moves (fl : SigFlow) (o : SigOp) : List (Nat × MoveSlot) := match fl with | .rep .. => [] | _ => sigMoves o

/-- The core after an instruction's flow: the DI count runs on, and the first instruction after REP ends its hold (R192, R193, R196). -/
def SigCore.flow (x : SigCore) (fl : SigFlow) : SigCore :=
  let before := x.delay
  let y := { x with di := x.di - 1, atRep := false }
  match fl with
  | .seq => y.next before
  | .delay d => { y with delay := some d }.seqNext
  | .rep first last count =>
    if count = 0 then y.after last
    else
      let y := { y with pc := BitVec.ofNat 13 first, reps := ⟨first, last, count⟩ :: y.reps, atRep := true, recap := if y.recap = some (first, last) then none else y.recap }
      let inside := match y.cache with | some (a, b) => decide (a ≤ first ∧ last ≤ b) | none => false
      if inside || decide (last + 1 - first > 32) then y else { y with cache := some (first, last), held := [] }
  | .di n => { y.next before with di := n }
  | .sleep => { y.next before with asleep := true }
  | .halt => y.next before

/-- The fault codes of program flow (R192, R193, R200). -/
def SigCore.flowBad (x : SigCore) (fl : SigFlow) : List Nat :=
  let ctl := match fl with | .delay _ => true | .rep .. => true | _ => false
  (if ctl && x.delay.isSome then [3] else []) ++
    (match x.delay with
     | some d => if d.target.isSome && x.reps.any (fun r => r.last == x.pc.toNat) then [4] else []
     | none => []) ++
    (match fl with | .rep _ _ n => if n ≠ 0 ∧ x.reps.length ≥ 4 then [5] else [] | _ => [])

/-- The lowest fault code of a list. -/
def lowest (l : List Nat) : Nat := l.foldl min 15

/-- An instruction of a core (R187, R189, R192, R193, R200): faults stop it with no effect; else moves and compute read at the start of the cycle and write at its end, and the core goes on. `flow` and `comp` read the fetched word (R185, R187); `rsvd`: its OP is a reserved one, fault 1 (R189). `cycles` is the issue time, `stall` the cycles it was stalled (R189, R195). -/
def State.sigRun (s : State) (k : CoreRef) (rsvd : Bool) (cycles stall : Nat) (flow : SigOp → SigCore → SigFlow) (comp : SigOp → State → SigCore → SigRes) : State :=
  if !s.coreRuns k then s
  else
    let x := s.core k
    let at_ := x.pc.toNat
    let o := s.sigWord k
    let fl := flow o x
    let fresh := x.cached.isNone && s.poisoned (s.sigAddr k) 8
    let s := s.wakeRange (sigBase k.f.val k.c.val) 1
    let moves := fl.moves o
    let r := comp o s x
    let bad := if rsvd then [1] else moves.flatMap (fun m => moveBad x m.1 m.2) ++ r.bad ++ x.flowBad fl
    if fresh then s.frondFault k.f.val 0x0601 (unitSrc k.f.val 2)
    else if !bad.isEmpty then s.sigFault k (lowest bad) at_
    else if s.movePoison k x moves then s.frondFault k.f.val 0x0601 (unitSrc k.f.val 2)
    else
      let s := r.st.modCore k (fun _ => r.x)
      let (s, loads, ptrs) := s.doMoves k x moves
      let c := s.core k
      let (d, s) := s.putRegs r.x.d (r.dw ++ loads)
      let (p, s) := s.putRegs r.x.p (r.pw ++ ptrs)
      let y := ({ r.x with d := d, p := p, cache := c.cache, held := c.held, recap := c.recap }.keep o.word).flow fl
      let s := s.modCore k (fun _ => y)
      let s := (s.setCoreSt k 1).addc (Reg.SIG_Cc_BUSY_CNT k.f.val k.c.val) (cycles + stall)
      let s := s.addc (Reg.SIG_Cc_STALL_CNT k.f.val k.c.val) stall
      let s := if r.ovf then (s.p (Reg.SIG_Cc_STS_OVF_STK k.f.val k.c.val) 1).inc (Reg.SIG_OVF_CNT k.f.val) else s
      let s := match fl with
        | .halt => (s.setCoreSt k 3).p (Reg.SIG_Cc_STS_PC_AT k.f.val k.c.val) at_
        | .sleep => s.coreWake k
        | _ => s
      s.stopTest k

/-- No compute operation. -/
def sigNone (s : State) (x : SigCore) : SigRes := ⟨s, x, [], [], false, []⟩

/-- An instruction with no control flow of its own. -/
def State.sigPlain (s : State) (k : CoreRef) (rsvd : Bool) (cycles stall : Nat) (comp : SigOp → State → SigCore → SigRes) : State :=
  s.sigRun k rsvd cycles stall (fun _ _ => .seq) comp

/-! ### Control from outside (R196, R197, R199) -/

/-- A write of SIG_Cc_CTL (R196, R199): START starts an idle or halted core at PC, in RUN, WAIT and FAULT it is ignored; STOP ends the core at the next boundary; IRQ raises HOST. -/
def State.sigCtl (s : State) (agent : Nat) (k : CoreRef) (v : Nat) : State :=
  let f := k.f.val
  let c := k.c.val
  let CTL := (Reg.SIG_Cc_CTL_PC f c).addr
  s.guard agent CTL true (fun s =>
    let may := s.mayWrite agent .fw
    let st := s.coreSt k
    let s := (((s.writeFields agent CTL v).p (Reg.SIG_Cc_CTL_IRQ f c) 0).p (Reg.SIG_Cc_CTL_STOP f c) 0).p (Reg.SIG_Cc_CTL_START f c) 0
    if !may then s
    else
      let s := if v.testBit 29 then (s.modCore k (fun x => { x with pend := x.pend ||| 0b100#3 })).coreWake k else s
      let s := if v.testBit 31 then
          (if st = 0 ∨ st = 3 then
            (s.modCore k (fun x => { x with pc := BitVec.ofNat 13 v, delay := none, atRep := false, di := 0, asleep := false, stop := false })).setCoreSt k 1
          else s.ignore)
        else s
      if v.testBit 30 ∧ (s.coreSt k = 1 ∨ s.coreSt k = 2) then (s.modCore k (fun x => { x with stop := true })).stopTest k else s)

/-- SIG_CORE_START (R199). -/
def execSigCoreStart (agent : Byte) (k : CoreRef) (val : Word) (s : State) : Host.Outcome State Fault Refusal :=
  act (fun s => s.sigCtl agent.toNat k val.toNat) s

/-- SIG_CORE_STOP (R199). -/
def execSigCoreStop (agent : Byte) (k : CoreRef) (val : Word) (s : State) : Host.Outcome State Fault Refusal :=
  act (fun s => s.sigCtl agent.toNat k val.toNat) s

/-- SIG_HOST_IRQ (R196). -/
def execSigHostIrq (agent : Byte) (k : CoreRef) (val : Word) (s : State) : Host.Outcome State Fault Refusal :=
  act (fun s => s.sigCtl agent.toNat k val.toNat) s

/-- SIG_MBI_WRITE (R197): a word enters the inbound mailbox; into a full one, or by an agent that may not, the write is ignored. -/
def execSigMbiWrite (agent : Byte) (k : CoreRef) (val : Word) (s : State) : Host.Outcome State Fault Refusal :=
  act (fun s => s.guard agent.toNat (Reg.SIG_Cc_MBI k.f.val k.c.val).addr true (fun s =>
    let q := (s.core k).mbi
    if !s.mayWrite agent.toNat .fw then (if val = 0 then s else s.ignore)
    else if q.length ≥ 8 then s.ignore
    else ((s.modCore k (fun x => { x with mbi := q ++ [val] })).p (Reg.SIG_Cc_STS_MBI_CNT k.f.val k.c.val) (q.length + 1)).coreWake k)) s

/-- SIG_MBO_READ (R197): the head of the outbound mailbox is read and removed; an empty one reads 0. -/
def execSigMboRead (agent : Byte) (k : CoreRef) (s : State) : Host.Outcome State Fault Refusal :=
  act (fun s => s.readLog agent.toNat (Reg.SIG_Cc_MBO k.f.val k.c.val).addr 4) s

/-- The TIME source of a core fires when it is armed and the compact time of its domain has reached TCMP; ARM clears (R196). -/
def State.timeSource (s : State) (k : CoreRef) : State :=
  let f := k.f.val
  let c := k.c.val
  let now := s.compact (domOf (s.g (Reg.SIG_Cc_TCFG_TDOM f c)))
  if s.on (Reg.SIG_Cc_TCFG_ARM f c) && decide (ctDiff now (s.g (Reg.SIG_Cc_TCMP f c)) ≥ 0) then
    ((s.p (Reg.SIG_Cc_TCFG_ARM f c) 0).modCore k (fun x => { x with pend := x.pend ||| 0b010#3 })).coreWake k
  else s

/-- SIG_TIME_SOURCE_FIRE (R196): the compact time of the chosen domain has reached TCMP; the source fires and ARM clears. -/
def execSigTimeSourceFire (k : CoreRef) (s : State) : Host.Outcome State Fault Refusal := act (fun s => s.timeSource k) s

/-- SIG_INTERRUPT_ENTRY (R196): at a boundary that is not held off, the first pending enabled source is taken: return index, repeat stack, IX and IEN are saved, and the core goes on at IVEC. -/
def execSigInterruptEntry (k : CoreRef) (s : State) : Host.Outcome State Fault Refusal :=
  act (fun s =>
    let x := s.core k
    if !s.coreLive k || x.heldOff then s
    else match x.serve with
      | none => s
      | some src =>
        (s.modCore k (fun x => { x.emptied with
          shadow := some ⟨x.pc, x.reps, x.ix, x.ien, src⟩, reps := [], ien := 0, di := 0, pc := x.ivec })).setCoreSt k 1) s

/-! ### The mover (R198) -/

/-- The posts at the head of the mover's queue happen, their MOVEs being complete; one that would overflow is fault 9. -/
def State.moverPosts (s : State) (k : CoreRef) : List MovItem → State
  | .post sem side count at_ :: r =>
    match s.post k.f.val sem side count with
    | some t => (t.modCore k (fun x => { x with mover := r })).moverPosts k r
    | none => (s.modCore k (fun x => { x with mover := r })).sigFault k 9 at_
  | _ => s

/-- SIG_MOVE_COMPLETE (R198): the oldest queued transfer is made; posts that waited for it follow, and a core that is stopping may end. -/
def execSigMoveComplete (k : CoreRef) (s : State) : Host.Outcome State Fault Refusal :=
  act (fun s =>
    match (s.core k).mover, s.jobOf k.f.val with
    | .move loc dev toLocal len :: r, some j =>
      let l := sigBase k.f.val k.c.val + loc
      let s := s.modCore k (fun x => { x with mover := r })
      let s := if toLocal then (s.moveRow j 0 ⟨dev, len, l, len⟩).modCore k (fun x => x.afterStore loc len)
        else s.moveRow j 0 ⟨l, len, dev, len⟩
      (s.moverPosts k r).stopTest k
    | _, _ => s) s

end Sys2Proof.Machine
end

