-- ==== Sys2Proof/Machine/SigOps.lean ====
section
/-!
DEFINITION. The instructions of the signal cores (06 R189 to R198).
Shift counts are IMM[4:0] (DEDUCED, log 24); accumulators are named by the low two bits of DD and SA (PRESUMED, log 24).
-/
namespace Sys2Proof.Machine

open Sys2Proof (Byte Word CoreRef SpecReg)

/-! ### Operands -/

/-- A data register; numbers wrap at 16. -/
def SigCore.dr (x : SigCore) (i : Nat) : Word := x.d[i % 16]?.getD 0

/-- A CI16 value of a register: real part low (R186). -/
def ci16 (w : Word) : Int × Int := (sx 16 w.toNat, sx 16 (w.toNat / 65536))

/-- A register of two INT16 parts, each saturated (R103). -/
def packCi (re im : Int) : Word := BitVec.ofNat 32 (toBits 16 (satS 16 re) + toBits 16 (satS 16 im) * 65536)

/-- The exact product of two complex integers; `conj` conjugates the second. -/
def cmulI (conj : Bool) (a b : Int × Int) : Int × Int :=
  let bi := if conj then -b.2 else b.2
  (a.1 * b.1 - a.2 * bi, a.1 * bi + a.2 * b.1)

/-- An integer divided by 2^n, rounded half to even (R103). -/
def rneInt (v : Int) (n : Nat) : Int := let u := rneShift v.natAbs n; if v < 0 then -(u : Int) else u

/-- An answer that writes data registers only. -/
def sigW (s : State) (x : SigCore) (l : List (Nat × Word)) : SigRes := ⟨s, x, l.map (fun e => (e.1 % 16, e.2)), [], false, []⟩

/-- The answer of an instruction that needs an even DD (R200). -/
def SigRes.even (r : SigRes) (o : SigOp) : SigRes := if o.dd.val % 2 = 1 then { r with bad := 1 :: r.bad } else r

/-! ### Complex MAC and accumulators (R189, R190) -/

/-- An accumulator plus a product: each part saturates at 40 bits; and whether one did. -/
def SigCore.mac (x : SigCore) (i : Fin 4) (p : Int × Int) : SigCore × Bool :=
  let re := (x.accRe.get i).toInt + p.1
  let im := (x.accIm.get i).toInt + p.2
  ({ x with accRe := x.accRe.set i (BitVec.ofInt 40 (satS 40 re)), accIm := x.accIm.set i (BitVec.ofInt 40 (satS 40 im)) },
    satS 40 re != re || satS 40 im != im)

/-- Two complex MACs (R189). -/
def cmac2 (o : SigOp) (s : State) (x : SigCore) : SigRes :=
  let conj := o.imm.getLsbD 5
  let p := fun (i : Nat) => cmulI conj (ci16 (x.dr (o.sa.val + i))) (ci16 (x.dr (o.sb.val + i)))
  let (y, a) := x.mac (Fin.ofNat 4 o.dd.val) (p 0)
  let (y, b) := y.mac (Fin.ofNat 4 (o.dd.val + 1)) (p 1)
  ({ st := s, x := y, dw := [], pw := [], ovf := a || b, bad := [] } : SigRes).even o

/-- SIG_CMAC2 (R189). -/
def execSigCmac2 (k : CoreRef) (rsvd : Bool) (stall : Nat) (s : State) : Host.Outcome State Fault Refusal :=
  act (fun s => s.sigPlain k rsvd 1 stall cmac2) s

/-- Two CI16 results of one operation on both register pairs. -/
def pair2 (o : SigOp) (f : Int × Int → Int × Int → Int × Int) (s : State) (x : SigCore) : SigRes :=
  sigW s x ((List.range 2).map (fun i =>
    let r := f (ci16 (x.dr (o.sa.val + i))) (ci16 (x.dr (o.sb.val + i)))
    (o.dd.val + i, packCi r.1 r.2)))

/-- SIG_CMUL2 (R189): products rounded right by IMM[4:0]; IMM[5] conjugates. -/
def execSigCmul2 (k : CoreRef) (rsvd : Bool) (stall : Nat) (s : State) : Host.Outcome State Fault Refusal :=
  act (fun s => s.sigPlain k rsvd 1 stall (fun o => pair2 o (fun a b =>
    let p := cmulI (o.imm.getLsbD 5) a b
    (rneInt p.1 (bits o.imm.toNat 0 5), rneInt p.2 (bits o.imm.toNat 0 5))))) s

/-- SIG_CADD2 (R189). -/
def execSigCadd2 (k : CoreRef) (rsvd : Bool) (stall : Nat) (s : State) : Host.Outcome State Fault Refusal :=
  act (fun s => s.sigPlain k rsvd 1 stall (fun o => pair2 o (fun a b => (a.1 + b.1, a.2 + b.2)))) s

/-- SIG_CSUB2 (R189). -/
def execSigCsub2 (k : CoreRef) (rsvd : Bool) (stall : Nat) (s : State) : Host.Outcome State Fault Refusal :=
  act (fun s => s.sigPlain k rsvd 1 stall (fun o => pair2 o (fun a b => (a.1 - b.1, a.2 - b.2)))) s

/-- SIG_CLRA (R189). -/
def execSigClra (k : CoreRef) (rsvd : Bool) (stall : Nat) (s : State) : Host.Outcome State Fault Refusal :=
  act (fun s => s.sigPlain k rsvd 1 stall (fun o s x =>
    sigNone s { x with accRe := x.accRe.set (Fin.ofNat 4 o.dd.val) 0, accIm := x.accIm.set (Fin.ofNat 4 o.dd.val) 0 })) s

/-- SIG_RNDA (R189, R190): an accumulator shifted right, rounded and saturated to CI16. -/
def execSigRnda (k : CoreRef) (rsvd : Bool) (stall : Nat) (s : State) : Host.Outcome State Fault Refusal :=
  act (fun s => s.sigPlain k rsvd 1 stall (fun o s x =>
    let n := bits o.imm.toNat 0 5
    let re := rneInt (x.accRe.get (Fin.ofNat 4 o.sa.val)).toInt n
    let im := rneInt (x.accIm.get (Fin.ofNat 4 o.sa.val)).toInt n
    { sigW s x [(o.dd.val, packCi re im)] with ovf := satS 16 re != re || satS 16 im != im })) s

/-! ### Integer (R189) -/

/-- A 32-bit operation on D(SA) and D(SB). -/
def int2 (o : SigOp) (f : Word → Word → Word) (s : State) (x : SigCore) : SigRes := sigW s x [(o.dd.val, f (x.dr o.sa.val) (x.dr o.sb.val))]

/-- SIG_ADD (R189): saturates. -/
def execSigAdd (k : CoreRef) (rsvd : Bool) (stall : Nat) (s : State) : Host.Outcome State Fault Refusal :=
  act (fun s => s.sigPlain k rsvd 1 stall (fun o => int2 o (fun a b => BitVec.ofInt 32 (satS 32 (a.toInt + b.toInt))))) s

/-- SIG_SUB (R189): saturates. -/
def execSigSub (k : CoreRef) (rsvd : Bool) (stall : Nat) (s : State) : Host.Outcome State Fault Refusal :=
  act (fun s => s.sigPlain k rsvd 1 stall (fun o => int2 o (fun a b => BitVec.ofInt 32 (satS 32 (a.toInt - b.toInt))))) s

/-- SIG_AND (R189). -/
def execSigAnd (k : CoreRef) (rsvd : Bool) (stall : Nat) (s : State) : Host.Outcome State Fault Refusal :=
  act (fun s => s.sigPlain k rsvd 1 stall (fun o => int2 o (fun a b => a &&& b))) s

/-- SIG_OR (R189). -/
def execSigOr (k : CoreRef) (rsvd : Bool) (stall : Nat) (s : State) : Host.Outcome State Fault Refusal :=
  act (fun s => s.sigPlain k rsvd 1 stall (fun o => int2 o (fun a b => a ||| b))) s

/-- SIG_XOR (R189). -/
def execSigXor (k : CoreRef) (rsvd : Bool) (stall : Nat) (s : State) : Host.Outcome State Fault Refusal :=
  act (fun s => s.sigPlain k rsvd 1 stall (fun o => int2 o (fun a b => a ^^^ b))) s

/-- SIG_SHL (R189): times 2^IMM[4:0]; no result wraps (R103; DEDUCED, log 24). -/
def execSigShl (k : CoreRef) (rsvd : Bool) (stall : Nat) (s : State) : Host.Outcome State Fault Refusal :=
  act (fun s => s.sigPlain k rsvd 1 stall (fun o => int2 o (fun a _ => BitVec.ofInt 32 (satS 32 (a.toInt * 2 ^ bits o.imm.toNat 0 5))))) s

/-- SIG_SHR (R189): divided by 2^IMM[4:0], rounded (R103; DEDUCED, log 24). -/
def execSigShr (k : CoreRef) (rsvd : Bool) (stall : Nat) (s : State) : Host.Outcome State Fault Refusal :=
  act (fun s => s.sigPlain k rsvd 1 stall (fun o => int2 o (fun a _ => BitVec.ofInt 32 (rneInt a.toInt (bits o.imm.toNat 0 5))))) s

/-- SIG_MOV (R189). -/
def execSigMov (k : CoreRef) (rsvd : Bool) (stall : Nat) (s : State) : Host.Outcome State Fault Refusal :=
  act (fun s => s.sigPlain k rsvd 1 stall (fun o => int2 o (fun a _ => a))) s

/-- SIG_MOVI (R189): the sign-extended IMM with SB: 12 bits, SB above IMM being bits [3:0] (DEDUCED from R187's layout, log 24). -/
def execSigMovi (k : CoreRef) (rsvd : Bool) (stall : Nat) (s : State) : Host.Outcome State Fault Refusal :=
  act (fun s => s.sigPlain k rsvd 1 stall (fun o => int2 o (fun _ _ => BitVec.ofInt 32 (sx 12 (o.sb.val + 16 * o.imm.toNat))))) s

/-! ### Search (R191) -/

/-- A running extreme: each element in turn replaces the held value and writes its index when it is strictly better; IX then rises by 2. -/
def search (o : SigOp) (better : Nat → Nat → Bool) (held e0 e1 : Nat) (s : State) (x : SigCore) : SigRes :=
  let ix := x.ix.toNat
  let (h, i) := if better e0 held then (e0, some ix) else (held, none)
  let (h, i) := if better e1 h then (e1, some (ix + 1)) else (h, i)
  let w := match i with
    | some n => [(o.dd.val, BitVec.ofNat 32 h), (o.dd.val + 1, BitVec.ofNat 32 n)]
    | none => []
  (sigW s { x with ix := x.ix + 2 } w).even o

/-- The two signed halves of D(SA), as 32-bit words (R191). -/
def halves (x : SigCore) (o : SigOp) : Nat × Nat := (toBits 32 (ci16 (x.dr o.sa.val)).1, toBits 32 (ci16 (x.dr o.sa.val)).2)

/-- |z|² of the CI16 value of a register (R191). -/
def mag2 (w : Word) : Nat := ((ci16 w).1 * (ci16 w).1 + (ci16 w).2 * (ci16 w).2).toNat

/-- SIG_MAXI (R191). -/
def execSigMaxi (k : CoreRef) (rsvd : Bool) (stall : Nat) (s : State) : Host.Outcome State Fault Refusal :=
  act (fun s => s.sigPlain k rsvd 1 stall (fun o s x =>
    search o (fun a b => decide (sx 32 a > sx 32 b)) (x.dr o.dd.val).toNat (halves x o).1 (halves x o).2 s x)) s

/-- SIG_MINI (R191). -/
def execSigMini (k : CoreRef) (rsvd : Bool) (stall : Nat) (s : State) : Host.Outcome State Fault Refusal :=
  act (fun s => s.sigPlain k rsvd 1 stall (fun o s x =>
    search o (fun a b => decide (sx 32 a < sx 32 b)) (x.dr o.dd.val).toNat (halves x o).1 (halves x o).2 s x)) s

/-- SIG_MAXM (R191). -/
def execSigMaxm (k : CoreRef) (rsvd : Bool) (stall : Nat) (s : State) : Host.Outcome State Fault Refusal :=
  act (fun s => s.sigPlain k rsvd 1 stall (fun o s x =>
    search o (fun a b => decide (a > b)) (x.dr o.dd.val).toNat (mag2 (x.dr o.sa.val)) (mag2 (x.dr (o.sa.val + 1))) s x)) s

/-- SIG_MINM (R191). -/
def execSigMinm (k : CoreRef) (rsvd : Bool) (stall : Nat) (s : State) : Host.Outcome State Fault Refusal :=
  act (fun s => s.sigPlain k rsvd 1 stall (fun o s x =>
    search o (fun a b => decide (a < b)) (x.dr o.dd.val).toNat (mag2 (x.dr o.sa.val)) (mag2 (x.dr (o.sa.val + 1))) s x)) s

/-! ### Rotation and functions (R189, R190) -/

/-- π/2 times 2^128, cut. -/
def halfPi128 : Nat := 534514292032483373929840186580935391650

/-- Alternating series with terms t·z²/((n+1)(n+2)): sine from n = 1, cosine from n = 0; values times 2^128. -/
def trigSeries : Nat → Nat → Nat → Int → Int
  | 0, _, _, _ => 0
  | i + 1, n, z2, t => t + trigSeries i (n + 2) z2 (-(t * z2 / (2 ^ 128 : Nat) / ((n + 1) * (n + 2) : Nat)))

/-- Sine of r quarter turns / 2^q, times 2^128; r at most half of 2^q. -/
def sin128 (q r : Nat) : Int :=
  let z := r * halfPi128 / 2 ^ q
  trigSeries 30 1 (z * z / 2 ^ 128) z

/-- Cosine of r quarter turns / 2^q, times 2^128; r at most half of 2^q. -/
def cos128 (q r : Nat) : Int :=
  let z := r * halfPi128 / 2 ^ q
  trigSeries 30 0 (z * z / 2 ^ 128) (2 ^ 128 : Nat)

/-- Cosine and sine of a phase in 2^q units a quarter turn, times 2^128. -/
def cisAt (q ph : Nat) : Int × Int :=
  let r := ph % 2 ^ q
  let (c, s) := if 2 * r ≤ 2 ^ q then (cos128 q r, sin128 q r) else (sin128 q (2 ^ q - r), cos128 q (2 ^ q - r))
  match ph / 2 ^ q % 4 with
  | 0 => (c, s)
  | 1 => (-s, c)
  | 2 => (-c, -s)
  | _ => (s, -c)

/-- Cosine and sine of a phase in 2^32 units a turn, times 2^128. -/
def cis (ph : Nat) : Int × Int := cisAt 30 ph

/-- A CI16 value turned by a phase, rounded and saturated (R190). -/
def rotate (w : Word) (ph : Nat) : Word :=
  let z := ci16 w
  let e := cis ph
  packCi (rneInt (z.1 * e.1 - z.2 * e.2) 128) (rneInt (z.1 * e.2 + z.2 * e.1) 128)

/-- SIG_ROT2 (R189): two values turned by PH, which advances by FRQ after each. -/
def execSigRot2 (k : CoreRef) (rsvd : Bool) (stall : Nat) (s : State) : Host.Outcome State Fault Refusal :=
  act (fun s => s.sigPlain k rsvd 1 stall (fun o s x =>
    sigW s { x with ph := x.ph + x.frq + x.frq }
      [(o.dd.val, rotate (x.dr o.sa.val) x.ph.toNat), (o.dd.val + 1, rotate (x.dr (o.sa.val + 1)) (x.ph + x.frq).toNat)])) s

/-- How many of the half-unit marks of the first quarter turn lie at or below the direction (re, im) of that quarter: the phase rounded, in 2^q units a quarter turn. -/
def quarterPhase (q : Nat) (re im : Int) : Nat :=
  -- mark i lies at i + 1/2 units; the marks below are found bit by bit
  let below := fun (i : Nat) => let e := cisAt (q + 1) (2 * i + 1); decide (im * e.1 - re * e.2 ≥ 0)
  (List.range (q + 1)).foldl (fun (n : Nat) b => let c := n + 2 ^ (q - b); if c ≤ 2 ^ q ∧ below (c - 1) = true then c else n) 0

/-- Phase of a complex value other than 0 in 2^q units a quarter turn, below a whole turn (R189, R219). -/
def phaseOf (q : Nat) (z : Int × Int) : Nat :=
  (if z.1 > 0 ∧ z.2 ≥ 0 then quarterPhase q z.1 z.2
   else if z.2 > 0 then 2 ^ q + quarterPhase q z.2 (-z.1)
   else if z.1 < 0 then 2 * 2 ^ q + quarterPhase q (-z.1) (-z.2)
   else 3 * 2 ^ q + quarterPhase q (-z.2) z.1) % (4 * 2 ^ q)

/-- Phase of a CI16 value in 2^16 units a turn, 0 to 65,535 (R189). -/
def phase16 (z : Int × Int) : Nat := phaseOf 14 z

/-- SIG_ANG (R189): the phase of D(SA); a zero input gives 0x7FFF_FFFF. Bits above the phase's sixteen are open for a phase of half a turn or more (log 24). -/
def execSigAng (k : CoreRef) (rsvd : Bool) (stall : Nat) (s : State) : Host.Outcome State Fault Refusal :=
  act (fun s => s.sigPlain k rsvd 4 stall (fun o s x =>
    let w := x.dr o.sa.val
    if w = 0 then sigW s x [(o.dd.val, 0x7FFFFFFF)]
    else
      let p := phase16 (ci16 w)
      if p < 32768 then sigW s x [(o.dd.val, BitVec.ofNat 32 p)]
      else let (u, s) := s.free; sigW s x [(o.dd.val, BitVec.ofNat 32 (p + u.toNat / 65536 * 65536))])) s

/-- SIG_RCP (R189): 2^30 / x for the unsigned low half of D(SA), rounded; 0 gives 0x7FFF_FFFF. -/
def execSigRcp (k : CoreRef) (rsvd : Bool) (stall : Nat) (s : State) : Host.Outcome State Fault Refusal :=
  act (fun s => s.sigPlain k rsvd 4 stall (fun o s x =>
    let v := bits (x.dr o.sa.val).toNat 0 16
    sigW s x [(o.dd.val, if v = 0 then 0x7FFFFFFF else BitVec.ofNat 32 (rneDiv (2 ^ 30) v))])) s

/-- 2^23 / √v rounded: no value lies half way between two integers. -/
def rsq23 (v : Nat) : Nat :=
  let n := isqrt (2 ^ 46 / v)
  if (2 * n + 1) * (2 * n + 1) * v < 2 ^ 48 then n + 1 else n

/-- SIG_RSQ (R189): 2^23 / √x for the unsigned low half of D(SA), rounded; 0 gives 0x7FFF_FFFF. -/
def execSigRsq (k : CoreRef) (rsvd : Bool) (stall : Nat) (s : State) : Host.Outcome State Fault Refusal :=
  act (fun s => s.sigPlain k rsvd 4 stall (fun o s x =>
    let v := bits (x.dr o.sa.val).toNat 0 16
    sigW s x [(o.dd.val, if v = 0 then 0x7FFFFFFF else BitVec.ofNat 32 (rsq23 v))])) s

/-! ### Special registers (R186, R189) -/

/-- The value of a special register as MFS reads it: signed registers extended by their sign. -/
def SigCore.spec (x : SigCore) : SpecReg → Word
  | .p i => (x.p.get i).zeroExtend 32
  | .n i => (x.n.get i).signExtend 32
  | .l i => x.l.get i
  | .ph => x.ph
  | .frq => x.frq
  | .ix => x.ix
  | .ien => if x.shadow.isSome then 0 else x.ien.zeroExtend 32
  | .ivec => x.ivec.zeroExtend 32

/-- SIG_MTS (R189): a register moves to a special register. -/
def execSigMts (k : CoreRef) (rsvd : Bool) (reg : SpecReg) (stall : Nat) (s : State) : Host.Outcome State Fault Refusal :=
  act (fun s => s.sigPlain k rsvd 1 stall (fun o s x =>
    let w := x.dr o.sa.val
    match reg with
    | .p i => ⟨s, x, [], [(i.val, w.truncate 18)], false, []⟩
    | .n i => sigNone s { x with n := x.n.set i.val (w.truncate 18) }
    | .l i => sigNone s { x with l := x.l.set i.val w }
    | .ph => sigNone s { x with ph := w }
    | .frq => sigNone s { x with frq := w }
    | .ix => sigNone s { x with ix := w }
    | .ien => sigNone s { x with ien := w.truncate 3 }
    | .ivec => sigNone s { x with ivec := w.truncate 13 })) s

/-- SIG_MFS (R189): a special register moves to a register. -/
def execSigMfs (k : CoreRef) (rsvd : Bool) (reg : SpecReg) (stall : Nat) (s : State) : Host.Outcome State Fault Refusal :=
  act (fun s => s.sigPlain k rsvd 1 stall (fun o s x => sigW s x [(o.dd.val, x.spec reg)])) s

/-! ### Control (R192, R193, R196) -/

/-- A branch on a condition of D(SA). -/
def State.sigBranch (s : State) (k : CoreRef) (rsvd : Bool) (target : BitVec 13) (stall : Nat) (cond : Word → Bool) : State :=
  s.sigRun k rsvd 1 stall (fun o x => .delay ⟨2, if cond (x.dr o.sa.val) then some target else none, 0⟩) (fun _ => sigNone)

/-- SIG_BR (R192). -/
def execSigBr (k : CoreRef) (rsvd : Bool) (target : BitVec 13) (stall : Nat) (s : State) : Host.Outcome State Fault Refusal :=
  act (fun s => s.sigBranch k rsvd target stall (fun _ => true)) s

/-- SIG_BRZ (R192). -/
def execSigBrz (k : CoreRef) (rsvd : Bool) (target : BitVec 13) (stall : Nat) (s : State) : Host.Outcome State Fault Refusal :=
  act (fun s => s.sigBranch k rsvd target stall (fun w => w == 0)) s

/-- SIG_BRNZ (R192). -/
def execSigBrnz (k : CoreRef) (rsvd : Bool) (target : BitVec 13) (stall : Nat) (s : State) : Host.Outcome State Fault Refusal :=
  act (fun s => s.sigBranch k rsvd target stall (fun w => w != 0)) s

/-- SIG_BRN (R192): on a negative value. -/
def execSigBrn (k : CoreRef) (rsvd : Bool) (target : BitVec 13) (stall : Nat) (s : State) : Host.Outcome State Fault Refusal :=
  act (fun s => s.sigBranch k rsvd target stall (fun w => w.msb)) s

/-- SIG_BRNN (R192): on a value that is not negative. -/
def execSigBrnn (k : CoreRef) (rsvd : Bool) (target : BitVec 13) (stall : Nat) (s : State) : Host.Outcome State Fault Refusal :=
  act (fun s => s.sigBranch k rsvd target stall (fun w => !w.msb)) s

/-- SIG_CALL (R192): the index after the delay slots goes onto the call stack of 8. -/
def execSigCall (k : CoreRef) (rsvd : Bool) (target : BitVec 13) (stall : Nat) (s : State) : Host.Outcome State Fault Refusal :=
  act (fun s => s.sigRun k rsvd 1 stall (fun _ _ => .delay ⟨2, some target, 1⟩) (fun _ s x =>
    if x.calls.length ≥ 8 then { sigNone s x with bad := [6] } else sigNone s { x with calls := (x.pc + 3) :: x.calls })) s

/-- SIG_RET (R192): the last return index comes off the call stack. -/
def execSigRet (k : CoreRef) (rsvd : Bool) (stall : Nat) (s : State) : Host.Outcome State Fault Refusal :=
  act (fun s => s.sigRun k rsvd 1 stall (fun _ x => .delay ⟨2, some (x.calls.headD 0), 1⟩) (fun _ s x =>
    match x.calls with
    | [] => { sigNone s x with bad := [6] }
    | _ :: r => sigNone s { x with calls := r })) s

/-- SIG_RETI (R196): after its delay slots the shadow set is restored; outside a handler it is fault 10. -/
def execSigReti (k : CoreRef) (rsvd : Bool) (stall : Nat) (s : State) : Host.Outcome State Fault Refusal :=
  act (fun s => s.sigRun k rsvd 1 stall (fun _ x => .delay ⟨2, some ((x.shadow.map (·.ret)).getD 0), 2⟩) (fun _ s x =>
    if x.shadow.isNone then { sigNone s x with bad := [10] } else sigNone s x)) s

/-- SIG_REP (R193): the body from the next instruction to the last index runs `count` times. -/
def execSigRep (k : CoreRef) (rsvd : Bool) (stall : Nat) (s : State) : Host.Outcome State Fault Refusal :=
  act (fun s => s.sigRun k rsvd 1 stall (fun o x => .rep ((x.pc + 1).toNat) o.last.toNat o.count.toNat) (fun _ => sigNone)) s

/-- SIG_REPD (R193): the count is D(SA)[15:0]. -/
def execSigRepd (k : CoreRef) (rsvd : Bool) (stall : Nat) (s : State) : Host.Outcome State Fault Refusal :=
  act (fun s => s.sigRun k rsvd 1 stall (fun o x => .rep ((x.pc + 1).toNat) o.last.toNat (bits (x.dr o.sa.val).toNat 0 16)) (fun _ => sigNone)) s

/-- SIG_DI (R196): interrupts are held off for the next IMM instructions; it replaces a count already running. -/
def execSigDi (k : CoreRef) (rsvd : Bool) (stall : Nat) (s : State) : Host.Outcome State Fault Refusal :=
  act (fun s => s.sigRun k rsvd 1 stall (fun o _ => .di (bits o.imm.toNat 0 6)) (fun _ => sigNone)) s

/-! ### Posts, mover, mailboxes (R197, R198) -/

/-- SIG_PST (R198): the post waits for the core's earlier MOVEs; SEM [18:8], SIDE [19], COUNT [23:20]; [27:24] must be 0 (fault 1 otherwise: DESIGN CHOICE, log 24); a reserved number, another job's pair or an overflow is fault 9. -/
def execSigPst (k : CoreRef) (rsvd : Bool) (stall : Nat) (s : State) : Host.Outcome State Fault Refusal :=
  act (fun s => s.sigPlain k rsvd 1 stall (fun o s x =>
    let n := o.at 8 11
    let side := o.at 19 1 == 1
    let count := o.at 20 4
    let bad := match s.jobOf k.f.val with | some j => s.semBad j n | none => true
    if o.at 24 4 ≠ 0 then { sigNone s x with bad := [1] }
    else if bad then { sigNone s x with bad := [9] }
    else if !x.mover.isEmpty then sigNone s { x with mover := x.mover ++ [.post n side count x.pc.toNat] }
    else match s.post k.f.val n side count with
      | some t => sigNone t x
      | none => { sigNone s x with bad := [9] })) s

/-- The parameters of a MOVE in quad D(SA) (R198): local offset, device address, direction, length; none when they break its rules. -/
def State.moveParams (s : State) (k : CoreRef) (x : SigCore) (sa : Nat) : Option MovItem :=
  let w := fun (i : Nat) => (x.dr (sa / 4 * 4 + i)).toNat
  let loc := bits (w 0) 0 18
  let dev := w 1 + bits (w 2) 0 16 * 4294967296
  let len := bits (w 3) 0 13
  let inOne := (List.range 3).any (fun b => decide ((busMem b).1 ≤ loc ∧ loc + len ≤ (busMem b).2))
  let toLocal := (w 2).testBit 31
  let place := match s.region dev with | .granary _ => true | .leaf f _ => f == k.f.val | _ => false
  let own := match s.jobOf k.f.val with
    | some j => s.access (unitSrc k.f.val 2) j dev len (!toLocal) == .ok
    | none => false
  if bits (w 2) 16 15 = 0 ∧ bits (w 3) 13 19 = 0 ∧ 16 ≤ len ∧ len ≤ 4096 ∧ len % 16 = 0 ∧ loc % 16 = 0 ∧ dev % 16 = 0 ∧
      inOne = true ∧ place = true ∧ own = true then some (.move loc dev toLocal len) else none

/-- The MOVEs queued. -/
def SigCore.moves (x : SigCore) : Nat := x.mover.countP (fun m => match m with | .move .. => true | _ => false)

/-- SIG_MOVE (R198): a transfer enters the mover's queue of 4; a full queue stalls the core, bad parameters are fault 8. -/
def execSigMove (k : CoreRef) (rsvd : Bool) (stall : Nat) (s : State) : Host.Outcome State Fault Refusal :=
  act (fun s =>
    if (s.core k).moves ≥ 4 then s
    else s.sigPlain k rsvd 1 stall (fun o s x =>
      match s.moveParams k x o.sa.val with
      | some m => sigNone s { x with mover := x.mover ++ [m] }
      | none => { sigNone s x with bad := [8] })) s

/-- A core that stalls in WAIT (R197). -/
def State.coreWait (s : State) (k : CoreRef) : State := if s.coreRuns k then s.setCoreSt k 2 else s

/-- SIG_MBR (R197): the head of MBI; an empty MBI stalls the core in WAIT. -/
def execSigMbr (k : CoreRef) (rsvd : Bool) (stall : Nat) (s : State) : Host.Outcome State Fault Refusal :=
  act (fun s =>
    if (s.core k).mbi.isEmpty then s.coreWait k
    else s.sigPlain k rsvd 1 stall (fun o s x =>
      { sigW s { x with mbi := x.mbi.tail } [(o.dd.val, x.mbi.headD 0)] with
        st := s.p (Reg.SIG_Cc_STS_MBI_CNT k.f.val k.c.val) x.mbi.tail.length })) s

/-- SIG_MBW (R197): D(SA) enters MBO; a full MBO stalls the core in WAIT. -/
def execSigMbw (k : CoreRef) (rsvd : Bool) (stall : Nat) (s : State) : Host.Outcome State Fault Refusal :=
  act (fun s =>
    if (s.core k).mbo.length ≥ 8 then s.coreWait k
    else s.sigPlain k rsvd 1 stall (fun o s x =>
      { sigNone s { x with mbo := x.mbo ++ [x.dr o.sa.val] } with
        st := s.p (Reg.SIG_Cc_STS_MBO_CNT k.f.val k.c.val) (x.mbo.length + 1) })) s

/-- SIG_WFI (R196): the core sleeps until an enabled source is pending. -/
def execSigWfi (k : CoreRef) (rsvd : Bool) (stall : Nat) (s : State) : Host.Outcome State Fault Refusal :=
  act (fun s => s.sigRun k rsvd 1 stall (fun _ _ => .sleep) (fun _ => sigNone)) s

/-- SIG_HALT (R199): the core stops in HALT. -/
def execSigHalt (k : CoreRef) (rsvd : Bool) (stall : Nat) (s : State) : Host.Outcome State Fault Refusal :=
  act (fun s => s.sigRun k rsvd 1 stall (fun _ _ => .halt) (fun _ => sigNone)) s

end Sys2Proof.Machine
end

