-- ==== Sys2Proof/Machine/Symbols.lean ====
section
/-!
DEFINITION. What the REs of an allocation carry (07 R206, R226; 08 R261): the mapping of coded bits to CI8 symbols, layers and pilots, shared by the transmit path (R262) and the labels (09 R268).
-/
namespace Sys2Proof.Machine

open Sys2Proof (Byte Word PilotPattern)

/-- One component of a symbol before its scale (R261): coded bits of its axis in order. -/
def qamAxis : List Bool → Int
  | [] => 0
  | b :: l => (if b then -1 else 1) * ((2 ^ l.length : Nat) - qamAxis l)

/-- The bits at even places. -/
def evenBits : List Bool → List Bool
  | a :: _ :: l => a :: evenBits l
  | _ => []

/-- The bits at odd places. -/
def oddBits : List Bool → List Bool
  | _ :: b :: l => b :: oddBits l
  | _ => []

/-- The CI8 symbol of QM = 2m coded bits (R261): each component a × 2^(7 − m). -/
def qamSymbol (l : List Bool) : Int × Int :=
  let k : Nat := 2 ^ (7 - l.length / 2)
  (qamAxis (evenBits l) * k, qamAxis (oddBits l) * k)

/-- The value p of a pilot RE (R206), in 2^-30 units: free within the unit-modulus bound of its components. -/
def pilotVal (sect : List Byte) (ppat seqId idx sym layer sc : Nat) : Int × Int :=
  let part := fun (im : Bool) => clampI (-(2 ^ 30 : Nat)) (2 ^ 30 : Nat) (Config.pilot sect [ppat, seqId, idx, sym, layer, sc] im)
  (part false, part true)

/-- The value round(90 × p) of a pilot RE (R261). -/
def pilotAt (sect : List Byte) (ppat seqId idx sym layer sc : Nat) : Int × Int :=
  let p := pilotVal sect ppat seqId idx sym layer sc
  (rneInt (90 * p.1) 30, rneInt (90 * p.2) 30)

/-- The value p of a pilot RE in CI16, with 2^15 for 1 (DEDUCED from the shift of 15 in R198's example, log 26). -/
def pilotCi16 (sect : List Byte) (ppat seqId idx sym layer sc : Nat) : Word :=
  let p := pilotVal sect ppat seqId idx sym layer sc
  packCi (rneInt p.1 15) (rneInt p.2 15)

/-- Position of the first coded bit of a data RE and layer in the codeword (R226): data symbol, subcarrier, layer, bit. -/
def Alloc.codePos (a : Alloc) (sym sc l : Nat) : Nat :=
  ((a.dataSyms.findIdx (fun d => d == sym) * (12 * a.nprb) + (sc - 12 * a.prb0)) * a.layers + l) * a.qm

/-- Whether a pattern layer has its pilot on a subcarrier (R206). -/
def pilotRe (pats : List PilotPattern) (ppat layer sc : Nat) : Bool :=
  match patternOf pats ppat with
  | some p => (p.layers.getD layer []).any (fun i => i.toNat == sc)
  | none => false

/-- What layer `l` of an allocation carries on an RE of its symbols and PRBs (R261): pilots, nothing beside them in their symbols, and data. -/
def Alloc.reSymbol (a : Alloc) (sect : List Byte) (pats : List PilotPattern) (idx : Nat) (bits_ : Array Bool) (sym sc l : Nat) : Int × Int :=
  if a.pilotMap.testBit sym then
    if pilotRe pats a.ppat (a.layer0 + l) sc then pilotAt sect a.ppat a.seqId idx sym (a.layer0 + l) sc else (0, 0)
  else
    let o := a.codePos sym sc l
    qamSymbol ((List.range a.qm).map (fun i => bits_.getD (o + i) false))

/-- The coded bits of a transport block (R258) under a thresher tables section and an ENCODE field. -/
def codeBits (tab param : List Byte) (g qm layers : Nat) (tb : List Bool) : List Bool :=
  let q := codeParam param
  let coded := if q.code = 1 then (polarTable tab).map (fun t => polarEncode t q g tb)
    else match graphOf tab q.graph with
      | some x => x.encodeTb q g qm layers tb
      | none => none
  match coded with
  | some l => l
  | none => Config.openCode param g tb

/-- The bytes of a job's stream graph section, none when it has no such section. -/
def State.graphBytes (s : State) (job : Option Nat) : List Byte :=
  match job with
  | none => []
  | some j => match (s.jobSects (some j) 4).find? (fun x => x.target.toNat == j) with
    | some x => x.bytes
    | none => []

end Sys2Proof.Machine
end

