-- ==== Sys2Proof/Machine/RxGrid.lean ====
section
/-!
DEFINITION. The RE grid of an uplink slot (07 R213 to R217), its CI8 copy (R217), the times of a slot (R203, R214, R230) and the noise sums (R233).
-/
namespace Sys2Proof.Machine

open Sys2Proof (Byte Word)

/-! ### Carrier and times (R202, R203, R214, R230) -/

/-- The receive job's domain (R202). -/
def State.rxDom (s : State) : Dom := domOf (s.g Reg.JOB_RX_CFG_TDOM)

/-- What an uplink plan is checked against. -/
def State.rxPlanCfg (s : State) : PlanCfg :=
  let j := s.roleJob 1
  let f := match j with | some k => (s.jobFronds k).head? | none => none
  { tx := false, nport := s.g Reg.JOB_RX_CFG_NPORT, nprb := s.g Reg.JOB_RX_CFG_NPRB, spf := spf (s.g Reg.JOB_RX_CFG_SCS),
    tab := match f with | some x => s.thrTables x | none => [],
    pats := s.pilotPatterns }

/-- Number of the slot that starts at an edge, counted from the epoch. -/
def State.slotNo (s : State) (start : Nat) : Nat := start / slotNs (s.g Reg.JOB_RX_CFG_SCS)

/-- Now in the receive job's domain, in nanoseconds. -/
def State.rxNow (s : State) : Nat := (s.dom s.rxDom).nanos

/-- D(n) of a slot: the start edge of slot n + K + 1 (R203). -/
def State.deadline (s : State) (x : RxSlot) : Nat := x.start + (s.g Reg.JOB_RX_CFG_K + 1) * slotNs (s.g Reg.JOB_RX_CFG_SCS)

/-- Whether D(n) has passed (R203). -/
def State.pastD (s : State) (x : RxSlot) : Bool := decide (s.deadline x ≤ s.rxNow)

/-- Whether the guard time G(n) = D(n) − LEAD has passed (R230). -/
def State.pastG (s : State) (x : RxSlot) : Bool := decide (s.deadline x ≤ s.rxNow + 1000 * s.g Reg.JOB_RX_GUARD_T)

/-- Whether the window of a symbol has ended (R214): its edge, floor((sym + 1) / 14 of the slot) after the slot's (R399), plus WIN. -/
def State.pastWin (s : State) (x : RxSlot) (sym : Nat) : Bool :=
  decide (x.start + (sym + 1) * slotNs (s.g Reg.JOB_RX_CFG_SCS) / 14 + 1000 * s.g Reg.JOB_RX_ALIGN_WIN ≤ s.rxNow)

/-- Number of a symbol of a slot, counted from the epoch. -/
def State.symNo (s : State) (x : RxSlot) (sym : Nat) : Nat := 14 * s.slotNo x.start + sym

/-! ### Samples (R213, R217, R218) -/

/-- Key of a grid entry: symbol, port, subcarrier. -/
def gridKey (sym port sc : Nat) : Nat := (sym * 512 + port) * 8192 + sc
/-- Symbol of a key. -/
def keySym (k : Nat) : Nat := k / 8192 / 512
/-- Port of a key. -/
def keyPort (k : Nat) : Nat := k / 8192 % 512
/-- Subcarrier of a key. -/
def keySc (k : Nat) : Nat := k % 8192

/-- Whether a port is ABSENT (R215). -/
def State.absent (s : State) (port : Nat) : Bool := (s.g (Reg.JOB_RX_PORT_ABSENTn (port / 32))).testBit (port % 32)

/-- A port's ABSENT bit, and the event that reports it (R215). -/
def State.setAbsent (s : State) (port : Nat) (b : Bool) (idx : Nat) : State :=
  let F := Reg.JOB_RX_PORT_ABSENTn (port / 32)
  let s := s.p F (setBits (s.g F) (port % 32) 1 (b2n b))
  s.raise 0x0304 0x06 (jobByte (s.roleJob 1)) (port + b2n b <<< 9 + idx <<< 32)

/-- Radio head of a port (R218). -/
def State.rxHead (s : State) (port : Nat) : Nat := bits (s.reg (Reg.JOB_RX_RHMAPn_RH0 (port / 4)).addr).toNat (8 * (port % 4)) 8

/-- The entries of one symbol of a grid. -/
def symEntries (grid : List (Nat × Word)) (sym : Nat) : List (Nat × Word) := grid.filter (fun (e : Nat × Word) => keySym e.1 == sym)

/-- The entries of one symbol that lie in an allocation's PRBs. -/
def Alloc.entries (a : Alloc) (l : List (Nat × Word)) : List (Nat × Word) :=
  l.filter (fun (e : Nat × Word) => decide (12 * a.prb0 ≤ keySc e.1 ∧ keySc e.1 < 12 * (a.prb0 + a.nprb)))

/-- Magnitude of a component after the shift of R217. -/
def normMag (v : Int) (sh : Nat) : Nat := rneShift v.natAbs sh

/-- The shift of R217 over the REs of a pilot symbol: the smallest at which every component rounds to 127 or less. -/
def normShift (l : List (Nat × Word)) : Nat :=
  ((List.range 16).find? (fun sh => l.all (fun (e : Nat × Word) => decide (normMag (ci16 e.2).1 sh ≤ 127 ∧ normMag (ci16 e.2).2 sh ≤ 127)))).getD 15

/-- The pilot symbol whose interval a symbol of an allocation lies in (R217). -/
def Alloc.pilotFor (a : Alloc) (sym : Nat) : Nat :=
  let ps := a.syms.filter (fun t => a.pilotMap.testBit t)
  ((ps.filter (fun t => decide (t ≤ sym))).getLast?).getD (ps.headD a.sym0)

/-- The shift of a group at a symbol (R217): of the REs of its interval's pilot symbol. -/
def RxSlot.shiftFor (x : RxSlot) (a : Alloc) (sym : Nat) : Nat := normShift (a.entries (symEntries x.grid (a.pilotFor sym)))

/-- A sample in CI8 after a shift (R217), real part low. -/
def ci8Of (sh : Nat) (w : Word) : BitVec 16 :=
  BitVec.ofNat 16 (toBits 8 (satS 8 (rneInt (ci16 w).1 sh)) + toBits 8 (satS 8 (rneInt (ci16 w).2 sh)) * 256)

/-- Components of a sample that saturate in normalisation (R217). -/
def ci8Sat (sh : Nat) (w : Word) : Nat :=
  let f := fun (v : Int) => b2n (decide (satS 8 (rneInt v sh) ≠ rneInt v sh))
  f (ci16 w).1 + f (ci16 w).2

/-- The symbols of a group that are copied once a symbol of the slot is released (R217): that symbol when its interval's pilot symbol is released, and after a pilot symbol those of its interval that waited for it. -/
def RxSlot.copyDue (x : RxSlot) (a : Alloc) (sym : Nat) : List Nat :=
  if !a.syms.contains sym then []
  else a.syms.filter (fun d => a.pilotFor d == a.pilotFor sym && x.released.getLsbD d && x.released.getLsbD (a.pilotFor d) &&
    (d == sym || a.pilotFor sym == sym))

/-- The REs that the vector engine copies once a symbol of a slot is released, with the shifts they take. -/
def RxSlot.copyNew (x : RxSlot) (sym : Nat) : List (Nat × Word × Nat) :=
  (groupsOf x.allocs).flatMap (fun g =>
    match g with
    | [] => []
    | a :: _ => (x.copyDue a sym).flatMap (fun d => (a.entries (symEntries x.grid d)).map (fun e => (e.1, e.2, x.shiftFor a d))))

/-- What normalisation saturates once a symbol of a slot is released (R217). -/
def RxSlot.normNew (x : RxSlot) (sym : Nat) : Nat := (x.copyNew sym).foldl (fun (n : Nat) e => n + ci8Sat e.2.2 e.2.1) 0

/-- The slot with the copies of a released symbol made. -/
def RxSlot.copied (x : RxSlot) (sym : Nat) : RxSlot := { x with copies := x.copies ++ (x.copyNew sym).map (fun e => (e.1, ci8Of e.2.2 e.2.1)) }

/-- A RE of the CI8 copy, an erased one as 0 (R216). -/
def RxSlot.ci8 (x : RxSlot) (sym port sc : Nat) : Int × Int :=
  match x.copies.find? (fun e => e.1 == gridKey sym port sc) with
  | some e => (sx 8 (e.2.toNat % 256), sx 8 (e.2.toNat / 256))
  | none => (0, 0)

/-! ### Noise sums (R233) -/

/-- Whether the REs of a symbol and subcarrier are idle (R233). -/
def State.idleRe (s : State) (x : RxSlot) (sym sc : Nat) : Bool :=
  let inside := x.allocs.filter (fun a => a.covers sym (sc / 12))
  (x.idleMask.testBit sym && inside.isEmpty) ||
    inside.any (fun a => a.pilotMap.testBit sym &&
      (match patternOf s.pilotPatterns a.ppat with | some p => p.empty.any (fun i => decide (i.toNat = sc)) | none => false))

/-- Key of a pair of sum and count: port and group of 4 PRBs, in table order (R235). -/
def State.noiseKey (s : State) (port sc : Nat) : Nat := port * ceilDiv (s.g Reg.JOB_RX_CFG_NPRB) 4 + sc / 48

/-- The noise sums with one sample of a released symbol added when its RE is idle for its port (R233). -/
def State.noiseStep (s : State) (x : RxSlot) (sym : Nat) (m : List (Nat × (Nat × Nat))) (e : Nat × Word) : List (Nat × (Nat × Nat)) :=
  if !s.absent (keyPort e.1) && s.idleRe x sym (keySc e.1) then
    let k := s.noiseKey (keyPort e.1) (keySc e.1)
    let v := sget (0, 0) m k
    sset (0, 0) m k (v.1 + mag2 e.2, v.2 + 1)
  else m

/-- The noise sums with a released symbol added (R233). -/
def State.addNoise (s : State) (x : RxSlot) (sym : Nat) (l : List (Nat × Word)) : State :=
  { s with rx := { s.rx with noise := l.foldl (s.noiseStep x sym) s.rx.noise } }

end Sys2Proof.Machine
end

