-- ==== Sys2Proof/Machine/Track.lean ====
section
/-!
DEFINITION. Least-squares estimates (07 R223), the tracking loops (R218 to R220) and the table of users (R221).
-/
namespace Sys2Proof.Machine

open Sys2Proof (Byte Word PilotPattern)

/-! ### Loops (R218, R221) -/

/-- A user loop at its start (R221). -/
def userLoop (id seen : Nat) : Loop := ⟨id, 0, 0, 0, 0, 0, none, 0, 0, false, seen⟩

/-- A loop that has been unseen for RESET_SLOTS slots restarts from 0 (R221). -/
def Loop.stale (l : Loop) (now reset : Nat) : Loop := if l.seen + reset ≤ now then { userLoop l.id l.seen with seen := l.seen } else l

/-- Replaces the first entry for which a test holds. -/
def replaceFirst (p : Loop → Bool) (x : Loop) : List Loop → List Loop
  | [] => []
  | l :: ls => if p l then x :: ls else l :: replaceFirst p x ls

/-- A UEID appears in an accepted plan (R221): its loop is kept, or a new one enters the table of 1,024, in place of the one unseen for longest when it is full. -/
def seeUser (reset now : Nat) (l : List Loop) (ueid : Nat) : List Loop :=
  if l.any (fun x => x.id == ueid) then l.map (fun x => if x.id = ueid then { x.stale now reset with seen := now } else x)
  else if l.length < 1024 then l ++ [userLoop ueid now]
  else
    let oldest := l.foldl (fun (m : Nat) x => min m x.seen) now
    replaceFirst (fun x => x.seen == oldest) (userLoop ueid now) l

/-- PH of a loop at a symbol (R218): it advances by FO every symbol. -/
def Loop.phAt (l : Loop) (n : Nat) : Word := l.ph + l.fo * BitVec.ofInt 32 ((n : Int) - l.at_)

/-- The phase −(PH + k × RAMP) by which a loop turns (R218). -/
def turnBack (ph ramp : Word) (k : Nat) : Nat := (2 ^ 64 - (ph.toNat + k * ramp.toNat)) % 2 ^ 32

/-- A sample of a symbol after its radio head's correction (R218). -/
def State.headTurn (s : State) (n key : Nat) (w : Word) : Word :=
  match s.rx.heads.find? (fun l => l.id == s.rxHead (keyPort key)) with
  | none => w
  | some l => rotate w (turnBack (l.phAt n) l.ramp (keySc key))

/-- Key of a user's phase and ramp at a symbol. -/
def turnKey (sym ueid : Nat) : Nat := sym * 65536 + ueid

/-- The phases and ramps of a slot's users at a symbol, as its estimates will be turned by them (R218). -/
def State.turnsAt (s : State) (x : RxSlot) (sym : Nat) : List (Nat × (Word × Word)) :=
  ((x.allocs.filter (fun a => a.syms.contains sym)).map (fun a => a.ueid)).eraseDups.filterMap (fun u =>
    (s.rx.users.find? (fun l => l.id == u)).map (fun l => (turnKey sym u, (l.phAt (s.symNo x sym), l.ramp))))

/-! ### Least-squares estimates (R223) -/

/-- Key of an estimate: symbol, port, subcarrier, pattern layer. -/
def lsKey (sym port layer sc : Nat) : Nat := gridKey sym port sc * 64 + layer

/-- h = y × conj(p) in CI16 (R223). -/
def leastSquares (y p : Word) : Word := let h := cmulI true (ci16 y) (ci16 p); packCi (rneInt h.1 15) (rneInt h.2 15)

/-- The subcarriers of an allocation that carry the pilot of a pattern layer, ascending (R206). -/
def Alloc.pilotScs (a : Alloc) (pats : List PilotPattern) (layer : Nat) : List Nat :=
  match patternOf pats a.ppat with
  | some p => sortBy id (((p.layers.getD layer []).map (fun i => i.toNat)).filter (fun k => decide (12 * a.prb0 ≤ k ∧ k < 12 * (a.prb0 + a.nprb))))
  | none => []

/-- The pattern layers of an allocation (R206). -/
def Alloc.patLayers (a : Alloc) : List Nat := (List.range a.layers).map (· + a.layer0)

/-- The pilot REs of an allocation in a pilot symbol: port, pattern layer, subcarrier. -/
def Alloc.pilotRes (a : Alloc) (pats : List PilotPattern) (ports : List Nat) : List (Nat × Nat × Nat) :=
  ports.flatMap (fun p => a.patLayers.flatMap (fun l => (a.pilotScs pats l).map (fun k => (p, l, k))))

/-- The estimates that the signal cores form when a pilot symbol is released (R223): of each pilot RE of each pattern layer that is not erased. -/
def State.lsNew (s : State) (x : RxSlot) (sym : Nat) : List (Nat × Word) :=
  let sect := s.graphBytes (s.roleJob 1)
  let l := symEntries x.grid sym
  (x.allocs.filter (fun a => a.pilotMap.testBit sym)).flatMap (fun a =>
    (a.pilotRes s.pilotPatterns (List.range (s.g Reg.JOB_RX_CFG_NPORT))).filterMap (fun r =>
      (l.find? (fun e => e.1 == gridKey sym r.1 r.2.2)).map (fun e =>
        (lsKey sym r.1 r.2.1 r.2.2, leastSquares e.2 (pilotCi16 sect a.ppat a.seqId x.idx sym r.2.1 r.2.2)))))

/-! ### Updates (R219, R220) -/

/-- ang of R219: the phase in 2^32 units a turn, signed; of 0 it is open (log 5). -/
def ang (z : Int × Int) : Int := if z = (0, 0) then Config.angZero.toInt else sx 32 (phaseOf 30 z)

/-- A complex sum. -/
def sumC (l : List (Int × Int)) : Int × Int := l.foldl (fun a z => (a.1 + z.1, a.2 + z.2)) (0, 0)

/-- The spacing d of a layer's pilots (R219): between its first two; of several layers the first that has two (DEDUCED, log 26). -/
def Alloc.spacing (a : Alloc) (pats : List PilotPattern) : Option Nat :=
  a.patLayers.findSome? (fun l => match a.pilotScs pats l with | k :: m :: _ => some (m - k) | _ => none)

/-- e_t of R219, over the pilot REs present: none when no layer has two pilots. -/
def timingErr (d : Option Nat) (obs : List ((Nat × Nat × Nat) × (Int × Int))) : Option Int :=
  d.map (fun d => ang (sumC (obs.filterMap (fun e =>
    (obs.find? (fun f => f.1 == (e.1.1, e.1.2.1, e.1.2.2 + d))).map (fun f => cmulI true f.2 e.2)))) / (d : Nat))

/-- e_f of R219, over the pilot REs present in both symbols: none without an earlier pilot symbol that has the same pilot REs. -/
def freqErr (prev : Option PilotSeen) (now : PilotSeen) : Option Int :=
  match prev with
  | none => none
  | some p =>
    if p.res = now.res ∧ p.sym < now.sym then
      some (ang (sumC (now.obs.filterMap (fun e => (p.obs.find? (fun f => f.1 == e.1)).map (fun f => cmulI true e.2 f.2)))) / (now.sym - p.sym : Nat))
    else none

/-- A sum of two 32-bit values, saturating (R219). -/
def satAdd (a : Word) (b : Int) : Word := BitVec.ofInt 32 (satS 32 (a.toInt + b))

/-- One update of a loop at a pilot symbol (R219): timing, then frequency; from that symbol on the phase advances by the new frequency (R218). -/
def Loop.update (l : Loop) (kp ki kt : Nat) (now : PilotSeen) (et ef : Option Int) : Loop :=
  let l := if l.at_ ≤ now.sym then { l with ph := l.phAt now.sym, at_ := now.sym } else l
  let l := match et with | some e => { l with ramp := satAdd l.ramp (e / (2 ^ kt : Nat)) } | none => l
  let l := match ef with
    | some e => let i := satAdd l.foI (e / (2 ^ ki : Nat)); { l with foI := i, fo := satAdd i (e / (2 ^ kp : Nat)) }
    | none => l
  { l with prev := some now }

/-- Lock state after an update (R220): runs of updates below the threshold and above four times it; whether lock is lost. An update without an error of one kind counts toward neither by that kind (DEDUCED, log 26). -/
def Loop.judge (l : Loop) (thr : Nat) (et ef : Option Int) : Loop × Bool :=
  let t := thr * 2 ^ 20
  let below := fun (e : Option Int) => match e with | some v => decide (v.natAbs < t) | none => false
  let above := fun (e : Option Int) => match e with | some v => decide (4 * t < v.natAbs) | none => false
  let g := if below et && below ef then l.good + 1 else 0
  let b := if above et || above ef then l.bad + 1 else 0
  if !l.locked && decide (4 ≤ g) then ({ l with good := g, bad := b, locked := true }, false)
  else if l.locked && decide (4 ≤ b) then ({ l with good := g, bad := b, locked := false }, true)
  else ({ l with good := g, bad := b }, false)

/-- One entity of R219 at a pilot symbol: whether it is a user, its number, its allocations in that symbol and its ports. -/
structure TrackOf where
  user   : Bool
  id     : Nat
  allocs : List Alloc
  ports  : List Nat

/-- The entities whose loops a pilot symbol updates (R219): each radio head over its ports, each user over all ports. -/
def State.trackOf (s : State) (x : RxSlot) (sym : Nat) : List TrackOf :=
  let l := x.allocs.filter (fun a => a.pilotMap.testBit sym)
  let ports := List.range (s.g Reg.JOB_RX_CFG_NPORT)
  if l.isEmpty then []
  else
    (sortBy id (ports.map s.rxHead).eraseDups).map (fun h => ⟨false, h, l, ports.filter (fun p => s.rxHead p == h)⟩) ++
      ((l.map (fun a => a.ueid)).eraseDups).map (fun u => ⟨true, u, l.filter (fun a => a.ueid == u), ports⟩)

/-- An entity's pilot symbol: its pilot REs, and the estimates present, a user's after the user correction (R218, R219). -/
def RxSlot.seen (x : RxSlot) (pats : List PilotPattern) (sym n : Nat) (t : TrackOf) : PilotSeen :=
  let res := t.allocs.flatMap (fun a => a.pilotRes pats t.ports)
  let turn := fun (w : Word) (k : Nat) =>
    if t.user then (match x.turns.find? (fun e => e.1 == turnKey sym t.id) with
      | some e => rotate w (turnBack e.2.1 e.2.2 k)
      | none => w)
    else w
  ⟨n, res, res.filterMap (fun r => (x.est.find? (fun e => e.1 == lsKey sym r.1 r.2.1 r.2.2)).map (fun e => (r, ci16 (turn e.2 r.2.2))))⟩

/-- One entity's loop is updated and judged (R219, R220); a radio head's loop exists from the start (R218), a user's from its plan (R221). -/
def State.trackStep (s : State) (x : RxSlot) (sym : Nat) (t : TrackOf) : State :=
  let now := x.seen s.pilotPatterns sym (s.symNo x sym) t
  let heads := if t.user || s.rx.heads.any (fun l => l.id == t.id) then s.rx.heads else s.rx.heads ++ [userLoop t.id 0]
  let s := { s with rx := { s.rx with heads := heads } }
  let l := if t.user then s.rx.users else s.rx.heads
  match l.find? (fun y => y.id == t.id) with
  | none => s
  | some y =>
    let et := timingErr (t.allocs.findSome? (fun a => a.spacing s.pilotPatterns)) now.obs
    let ef := freqErr y.prev now
    let (z, lost) := (y.update (s.g Reg.JOB_RX_TRACK_KP) (s.g Reg.JOB_RX_TRACK_KI) (s.g Reg.JOB_RX_TRACK_KT) now et ef).judge (s.g Reg.JOB_RX_TRACK_LOCK_THR) et ef
    let l := l.map (fun w => if w.id = t.id then z else w)
    let s := if t.user then { s with rx := { s.rx with users := l } } else { s with rx := { s.rx with heads := l } }
    if lost then
      (s.inc Reg.JOB_RX_UNLOCK_CNT).raise 0x0305 0x06 (jobByte (s.roleJob 1)) (if t.user then 1 + t.id <<< 16 else t.id <<< 8)
    else s

/-- The loops that a released symbol updates. -/
def State.trackSym (s : State) (x : RxSlot) (sym : Nat) : State := (s.trackOf x sym).foldl (fun t e => t.trackStep x sym e) s

end Sys2Proof.Machine
end

