-- ==== Sys2Proof/Machine/RefPath.lean ====
section
/-!
DEFINITION. The reference path (07 R216, R222 to R226): interpolated estimates, Gram matrix and matched filter, noise variance, weights, LLRs and their buffer; the interface tensors of the learned path (R227) and the residual of its estimates (R228).
The spec gives these results without scale or rounding of the weights, so what it leaves open of an equalised symbol and of its SINR is free (log 6).
-/
namespace Sys2Proof.Machine

open Sys2Proof (Byte Word PilotPattern)

/-- A group of a slot as both paths read it: the slot, its members, ports, PRBs of a granule, the patterns and bytes of the stream graph section, and the latest noise codes. -/
structure RxGroup where
  x     : RxSlot
  ms    : List Alloc
  nport : Nat
  gran  : Nat
  erase : Nat
  pats  : List PilotPattern
  sect  : List Byte
  code  : Nat → Nat → Nat

/-- The layers of a group in pattern order, each with its member and its number there (R226, R274). -/
def groupLayers (ms : List Alloc) : List (Alloc × Nat) :=
  (List.range 64).flatMap (fun k => ms.filterMap (fun m => if m.layer0 ≤ k ∧ k < m.layer0 + m.layers then some (m, k - m.layer0) else none))

/-- The group that an allocation of a slot belongs to (R207). -/
def State.groupFor (s : State) (x : RxSlot) (a : Alloc) : RxGroup :=
  { x := x, ms := ((groupsOf x.allocs).find? (fun g => g.any (fun m => m.index == a.index))).getD [a], nport := s.g Reg.JOB_RX_CFG_NPORT,
    gran := 2 ^ s.g Reg.JOB_RX_CFG_GRAN, erase := s.g Reg.JOB_RX_ALIGN_RE_ERASE, pats := s.pilotPatterns, sect := s.graphBytes (s.roleJob 1),
    code := fun port sc => sget 1023 s.rx.codes (s.noiseKey port sc) }

/-- First member, whose ranges all members share (R207). -/
def RxGroup.first (r : RxGroup) : Alloc := r.ms.headD (entryAlloc [])

/-- The layers of a group. -/
def RxGroup.layers (r : RxGroup) : List (Alloc × Nat) := groupLayers r.ms

/-- The shift of R217 at a symbol. -/
def RxGroup.shift (r : RxGroup) (sym : Nat) : Nat := r.x.shiftFor r.first sym

/-- Pilot symbols of a group. -/
def RxGroup.pilots (r : RxGroup) : List Nat := r.first.syms.filter (fun t => r.first.pilotMap.testBit t)

/-- Granules of a group: NG (R224, R227). -/
def RxGroup.granules (r : RxGroup) : Nat := ceilDiv r.first.nprb r.gran

/-- The granule of a subcarrier. -/
def RxGroup.granuleOf (r : RxGroup) (sc : Nat) : Nat := (sc - 12 * r.first.prb0) / (12 * r.gran)

/-- A granule's centre subcarrier (R224): the first of the upper half (DEDUCED, log 26). -/
def RxGroup.centre (r : RxGroup) (g : Nat) : Nat := 12 * r.first.prb0 + 12 * r.gran * g + 6 * r.gran

/-! ### Estimates (R222 to R224) -/

/-- The least-squares estimates of a port and layer in a pilot symbol that are not erased, by subcarrier (R223). -/
def RxGroup.lsOf (r : RxGroup) (t port : Nat) (l : Alloc × Nat) : List (Nat × Word) :=
  let layer := l.1.layer0 + l.2
  (l.1.pilotScs r.pats layer).filterMap (fun k => (r.x.est.find? (fun e => e.1 == lsKey t port layer k)).map (fun e => (k, e.2)))

/-- A complex number over a denominator and 2^sh, rounded and saturated to CI8 (R103). -/
def toCi8 (z : Int × Int) (den sh : Nat) : Int × Int := (satS 8 (rneDivI z.1 (den * 2 ^ sh)), satS 8 (rneDivI z.2 (den * 2 ^ sh)))

/-- Linear interpolation at a subcarrier between the nearest pilots on either side, the nearest one beyond an edge, 0 without a pilot (R224). -/
def interpolate (ps : List (Nat × Word)) (c sh : Nat) : Int × Int :=
  match (ps.filter (fun e => decide (e.1 ≤ c))).getLast?, ps.find? (fun e => decide (c ≤ e.1)) with
  | some a, some b =>
    if a.1 = b.1 then toCi8 (ci16 a.2) 1 sh
    else
      let w := fun (f : Int × Int → Int) => f (ci16 a.2) * ((b.1 - c : Nat) : Int) + f (ci16 b.2) * ((c - a.1 : Nat) : Int)
      toCi8 (w Prod.fst, w Prod.snd) (b.1 - a.1) sh
  | some a, none => toCi8 (ci16 a.2) 1 sh
  | none, some b => toCi8 (ci16 b.2) 1 sh
  | none, none => (0, 0)

/-- An estimate in CI8 of a pilot symbol: port, layer, granule. -/
abbrev Est := Nat → Alloc × Nat → Nat → Int × Int

/-- The interpolated estimates of a pilot symbol's interval (R224): X_REF of R227. -/
def RxGroup.hRef (r : RxGroup) (t : Nat) : Est := fun port l g => interpolate (r.lsOf t port l) (r.centre g) (r.shift t)

/-- The estimates of a member's layer turned by the user correction for a symbol and subcarrier (R218, R222). -/
def RxGroup.turned (r : RxGroup) (l : Alloc × Nat) (sym sc : Nat) (h : Int × Int) : Int × Int :=
  match r.x.turns.find? (fun e => e.1 == turnKey sym l.1.ueid) with
  | some e => let w := ci16 (rotate (packCi h.1 h.2) (turnBack e.2.1 e.2.2 sc)); (satS 8 w.1, satS 8 w.2)
  | none => h

/-- Bytes of a CI8 value. -/
def ci8Bytes (z : Int × Int) : List Byte := [BitVec.ofInt 8 z.1, BitVec.ofInt 8 z.2]

/-- X_LS of a pilot symbol (R227): [NPORT, Lg, NPL], the least-squares estimates shifted by s, an erased one as 0. -/
def RxGroup.xLs (r : RxGroup) (t : Nat) : List Byte :=
  (List.range r.nport).flatMap (fun p => r.layers.flatMap (fun l =>
    let ps := r.lsOf t p l
    (l.1.pilotScs r.pats (l.1.layer0 + l.2)).flatMap (fun k => ci8Bytes (match ps.find? (fun e => e.1 == k) with
      | some e => toCi8 (ci16 e.2) 1 (r.shift t)
      | none => (0, 0)))))

/-- X_REF of a pilot symbol (R227): [NPORT, Lg, NG]. -/
def RxGroup.xRef (r : RxGroup) (t : Nat) : List Byte :=
  (List.range r.nport).flatMap (fun p => r.layers.flatMap (fun l => (List.range r.granules).flatMap (fun g => ci8Bytes (r.hRef t p l g))))

/-- One value of X_NF (R227): a port's noise code under a shift. -/
def xNf (code sh : Nat) : Byte := if code = 1023 then BitVec.ofInt 8 (-128) else BitVec.ofInt 8 (127 - ((code - 24 * sh) / 4 : Nat))

/-- X_NF (R227, R235): [NPORT, 4-PRB groups touched], with the shift of a pilot symbol. -/
def RxGroup.noiseTensor (r : RxGroup) (t : Nat) : List Byte :=
  let a := r.first
  let gs := (List.range (ceilDiv (a.prb0 + a.nprb) 4)).filter (fun g => decide (a.prb0 < 4 * g + 4))
  (List.range r.nport).flatMap (fun p => gs.map (fun g => xNf (r.code p (48 * g)) (r.shift t)))

/-- X_ERS of a port and PRB (R227): round(127 × its erased fraction). -/
def RxSlot.erased8 (x : RxSlot) (a : Alloc) (p prb : Nat) : Byte :=
  let all := 12 * a.nsym
  let got := (a.syms.map (fun sym => (symEntries x.grid sym).countP (fun e => keyPort e.1 == p && keySc e.1 / 12 == prb))).foldl (· + ·) 0
  BitVec.ofNat 8 (rneDiv (127 * (all - got)) all)

/-- X_ERS (R227): [NPORT, NPRB]. -/
def RxGroup.eraseTensor (r : RxGroup) : List Byte :=
  (List.range r.nport).flatMap (fun p => (List.range r.first.nprb).map (fun k => r.x.erased8 r.first p (r.first.prb0 + k)))

/-- Y_D of a data symbol (R227): [NR, NPORT], the CI8 copy. -/
def RxGroup.yD (r : RxGroup) (sym : Nat) : List Byte :=
  (List.range (12 * r.first.nprb)).flatMap (fun k => (List.range r.nport).flatMap (fun p => ci8Bytes (r.x.ci8 sym p (12 * r.first.prb0 + k))))

/-! ### Residuals (R225, R226, R228) -/

/-- |z|². -/
def normSq (z : Int × Int) : Nat := (z.1 * z.1 + z.2 * z.2).toNat

/-- Residual and signal power of one pilot RE, in 2^-30 units of CI8: |y − h × p|² and |y|². -/
def RxGroup.pilotPower (r : RxGroup) (h : Est) (t port : Nat) (l : Alloc × Nat) (sc : Nat) : Nat × Nat :=
  let y := r.x.ci8 t port sc
  let p := ci16 (pilotCi16 r.sect l.1.ppat l.1.seqId r.x.idx t (l.1.layer0 + l.2) sc)
  let hp := cmulI false (h port l (r.granuleOf sc)) p
  (normSq (y.1 * 2 ^ 15 - hp.1, y.2 * 2 ^ 15 - hp.2), normSq y * 2 ^ 30)

/-- Sums of both powers over the pilot REs of layers in a pilot symbol, over all ports, erased ones left out; and their count. -/
def RxGroup.pilotSums (r : RxGroup) (h : Est) (t : Nat) (ls : List (Alloc × Nat)) (keep : Nat → Bool) : Nat × Nat × Nat :=
  let l := (List.range r.nport).flatMap (fun p => ls.flatMap (fun e =>
    ((r.lsOf t p e).filter (fun k => keep k.1)).map (fun k => r.pilotPower h t p e k.1)))
  (l.foldl (fun (n : Nat) e => n + e.1) 0, l.foldl (fun (n : Nat) e => n + e.2) 0, l.length)

/-- 10 log10 of residual over pilot power as RES_L and RES_R hold it: rounded to 0.25 dB (R226, R229); with a zero power it is open (log 5). -/
def resCode (res pow : Nat) : Nat :=
  if res = 0 ∨ pow = 0 then (Config.resOpen res pow).toNat
  else
    let x := res ^ 80
    let y := pow ^ 80
    -- the value is the number of half steps from the least one on that the ratio reaches
    let n : Nat := (List.range 4000).countP (fun i => if i < 2000 then decide (y ≤ x * 10 ^ (2 * (1999 - i) + 1)) else decide (y * 10 ^ (2 * (i - 2000) + 1) ≤ x))
    toBits 16 ((n : Int) - 2000)

/-- The residual code of an allocation under estimates of each pilot symbol (R226, R228). -/
def RxGroup.residual (r : RxGroup) (a : Alloc) (h : Nat → Est) : Nat :=
  let ls := r.layers.filter (fun e => e.1.index == a.index)
  let sums := r.pilots.map (fun t => r.pilotSums (h t) t ls (fun _ => true))
  resCode (sums.foldl (fun (n : Nat) e => n + e.1) 0) (sums.foldl (fun (n : Nat) e => n + e.2.1) 0)

/-! ### Noise variance and weights (R225) -/

/-- 2^30 × 10^(−code / 40) of a noise code (R234), in 2^-16 units, cut: the largest n with n^40 × 10^code ≤ 2^1840. -/
def noisePower (code : Nat) : Nat :=
  (List.range 47).foldl (fun (n : Nat) b => let c := n + 2 ^ (46 - b); if c ^ 40 * 10 ^ code ≤ 2 ^ 1840 then c else n) 0

/-- σ² of a granule as a fraction, in CI8 units (R225): the mean power of its pilot residuals, not below the mean noise floor over the ports in its 4-PRB group; ports with no code yet have no floor (DEDUCED, log 26). -/
def RxGroup.sigma2 (r : RxGroup) (t g : Nat) : Nat × Nat :=
  let (res, _, n) := r.pilotSums (r.hRef t) t r.layers (fun k => r.granuleOf k == g)
  let mean : Nat × Nat := (res, max 1 n * 2 ^ 30)
  let codes := ((List.range r.nport).map (fun p => r.code p (12 * (r.first.prb0 + r.gran * g)))).filter (fun c => c != 1023)
  let floor : Nat × Nat := ((codes.map noisePower).foldl (· + ·) 0, max 1 codes.length * 2 ^ 16 * 2 ^ (2 * r.shift t))
  if mean.1 * floor.2 < floor.1 * mean.2 then floor else mean

/-- A matrix of complex integers, by rows. -/
abbrev CMat := List (List (Int × Int))

/-- An entry of a row. -/
def cAt (row : List (Int × Int)) (k : Nat) : Int × Int := row.getD k (0, 0)

/-- G = Hᴴ H of a granule (R224): exact sums over the ports. -/
def RxGroup.gram (r : RxGroup) (t g : Nat) : CMat :=
  r.layers.map (fun a => r.layers.map (fun b => sumC ((List.range r.nport).map (fun p => cmulI true (r.hRef t p b g) (r.hRef t p a g)))))

/-- One step of fraction-free elimination; pivots of a Hermitian matrix are real. -/
def elimStep (m : CMat × Int) (k : Nat) : CMat × Int :=
  let row := m.1.getD k []
  let p := (cAt row k).1
  let prev := m.2
  (m.1.zipIdx.map (fun e =>
    if e.2 = k then e.1
    else
      let c := cAt e.1 k
      e.1.zipIdx.map (fun v =>
        let w := cmulI false c (cAt row v.2)
        ((p * v.1.1 - w.1) / prev, (p * v.1.2 - w.2) / prev))), p)

/-- W = (G + σ²I)⁻¹ of a granule (R225): numerators, their denominator, and the scale by which both count (W = scale × numerator / denominator). -/
def RxGroup.weights (r : RxGroup) (t g : Nat) : CMat × Int × Nat :=
  let (n, d) := r.sigma2 t g
  let k := r.layers.length
  let m : CMat := (r.gram t g).zipIdx.map (fun e =>
    e.1.zipIdx.map (fun v => ((d : Int) * v.1.1 + (if v.2 = e.2 then (n : Int) else 0), (d : Int) * v.1.2)) ++
      (List.range k).map (fun j => if j = e.2 then ((1 : Int), (0 : Int)) else (0, 0)))
  let (a, det) := (List.range k).foldl elimStep (m, 1)
  (a.map (fun row => row.drop k), det, d)

/-- z = Hᴴ y of a data RE (R224), with each layer's estimates turned to it (R222). -/
def RxGroup.matched (r : RxGroup) (sym sc : Nat) : List (Int × Int) :=
  let t := r.first.pilotFor sym
  let g := r.granuleOf sc
  r.layers.map (fun l => sumC ((List.range r.nport).map (fun p => cmulI true (r.x.ci8 sym p sc) (r.turned l sym sc (r.hRef t p l g)))))

/-! ### LLRs (R216, R225, R226) -/

/-- Every list of `m` bits. -/
def boolLists : Nat → List (List Bool)
  | 0 => [[]]
  | m + 1 => (boolLists m).flatMap (fun l => [false :: l, true :: l])

/-- Least of a list of numbers. -/
def leastOf (l : List Nat) : Nat := l.foldl min (l.headD 0)

/-- Max-log of bit i of an axis of m bits (R225, R261): the least squared distance to a point with the bit 1, less that to one with the bit 0; in 2^-16 units. Positive favours 0 (R247). -/
def axisLlr (m i : Nat) (v : Int) : Int :=
  let d := fun (b : Bool) => leastOf (((boolLists m).filter (fun l => l.getD i false == b)).map (fun l => ((v - qamAxis l * 2 ^ (15 - m)) ^ 2).toNat))
  (d true : Int) - d false

/-- Max-log of bit i of an equalised symbol of QM bits: even bits on the real axis, odd ones on the imaginary (R261); `n` numbers the symbol. -/
def bitLlr (qm i n : Nat) (v : Int × Int) : Int :=
  if qm = 1 then Config.bpsk v n else axisLlr (qm / 2) (i / 2) (if i % 2 = 0 then v.1 else v.2)

/-- Whether the erased fraction of a RE's ports exceeds RE_ERASE / 256 (R216). -/
def RxGroup.lost (r : RxGroup) (sym sc : Nat) : Bool :=
  decide (r.erase * r.nport < 256 * (r.nport - (List.range r.nport).countP (fun p => r.x.grid.any (fun e => e.1 == gridKey sym p sc))))

/-- The LLR8 codes of an allocation's layers on a data RE (R225): scaled by SINR and 2^(2s), converted by R105; 0 on a lost RE. -/
def RxGroup.reLlrs (r : RxGroup) (a : Alloc) (sym sc : Nat) : List Int :=
  if r.lost sym sc then List.replicate (a.layers * a.qm) 0
  else
    let t := a.pilotFor sym
    let g := r.granuleOf sc
    let (w, det, scale) := r.weights t g
    let z := r.matched sym sc
    let sg := r.sigma2 t g
    (r.layers.zipIdx.filter (fun e => e.1.1.index == a.index)).flatMap (fun e =>
      let row := w.getD e.2 []
      let v := (Config.equalised row det scale z false, Config.equalised row det scale z true)
      let snr := Config.sinr (cAt row e.2).1 det sg.1 sg.2
      (List.range a.qm).map (fun i => clampI (-127) 127 (rneDivI (bitLlr a.qm i (a.codePos sym sc e.1.2) v * snr * 2 ^ (2 * r.shift t) * 4) (2 ^ 48))))

/-- The reference path's LLR8 set of an allocation in the order of R226. -/
def RxGroup.llrs (r : RxGroup) (a : Alloc) : List Int :=
  a.dataSyms.flatMap (fun sym => (List.range (12 * a.nprb)).flatMap (fun k => r.reLlrs a sym (12 * a.prb0 + k)))

/-- Mean |q| × 65,536 of LLR8 codes (R226, R229); with no code it is 0. -/
def meanLlr (l : List Int) : Nat := if l.isEmpty then 0 else rneDiv ((l.foldl (fun (n : Nat) q => n + q.natAbs) 0) * 65536) l.length

/-! ### The learned path's estimates (R227, R228) -/

/-- H_L of a pilot interval as the estimator leaves it in the leaf store (R227): [NPORT, Lg, NG] in CI8. -/
def State.hLearned (s : State) (r : RxGroup) (f : Nat) (place : Nat) : Est := fun port l g =>
  let n := r.layers.length
  let i := (port * n + (r.layers.findIdx (fun e => e.1.index == l.1.index && e.2 == l.2))) * r.granules + g
  let a := leafBase f + 32 * place + 2 * i
  (sx 8 (s.ldN a 1), sx 8 (s.ldN (a + 1) 1))

/-- RES_L of an allocation (R228): as RES_R, from H_L of each interval. -/
def State.learnedResidual (s : State) (r : RxGroup) (a : Alloc) (places : List (BitVec 18)) : Nat :=
  r.residual a (fun t => s.hLearned r a.frond.val ((places.getD (r.pilots.findIdx (fun u => u == t)) 0).toNat))

end Sys2Proof.Machine
end

