-- ==== Sys2Proof/Machine/Receiver.lean ====
section
/-!
DEFINITION. The receiver (07): uplink plans, sections and their release, both paths' completion, the guard, late reports and the noise table. SOURCE of its events: the system controller for plans, the frond controller for decisions, block JOB for the rest (log 26).
-/
namespace Sys2Proof.Machine

open Sys2Proof (Byte Word FhMsg RefDone LrnDone)

/-! ### Plans (R208, R238) -/

/-- An uplink plan's reason and entry number (R208), for a start edge. -/
def State.ulReason (s : State) (p : List Byte) (idx edge : Nat) : Nat × Nat :=
  let scs := s.g Reg.JOB_RX_CFG_SCS
  let now := (s.dom s.rxDom).nanos
  match s.rxPlanCfg.reason p with
  | some r => r
  | none =>
    if edge < now + 1000 * s.g Reg.JOB_RX_ALIGN_PLAN_LEAD then (7, 0xFF)
    else if now + 2 * slotNs scs < edge ∨ s.rx.slots.any (fun x => x.idx == idx && x.start == edge) = true then (8, 0xFF)
    else if !s.planOn (s.roleJob 1) (s.g Reg.JOB_RX_CFG_NPORT) (s.g Reg.JOB_RX_CFG_TDOM) then (9, 0xFF)
    else (0, 0xFF)

/-- An uplink plan, checked whole (R208): accepted, with its groups assigned (R210) and its users seen (R221), or rejected; answered in either case (R347). -/
def State.ulPlan (s : State) (p : List Byte) : State :=
  let scs := s.g Reg.JOB_RX_CFG_SCS
  let job := s.roleJob 1
  let sfn := le p 0 2 % 1024
  let slot := byteAt p 2 % 128
  let idx := sfn * spf scs + slot
  let edge := s.edgeOf s.rxDom scs (s.dom s.rxDom).nanos idx
  let r := s.ulReason p idx edge
  let s :=
    if r.1 = 0 then
      let l := assigned (match job with | some j => s.jobFronds j | none => []) ((planEntries p).map entryAlloc)
      let users := (l.map (fun a => a.ueid)).foldl (seeUser (s.g Reg.JOB_RX_TRACK_RESET_SLOTS) (s.slotNo edge)) s.rx.users
      { s with rx := { s.rx with slots := s.rx.slots ++ [(⟨idx, edge, le p 4 2, l, 0, [], false, 0, false, [], [], []⟩ : RxSlot)], users := users },
               boot := { s.boot with planned := true } }
    else
      let shown := if p.length < 16 ∨ spf scs ≤ slot then 0xFFFFFFFF else idx
      (s.inc Reg.JOB_RX_PLAN_REJ_CNT).raise 0x0303 0x00 (jobByte job) (r.1 + r.2 <<< 8 + shown <<< 32)
  s.planRsp (job.getD 16) 0 r.1 r.2 sfn slot

/-- UL_PLAN (R204 to R210, R347). -/
def execUlPlan (m : FhMsg) (s : State) : Host.Outcome State Fault Refusal :=
  act (fun s => s.control m 1 (fun s => s.ulPlan (m.body.drop 4))) s

/-! ### Release (R214 to R216) -/

/-- Whether every port that is not ABSENT has its sections of a symbol written; with no such port nothing is complete (R214). -/
def State.complete (s : State) (x : RxSlot) (sym : Nat) : Bool :=
  let l := symEntries x.grid sym
  let ports := (List.range (s.g Reg.JOB_RX_CFG_NPORT)).filter (fun p => !s.absent p)
  !ports.isEmpty && ports.all (fun p => decide (l.countP (fun (e : Nat × Word) => keyPort e.1 == p) = 12 * s.g Reg.JOB_RX_CFG_NPRB))

/-- The erasures of a released symbol, added to an allocation, beside all of its port-REs (R216). -/
def Alloc.addErased (a : Alloc) (nport sym : Nat) (l : List (Nat × Word)) : Alloc :=
  if !a.syms.contains sym then a
  else { a with res := nport * 12 * a.nprb * a.nsym, erased := a.erased + (nport * 12 * a.nprb - (a.entries l).length) }

/-- Runs of silent symbols by port: one more for a port that wrote nothing of a symbol, none for one that did (R215). -/
def silentRuns (nport : Nat) (l : List (Nat × Word)) (m : List (Nat × Nat)) : List (Nat × Nat) :=
  (List.range nport).foldl (fun (m : List (Nat × Nat)) p =>
    if l.any (fun (e : Nat × Word) => keyPort e.1 == p) then sset 0 m p 0 else sset 0 m p (sget 0 m p + 1)) m

/-- PORT_ABSENT (R215): a port silent for ABSENT_SYM symbols is set ABSENT. -/
def State.absentTest (s : State) (idx : Nat) : State :=
  (List.range (s.g Reg.JOB_RX_CFG_NPORT)).foldl (fun t p =>
    if !t.absent p && decide (t.g Reg.JOB_RX_ALIGN_ABSENT_SYM ≤ sget 0 t.rx.silent p) then t.setAbsent p true idx else t) s

/-- A symbol is released (R214): its samples take their heads' correction (R218), unwritten REs are erased, the CI8 copy and the estimates of a pilot symbol are made (R217, R223), noise sums and saturations count, loops update, and silent ports are judged. -/
def State.release (s : State) (idx sym : Nat) : State :=
  match s.rx.slots.find? (fun x => x.idx == idx && x.edge && !x.ended) with
  | none => s
  | some x =>
    if x.released.getLsbD sym then s
    else
      let nport := s.g Reg.JOB_RX_CFG_NPORT
      let n := s.symNo x sym
      let grid := x.grid.map (fun (e : Nat × Word) => if keySym e.1 = sym then (e.1, s.headTurn n e.1 e.2) else e)
      let l := symEntries grid sym
      let y := { x with grid := grid, released := x.released ||| BitVec.ofNat 14 (1 <<< sym), allocs := x.allocs.map (fun (a : Alloc) => a.addErased nport sym l),
                        turns := x.turns ++ s.turnsAt x sym }
      let y := { y.copied sym with est := x.est ++ s.lsNew y sym }
      let s := s.modRxSlot idx (fun z => if z.start = x.start then y else z)
      let s := (s.addc Reg.JOB_RX_ERASED_RE_CNT (nport * 12 * s.g Reg.JOB_RX_CFG_NPRB - l.length)).addc Reg.JOB_RX_NORM_SAT_CNT (y.normNew sym)
      let s := (s.addNoise y sym l).trackSym y sym
      ({ s with rx := { s.rx with silent := silentRuns nport l s.rx.silent } }).absentTest idx

/-- A symbol of an open slot that is complete and not released. -/
def State.nextReady (s : State) : Option (Nat × Nat) :=
  (s.rx.slots.filter (fun x => x.edge && !x.ended)).findSome? (fun x =>
    ((List.range 14).find? (fun sym => !x.released.getLsbD sym && s.complete x sym)).map (fun sym => (x.idx, sym)))

/-- The complete symbols of every open slot are released (R214, R215): a port that turns ABSENT no longer holds others. -/
def State.releaseReady : Nat → State → State
  | 0, s => s
  | n + 1, s => match s.nextReady with
    | some e => releaseReady n (s.release e.1 e.2)
    | none => s

/-- Symbols that open slots have. -/
def State.openSyms (s : State) : Nat := 14 * s.rx.slots.length

/-- SYMBOL_RELEASE_TIMEOUT (R214, R215): the window of a symbol has ended. -/
def execSymbolReleaseTimeout (idx : BitVec 17) (sym : Fin 14) (s : State) : Host.Outcome State Fault Refusal :=
  act (fun s =>
    match s.rx.slots.find? (fun x => x.idx == idx.toNat && x.edge && !x.ended) with
    | none => s
    | some x => if s.pastWin x sym.val then (s.release idx.toNat sym.val).releaseReady s.openSyms else s) s

/-! ### Sections (R343 to R345, R209, R213) -/

/-- The fields of a section header (R343). -/
structure SectHdr where
  antenna : Nat
  sfn  : Nat
  slot : Nat
  sym  : Nat
  w    : Nat
  prb0 : Nat
  nprb : Nat
  deriving DecidableEq, Repr

/-- Mantissa width of a code (R343). -/
def mantissaWidth (c : Nat) : Nat := if c = 0 then 8 else if c = 1 then 9 else if c = 2 then 12 else 16

/-- The header of a type 0 message (R342, R343). -/
def sectHdr (b : List Byte) : SectHdr :=
  { antenna := be b 0 2 % 512, sfn := bits (le b 4 2) 0 10, slot := bits (byteAt b 6) 0 7, sym := bits (byteAt b 7) 0 4,
    w := mantissaWidth (bits (byteAt b 7) 4 2), prb0 := bits (le b 8 2) 0 9, nprb := bits (le b 10 2) 0 9 }

/-- eCPRI payload size of a section (R344). -/
def SectHdr.size (h : SectHdr) : Nat := 4 + 16 + ceilDiv h.nprb 2 + 3 * h.w * h.nprb

/-- R345: the lowest reason that fails, 0 for none. -/
def State.sectReason (s : State) (m : FhMsg) : Nat :=
  let b := m.body
  let h := sectHdr b
  let nport := s.g Reg.JOB_RX_CFG_NPORT
  if m.size ≠ h.size ∨ m.body.length ≠ m.size then 1
  else if h.nprb = 0 ∨ s.g Reg.JOB_RX_CFG_NPRB < h.prb0 + h.nprb then 2
  else if nport ≤ h.antenna then 3
  else if spf (s.g Reg.JOB_RX_CFG_SCS) ≤ h.slot then 4
  else if bits (be b 0 2) 9 7 ≠ 0 ∨ byteAt b 3 ≠ 0x80 ∨ bits (le b 4 2) 10 6 ≠ 0 ∨ bit (byteAt b 6) 7 = true ∨ bits (byteAt b 7) 6 2 ≠ 0 ∨
      bits (le b 8 2) 9 7 ≠ 0 ∨ bits (le b 10 2) 9 7 ≠ 0 ∨ zeroRange b 12 8 = false then 5
  else if 13 < h.sym then 6
  else 0

/-- The samples of a section in ascending subcarrier order, as CI16, and how many components saturated (R344). -/
def SectHdr.samples (h : SectHdr) (b : List Byte) : List (Nat × Word) × Nat :=
  let man := leOf (b.drop (20 + ceilDiv h.nprb 2))
  (List.range (12 * h.nprb)).foldl (fun (o : List (Nat × Word) × Nat) k =>
    let i := k / 12
    let e := bits (byteAt b (20 + i / 2)) (4 * (i % 2)) 4
    let c := fun (j : Nat) => sx h.w (bits man ((2 * k + j) * h.w) h.w) * (2 ^ e : Nat)
    (o.1 ++ [(gridKey h.sym h.antenna (12 * h.prb0 + k), packCi (c 0) (c 1))],
      o.2 + b2n (decide (satS 16 (c 0) ≠ c 0)) + b2n (decide (satS 16 (c 1) ≠ c 1)))) ([], 0)

/-- A section that has passed its checks is placed (R209, R213, R214, R215): after its symbol's release, or once that is due, it is late; without an open grid, or on REs already written, it is stray. -/
def State.placeSection (s : State) (m : FhMsg) (h : SectHdr) : State :=
  let scs := s.g Reg.JOB_RX_CFG_SCS
  let idx := h.sfn * spf scs + h.slot
  let edge := s.edgeOf s.rxDom scs (s.dom s.rxDom).nanos idx
  match s.rx.slots.find? (fun x => x.idx == idx && x.start == edge && x.edge) with
  | none => s.inc Reg.JOB_RX_STRAY_SECT_CNT
  | some x =>
    let lo := gridKey h.sym h.antenna (12 * h.prb0)
    if x.released.getLsbD h.sym || (!x.ended && s.pastWin x h.sym) then s.inc Reg.JOB_RX_LATE_SECT_CNT
    else if x.ended then s.inc Reg.JOB_RX_STRAY_SECT_CNT
    else if x.grid.any (fun (e : Nat × Word) => decide (lo ≤ e.1 ∧ e.1 < lo + 12 * h.nprb)) then s.inc Reg.JOB_RX_STRAY_SECT_CNT
    else
      let (l, sat) := h.samples m.body
      let s := s.addc (Reg.FH_P_DECOMP_SAT_CNT (linkPort m.link.val)) sat
      let s := s.modRxSlot idx (fun x => { x with grid := l.foldl (fun (g : List (Nat × Word)) (e : Nat × Word) =>
        (g.filter (fun (d : Nat × Word) => decide (d.1 < e.1))) ++ e :: g.filter (fun (d : Nat × Word) => decide (e.1 < d.1))) x.grid })
      let s := if s.absent h.antenna then
          ({ s with rx := { s.rx with silent := sset 0 s.rx.silent h.antenna 0 } }).setAbsent h.antenna false idx else s
      s.releaseReady s.openSyms

/-- IQ_SECTION (R209, R213, R214, R341 to R345). -/
def execIqSection (m : FhMsg) (s : State) : Host.Outcome State Fault Refusal :=
  act (fun s =>
    if !s.fhLive m then s
    else
      let p := linkPort m.link.val
      let h := sectHdr m.body
      let s := s.fhAccepted m false
      match s.sectReason m with
      | 0 => s.placeSection m h
      | r =>
        let n := spf (s.g Reg.JOB_RX_CFG_SCS)
        let idx := if n ≤ h.slot then 0xFFFFFFFF else h.sfn * n + h.slot
        (s.inc (Reg.FH_P_BAD_SECT_CNT p)).ev 0x0801 0x07 (r + p.val <<< 4 + (m.link.val % 4) <<< 6 + h.antenna <<< 8 + idx <<< 32)) s

/-! ### The guard (R229 to R232, R237) -/

/-- The limits of the guard (R230). -/
structure GuardCfg where
  resMargin : Nat
  llrMargin : Nat
  clampMax  : Nat
  eraseMax  : Nat
  deriving DecidableEq, Repr

/-- JOB_RX_GUARD. -/
def State.guardCfg (s : State) : GuardCfg :=
  ⟨s.g Reg.JOB_RX_GUARD_RES_MARGIN, s.g Reg.JOB_RX_GUARD_LLR_MARGIN, s.g Reg.JOB_RX_GUARD_CLAMP_MAX, s.g Reg.JOB_RX_GUARD_ERASE_MAX⟩

/-- RES_L − RES_R (R230, R239). -/
def Alloc.resDiff (a : Alloc) : Int := sx 16 a.resL - sx 16 a.resR

/-- REASON bits as R230 sets them. -/
def guardWhy (c : GuardCfg) (a : Alloc) : Nat :=
  let both := a.lrnDone && a.refDone
  b2n (both && decide (a.resDiff > c.resMargin)) +
  b2n (both && decide (a.mllrL * 256 < a.mllrR * (256 - c.llrMargin))) <<< 1 +
  b2n (both && decide (a.clampL * 256 > a.nllr * c.clampMax)) <<< 2 +
  bits a.marks 0 1 <<< 3 + bits a.marks 1 1 <<< 4 +
  b2n (a.models && !a.lrnDone) <<< 5 + b2n (!a.models) <<< 6 + b2n (decide (a.eraseFrac > c.eraseMax)) <<< 7

/-- The guard's decision and REASON (R230): 0 LEARNED, 1 REFERENCE, 2 LEARNED_NOREF, 3 DISCARDED_LATE, 4 REF_ONLY. -/
def guardRule (c : GuardCfg) (a : Alloc) : Nat × Nat :=
  if a.path = 1 then (if a.refDone then (4, 0) else (3, 0))
  else
    let why := guardWhy c a
    if !a.refDone then (if a.lrnDone && why == 0 then (2, 0) else (3, why))
    else if why ≠ 0 then (1, why) else (0, 0)

/-- An allocation is reported LATE (R237): delivered as LATE, counted, EV_DEADLINE_MISS with its cause, once. Its work ends: a decode that runs stops after its current code block, by THR_CANCEL (R256; DEDUCED, log 26). -/
def State.lateReport (s : State) (idx : Nat) (a : Alloc) (cause : Nat) : State :=
  if a.done then s
  else
    let s := s.thrCancel a.frond (allocTag idx (s.g Reg.JOB_RX_CFG_SCS) a.index)
    let s := (s.deliver idx a 2 []).inc Reg.JOB_RX_LATE_CNT
    s.raise 0x0302 0x06 (jobByte (s.roleJob 1)) (allocTag idx (s.g Reg.JOB_RX_CFG_SCS) a.index + cause <<< 17 + idx <<< 32)

/-- GUARD_DECISION (R230 to R232): decided once, with its counters and events, the chosen path's buffer handed to the thresher; DISCARDED_LATE is reported at once (R237). -/
def State.guardDecide (s : State) (x : RxSlot) (a : Alloc) : State :=
  if a.decision.isSome || a.done then s
  else
    let (d, why) := guardRule s.guardCfg a
    let b := { a with decision := some d, reason := why, tG := s.compact s.rxDom, buf := if d = 3 then none else some (if d = 0 ∨ d = 2 then a.bufL else a.bufR) }
    let s := (s.modAlloc x.idx a.index (fun _ => b)).inc Reg.JOB_RX_ALLOC_CNT
    let s := s.countDecision x.start b
    if d = 3 then s.lateReport x.idx b 1
    else if d = 2 then s.inc Reg.JOB_RX_NOREF_CNT
    else if d = 1 then
      let diff := if b.lrnDone && b.refDone then toBits 16 (satS 16 b.resDiff) else 0
      (s.inc Reg.JOB_RX_FALLBACK_CNT).raise 0x0301 (unitSrc b.frond 6) (jobByte (s.roleJob 1))
        (allocTag x.idx (s.g Reg.JOB_RX_CFG_SCS) b.index + why <<< 16 + b.eraseFrac <<< 24 + diff <<< 32 + b.ueid <<< 48)
    else s

/-- The guard decides an allocation when both its paths are complete, or its only path (R230). -/
def State.decideReady (s : State) (tag : Nat) : State :=
  match s.tagged tag with
  | some (x, a) => if a.refDone && (a.path == 1 || a.lrnDone) then s.guardDecide x a else s
  | none => s

/-- Whether a path of an allocation may still complete: not decided or reported, before G(n), every symbol released (R214, R230, R232). -/
def State.pathOpen (s : State) (x : RxSlot) (a : Alloc) : Bool :=
  !a.decision.isSome && !a.done && !s.pastG x && a.syms.all (fun t => x.released.getLsbD t)

/-- The granary space of the receive job at an offset / 32, as a frond's signal cores reach it. -/
def State.rxSpace (s : State) (f : Fin 6) (place n : Nat) (write : Bool) : AccRes :=
  match s.roleJob 1 with
  | some j => s.access (unitSrc f 2) j (grnBase + 32 * place) n write
  | none => .unmapped

/-- REFERENCE_PATH_COMPLETE (R222 to R226, R230, R232): the LLR8 set goes to its buffer, RES_R, MLLR_R and the time into the guard record; not once the allocation is decided or its time is over. -/
def execReferencePathComplete (v : RefDone) (s : State) : Host.Outcome State Fault Refusal :=
  act (fun s =>
    match s.tagged v.tag.toNat with
    | none => s
    | some (x, a) =>
      if a.frond ≠ v.frond || a.refDone || !s.pathOpen x a then s
      else
        let r := s.groupFor x a
        let q := r.llrs a
        match s.rxSpace a.frond v.buf.toNat q.length true with
        | .ok =>
          let s := s.store (grnBase + 32 * v.buf.toNat) (q.map (fun c => BitVec.ofInt 8 c))
          (s.modAlloc x.idx a.index (fun b => { b with
            refDone := true, resR := r.residual a r.hRef, mllrR := meanLlr q, tR := s.compact s.rxDom, bufR := v.buf.toNat })).decideReady v.tag.toNat
        | e => s.refuse (unitSrc a.frond 2) ((s.roleJob 1).getD 0) (grnBase + 32 * v.buf.toNat) true e) s

/-- A completed vector command adds its slot 14 to its allocation's sum when it is a scaling command: one with a summary that stores LLR8 (R183, R228; DEDUCED, log 26). -/
def State.addClamps (s : State) (f : Fin 6) (tag : Nat) (cmd : List Word) (slot14 : Nat) : State :=
  let llr := ((vport cmd 3).fmt == 0xA || (vport cmd 4).fmt == 0xA) && cfield cmd 0 19 1 == 1
  match s.tagged tag with
  | some (x, a) => if llr && a.frond == f then s.modAlloc x.idx a.index (fun b => { b with clamps := b.clamps + slot14 }) else s
  | none => s

/-- LEARNED_PATH_COMPLETE (R227, R228, R232): with the last vector command that carries its tag, an allocation's learned values enter the guard record; not once it is decided, its time is over, or when it runs no learned path. -/
def State.learned (s : State) (f : Fin 6) (tag : Nat) (v : LrnDone) : State :=
  match s.tagged tag with
  | none => s
  | some (x, a) =>
    let more := (s.fr f).vec.queue.any (fun c => cfield c 1 16 16 == tag)
    if a.frond ≠ f || a.lrnDone || a.path != 0 || !a.models || more || !s.pathOpen x a then s
    else
      match s.rxSpace f v.buf.toNat a.coded false with
      | .ok =>
        let q := (s.ld (grnBase + 32 * v.buf.toNat) a.coded).map llr8
        let res := s.learnedResidual (s.groupFor x a) a v.est
        (s.modAlloc x.idx a.index (fun b => { b with
          lrnDone := true, resL := res, mllrL := meanLlr q, clampL := b.clamps, nllr := a.coded, tL := s.compact s.rxDom, bufL := v.buf.toNat })).decideReady tag
      | e => s.refuse (unitSrc f 2) ((s.roleJob 1).getD 0) (grnBase + 32 * v.buf.toNat) false e

/-- The allocations of a slot that are not yet decided are decided (R230). -/
def State.guardExpiry (s : State) (idx : Nat) : State :=
  match s.rx.slots.find? (fun x => x.idx == idx && x.edge && !x.ended) with
  | some x => x.allocs.foldl (fun t a => t.guardDecide x a) s
  | none => s

/-- GUARD_TIME_EXPIRY (R230): G(n) has come. -/
def execGuardTimeExpiry (idx : BitVec 17) (s : State) : Host.Outcome State Fault Refusal :=
  act (fun s =>
    match s.rx.slots.find? (fun x => x.idx == idx.toNat && x.edge && !x.ended) with
    | some x => if s.pastG x then s.guardExpiry idx.toNat else s
    | none => s) s

/-! ### Noise table (R234, R235) -/

/-- Code of a mean power (R234): round(−4 × 10 log10(sum / count / 2^30)), 0 to 1,022: how many n have 10^(2 n − 1) × sum^80 ≤ (2^30 × count)^80. -/
def noiseCode (sum count : Nat) : Nat :=
  let x := sum ^ 80
  let y := (2 ^ 30 * count) ^ 80
  (List.range 1022).countP (fun i => decide (10 ^ (2 * i + 1) * x ≤ y))

/-- Entry of the table (R234): the code, STALE where the period saw no idle RE. -/
def noiseEntry (pair : Nat × Nat) (old : Nat) : Nat × Nat := if pair.2 = 0 then (old, old + 0x8000) else let c := noiseCode pair.1 pair.2; (c, c)

/-- NOISE_PERIOD_END (R234, R235): the table replaces the previous one and goes to the MAC; all pairs restart from 0. -/
def State.noisePeriod (s : State) (idx : Nat) : State :=
  let n := s.g Reg.JOB_RX_CFG_NPORT * ceilDiv (s.g Reg.JOB_RX_CFG_NPRB) 4
  let es := (List.range n).map (fun k => (k, noiseEntry (sget (0, 0) s.rx.noise k) (sget 1023 s.rx.codes k)))
  let body := es.flatMap (fun (e : Nat × (Nat × Nat)) => toLE 2 e.2.2)
  let s := { s with rx := { s.rx with noise := [], codes := es.foldl (fun (m : List (Nat × Nat)) (e : Nat × (Nat × Nat)) => sset 1023 m e.1 e.2.1) [] } }
  let s := s.store (grnBase + s.g Reg.JOB_RX_NF_BASE * 0x10000) body
  s.fhSend ((s.roleJob 1).getD 16) 0x12 idx (s.g Reg.JOB_RX_CFG_SCS) 0xFF body

end Sys2Proof.Machine
end

