-- ==== Sys2Proof/Machine/Done.lean ====
section
/-!
DEFINITION. Completion of vector commands (06 R171, R183) and thresher commands (08 R255), with what the receive job does then (07 R228, 12 R349).
-/
namespace Sys2Proof.Machine

open Sys2Proof (Byte Word LrnDone)

/-- A completed command's post (R138, R242): none when it would overflow. Semaphore, side and count lie in a word from a bit on. -/
def State.cmdPost (s : State) (f : Fin 6) (c : List Word) (w lo : Nat) : Option State :=
  s.post f (cfield c w lo 11) (cfield c w (lo + 11) 1 == 1) (cfield c w (lo + 12) 4)

/-- VEC_COMMAND_COMPLETE (R171, R183, R228): a command whose iterations are done completes: summary, post, count; with a full summary queue it holds its completion. `lrn` names the learned path's results when this was an allocation's last command. -/
def execVecCommandComplete (f : Fin 6) (lrn : Option LrnDone) (s : State) : Host.Outcome State Fault Refusal :=
  act (fun s =>
    match (s.fr f).vec.run with
    | none => s
    | some r =>
      if r.iter < r.nv then s
      else
        let summ := cfield r.cmd 0 19 1 == 1
        if summ && decide (16 ≤ (s.fr f).vec.sums.length) then s.inc (Reg.VEC_SUM_FULL_CNT f)
        else
          let rec_ : SumRec := ⟨BitVec.ofNat 16 (cfield r.cmd 1 16 16), r.slots⟩
          let s := s.modVec f (fun v => { v with run := none, sums := if summ then v.sums ++ [rec_] else v.sums })
          match s.cmdPost f r.cmd 2 0 with
          | none => s.vecReject f r.cmd 10
          | some s =>
            let s := s.inc (Reg.VEC_CMD_CNT f)
            let s := if cfield r.cmd 0 20 1 = 1 then s.irq f (unitSrc f 1) (cfield r.cmd 1 16 16) else s
            let tag := cfield r.cmd 1 16 16
            let s := s.addClamps f tag r.cmd (r.slots.get 14).toNat
            match lrn with
            | some v => s.learned f tag v
            | none => s) s

/-- What a completed DECODE or label ENCODE does for its allocation (R232, R236, R237, R268, R349): a DECODE of the buffer that the guard chose, with the allocation's DECODE field, delivers it before D(n); a label ENCODE of its decoded bits, with that field, moves its label work on with the codeword. -/
def State.thrOutcome (s : State) (f : Fin 6) (c : List Word) (result : Nat) : State :=
  match s.tagged (thrTag c) with
  | none => s
  | some (x, a) =>
    if a.frond ≠ f ∨ thrParam c ≠ a.decode then s
    else if result ≤ 1 then
      if a.done || a.decision.isNone || a.buf != some (cfield c 2 0 23) || s.pastD x then s
      else
        let n := ceilDiv (codeParam (thrParam c)).tbs 8
        let s := s.modAlloc x.idx a.index (fun b => { b with crcOk := result == 0, dec := some (cfield c 3 0 23) })
        let s := if result = 1 then s.countCrc x.start a else s
        s.deliver x.idx a result (s.ld (grnBase + 32 * cfield c 3 0 23) n)
    else if result = 3 ∧ a.labelled = 1 ∧ a.dec = some (cfield c 2 0 23) ∧ cfield c 5 0 24 = a.coded then
      let n := ceilDiv (cfield c 5 0 24) 8
      s.modAlloc x.idx a.index (fun b => { b with labelled := 2, bits := s.ld (grnBase + 32 * cfield c 3 0 23) n })
    else s

/-- THR_COMMAND_COMPLETE (R255): the status record is written with its time, POST is posted, the command counts and may interrupt; a failed CRC may be reported (R265). -/
def execThrCommandComplete (f : Fin 6) (s : State) : Host.Outcome State Fault Refusal :=
  act (fun s =>
    match (s.fr f).thr.run with
    | none => s
    | some r =>
      if !r.computed then s
      else
        let st := if r.cancelled then r.status.take 2 ++ [2] ++ r.status.drop 3 else r.status
        let result := byteAt st 2
        let s := s.store (grnBase + 32 * cfield r.cmd 4 0 23) (st ++ toLE 4 (s.compact .a) ++ zeros 16)
        let s := s.modThr f (fun t => { t with run := none })
        match s.cmdPost f r.cmd 6 16 with
        | none => s.thrReject f r.cmd 7
        | some s =>
          let s := s.inc (Reg.THR_TB_CNT f)
          let s := if cfield r.cmd 0 3 1 = 1 then s.irq f (unitSrc f 3) (thrTag r.cmd) else s
          let s := if result = 1 ∧ s.on (Reg.THR_CFG_FAIL_EV f) = true then
              s.raise 0x0402 (unitSrc f 3) (jobByte (s.jobOf f)) (thrTag r.cmd + byteAt st 4 <<< 16 + byteAt st 5 <<< 24) else s
          s.thrOutcome f r.cmd result) s

end Sys2Proof.Machine
end

