-- ==== Sys2Proof/Machine/Journal.lean ====
section
/-!
DEFINITION. The fault journal in flash (16, R430 to R432): sectors, records, snapshots, replay at start.
-/
namespace Sys2Proof.Machine

open Sys2Proof (Byte Word)

/-- Number of journal sectors (R430). -/
def State.jrnlCount (s : State) : Nat := (s.flashSize / 16 - 8192) / 4096

/-- Flash offset of a journal sector. -/
def State.jrnlAt (s : State) (k : Nat) : Nat := s.logBase + 8192 + 4096 * k

/-- Flash offset of a record of a sector. -/
def State.recAt (s : State) (k i : Nat) : Nat := s.jrnlAt k + 32 + 32 * i

/-- The header of a sector when it is valid: GEN and ERASES. -/
def State.jrnlHdr (s : State) (k : Nat) : Option (Nat × Nat) :=
  let h := s.fl (s.jrnlAt k) 32
  if le h 0 4 = 0x4C4A5A46 ∧ crc32 (h.take 28) = le h 28 4 then some (le h 4 4, le h 8 4) else none

/-- The newest sector whose header is valid, with its GEN. -/
def State.jrnlNewest (s : State) : Option (Nat × Nat) :=
  (List.range s.jrnlCount).foldl (fun best k => match s.jrnlHdr k, best with
    | some (g, _), some (_, b) => if g > b then some (k, g) else best
    | some (g, _), none => some (k, g)
    | none, _ => best) none

/-- Records used in a sector: those before the first erased one. -/
def State.jrnlUsed (s : State) (k : Nat) : Nat :=
  ((List.range 127).takeWhile (fun i => le (s.fl (s.recAt k i) 2) 0 2 != 0xFFFF)).length

/-- The records of a sector in order. -/
def State.jrnlRecs (s : State) (k : Nat) : List (List Byte) := (List.range (s.jrnlUsed k)).map (fun i => s.fl (s.recAt k i) 32)

/-- The sector after one in use, skipped ones left out (R430). -/
def State.jrnlNext (s : State) (after : Option Nat) : Option Nat :=
  let n := s.jrnlCount
  let first := match after with | some k => k + 1 | none => 0
  ((List.range n).map (fun i => (first + i) % n)).find? (fun k => !s.flt.skipped.contains k)

/-! ### Replay (R422, R430) -/

/-- Whether a record is a journal record of a code whose CRC holds. -/
def isJrnl (code : Nat) (r : List Byte) : Bool := le r 0 2 == code && crc32 (r.take 28) == le r 28 4

/-- The records from the start of the newest complete snapshot on; none where there is none. -/
def sinceSnapshot (rs : List (List Byte)) : Option (List (List Byte)) :=
  match (List.range rs.length).reverse.find? (fun i => isJrnl 0xF006 (rs.getD i [])) with
  | none => none
  | some e => ((List.range (e + 1)).reverse.find? (fun i => isJrnl 0xF005 (rs.getD i []))).map (fun b => rs.drop b)

/-- The journal's records in order, oldest sector of the unbroken run of generations first. -/
def State.jrnlAll (s : State) : List (List Byte) :=
  match s.jrnlNewest with
  | none => []
  | some (_, g) =>
    let at_ := fun (x : Nat) => (List.range s.jrnlCount).find? (fun k => (s.jrnlHdr k).map (·.1) == some x)
    let gens := ((List.range (min g s.jrnlCount)).map (fun i => g - i)).takeWhile (fun x => (at_ x).isSome)
    gens.reverse.flatMap (fun x => match at_ x with | some k => s.jrnlRecs k | none => [])

/-- The registers and bank states that show a remedy (R304, R422, R424). -/
def State.showRemedy (s : State) (r : Remedy) : State :=
  match r.remedy with
  | 4 => s.p Reg.FLT_STS_FROND_RET (s.g Reg.FLT_STS_FROND_RET ||| 1 <<< locFrond r.loc)
  | 6 => s.setBank (locIndex r.loc) 3
  | 7 => s.p Reg.FLT_STS_SIG_RET (s.g Reg.FLT_STS_SIG_RET + 1)
  | 8 => s.p Reg.FLT_LANE_RET (s.g Reg.FLT_LANE_RET ||| 1 <<< (locIndex r.loc % 32))
  | _ => s

/-- One record applied: remedies, history and uptime that the state does not hold yet. -/
def State.replayRec (s : State) (r : List Byte) : State :=
  let w := le r 4 4
  let up := le r 8 8
  let l := BitVec.ofNat 24 w
  if isJrnl 0xF001 r then
    let x : Remedy := ⟨l, bits w 24 4, bits w 28 4, up⟩
    if s.flt.remedies.any (fun y => y.loc == x.loc && y.remedy == x.remedy) then s
    else ({ s with flt := { s.flt with remedies := s.flt.remedies ++ [x] } }).showRemedy x
  else if isJrnl 0xF002 r then
    let h : Hist := ⟨l, up⟩
    if s.flt.hist.any (fun y => y.loc == l) then s else { s with flt := { s.flt with hist := s.flt.hist ++ [h] } }
  else if isJrnl 0xF004 r || isJrnl 0xF005 r || isJrnl 0xF006 r then s.p Reg.FLT_UPTIME (max (s.g Reg.FLT_UPTIME) (up % 4294967296))
  else s

/-- JOURNAL_REPLAY (R430): the journal from the newest complete snapshot on is applied; without one, EV_FLT_JOURNAL with reason 3. Remedies that field fuses hold are in force from the fuse shadow. -/
def State.journalReplay (s : State) : State :=
  match sinceSnapshot s.jrnlAll with
  | some rs => rs.foldl State.replayRec s
  | none => s.ev 0x0C06 0x05 (3 + (match s.jrnlNewest with | some (k, _) => k <<< 8 | none => 0))

/-! ### Writing -/

/-- The records of a snapshot (R430): every remedy in force, every history entry, the uptime. -/
def State.snapshot (s : State) : List (List Byte) :=
  let up := s.g Reg.FLT_UPTIME
  [journalBytes 0xF005 0 up] ++ s.flt.remedies.map (fun r => journalBytes 0xF001 (r.loc.toNat + r.remedy <<< 24 + r.cause <<< 28) r.uptime) ++
    s.flt.hist.map (fun h => journalBytes 0xF002 h.loc.toNat h.first) ++ [journalBytes 0xF004 0 up, journalBytes 0xF006 0 up]

/-- A sector is erased and takes a header (R430, R431). -/
def State.jrnlStart (s : State) (k gen : Nat) : State :=
  let er := match s.jrnlHdr k with | some (_, e) => e | none => 0
  let h := toLE 4 0x4C4A5A46 ++ toLE 4 gen ++ toLE 4 (er + 1) ++ zeros 16
  let s := { s with flt := { s.flt with credit := s.flt.credit - 1 } }
  ((s.flErase (s.jrnlAt k) 4096).flSt (s.jrnlAt k) (h ++ toLE 4 (crc32 h))).inc Reg.FLT_JRNL_WR_CNT

/-- Records written from a position on, each full sector followed by the next one. -/
def State.jrnlWrite (s : State) : List (List Byte) → Nat → Nat → Nat → State
  | [], _, _, _ => s
  | r :: rs, k, i, gen =>
    if i < 127 then (s.flSt (s.recAt k i) r).jrnlWrite rs k (i + 1) gen
    else match s.jrnlNext (some k) with
      | none => s
      | some k' => ((s.jrnlStart k' (gen + 1)).flSt (s.recAt k' 0) r).jrnlWrite rs k' 1 (gen + 1)

/-- The record that is written next (R432): journal records before event records. -/
def State.jrnlHead (s : State) : Option JrnlRec :=
  match s.flt.waiting.find? (fun r => !r.event) with
  | some r => some r
  | none => s.flt.waiting.head?

/-- The state without a waiting record. -/
def State.jrnlTake (s : State) (r : JrnlRec) : State := { s with flt := { s.flt with waiting := s.flt.waiting.erase r } }

/-- Whether the journal may write (R432): the start sequence has completed, or SAFE was entered 1 s ago. -/
def State.jrnlOpen (s : State) : Bool :=
  decide (0 < s.jrnlCount) &&
    (s.boot.phase == .started || (s.boot.phase == .safe && decide (s.ticks - s.boot.safeAt ≥ 1000000000)))

/-- A sector that failed is skipped for good, and EV_FLT_JOURNAL names it (R430). -/
def State.jrnlSkip (s : State) (k reason : Nat) : State :=
  ({ s with flt := { s.flt with skipped := s.flt.skipped ++ [k] } }).ev 0x0C06 0x05 (reason + k <<< 8)

/-- A record that needs a new sector: it waits for credit, or an event record is dropped (R431); else the sector starts with a snapshot. -/
def State.jrnlNew (s : State) (r : JrnlRec) (after : Option Nat) (gen : Nat) (eraseOk : Bool) : State :=
  let recs := s.snapshot ++ [r.bytes]
  if s.flt.credit < ceilDiv recs.length 127 then (if r.event then (s.jrnlTake r).inc Reg.FLT_JRNL_DROP_CNT else s)
  else match s.jrnlNext after with
    | none => s
    | some k =>
      if eraseOk then ((s.jrnlTake r).jrnlStart k gen).jrnlWrite recs k 0 gen
      else (({ s with flt := { s.flt with credit := s.flt.credit - 1 } }).inc Reg.FLT_JRNL_WR_CNT).jrnlSkip k 2

/-- JOURNAL_RECORD_WRITE (R430 to R432): the next waiting record is programmed into the newest sector, or a new sector is begun; the operands say whether the program and the erase succeed. -/
def execJournalRecordWrite (programOk eraseOk : Bool) (s : State) : Host.Outcome State Fault Refusal :=
  act (fun s =>
    if !s.jrnlOpen then s
    else match s.jrnlHead with
      | none => s
      | some r =>
        match s.jrnlNewest with
        | none => s.jrnlNew r none 1 eraseOk
        | some (k, g) =>
          if s.jrnlUsed k < 127 && !s.flt.skipped.contains k then
            (if programOk then (s.jrnlTake r).flSt (s.recAt k (s.jrnlUsed k)) r.bytes else s.jrnlSkip k 1)
          else s.jrnlNew r (some k) (g + 1) eraseOk) s

/-- UPTIME_RECORD (R430): every hour of uptime a record of it is journalled. -/
def execUptimeRecord (s : State) : Host.Outcome State Fault Refusal :=
  act (fun s => s.journal 0xF004 0 (s.g Reg.FLT_UPTIME)) s

end Sys2Proof.Machine
end

