-- ==== Sys2Proof/Machine/FaultCmds.lean ====
section
/-!
DEFINITION. Commands of chapter 16 that stand alone: timeouts and watchdogs (R417), pattern tests of granary banks and the hourly check of corrected words (R420, R421), the history's ageing (R419), lanes returned to use (R424), calibration (R428).
-/
namespace Sys2Proof.Machine

open Sys2Proof (Byte Word Addr)

/-- The code of a location named by its parts (R416). -/
def locOf (l : Sys2Proof.Loc) : BitVec 24 := locCode l.kind.toNat l.frond.toNat l.index.toNat

/-- Whether a location may be charged with a timeout or a watchdog expiry (R416, R417): a kind that is neither reserved nor a lane's. -/
def chargeable (l : BitVec 24) : Bool := decide ((1 ≤ locKind l ∧ locKind l ≤ 4) ∨ locKind l = 6 ∨ locKind l = 7)

/-- FABRIC_TIMEOUT (R417, R418): EV_FLT_TIMEOUT with the requester and the target address, counted, and charged to the bank or unit aimed at. -/
def execFabricTimeout (src : Byte) (job : Option (Fin 16)) (loc : Sys2Proof.Loc) (addr : Addr) (testOk : Bool) (s : State) : Host.Outcome State Fault Refusal :=
  act (fun s =>
    if !chargeable (locOf loc) then s
    else ((s.inc Reg.FLT_TIMEOUT_CNT).raise 0x0C05 0x05 (jobByte (job.map (fun j => j.val))) (src.toNat + (addr.toNat % 2 ^ 48) <<< 16)).hwFault
      (locOf loc) 2 testOk 0x0C05 0x05) s

/-- UNIT_WATCHDOG (R417, R418): a unit that made no progress is counted and charged. No event is the watchdog's own: the job's fault carries EV_FLT_TRANSIENT's code, or EV_RETIRED's when the location is permanent (DEDUCED, log 31). -/
def execUnitWatchdog (src unit_ : Byte) (loc : Sys2Proof.Loc) (testOk : Bool) (s : State) : Host.Outcome State Fault Refusal :=
  act (fun s =>
    if locKind (locOf loc) != 6 || !([1, 3, 4, 6].contains (locIndex (locOf loc))) || decide (src.toNat % 16 ≠ unit_.toNat % 16) then s
    else
      let again := s.flt.hist.any (fun e => e.loc == locOf loc && decide (s.g Reg.FLT_UPTIME - e.first < 86400))
      (s.inc Reg.FLT_WD_CNT).hwFault (locOf loc) 4 testOk (if again then 0x0C01 else 0x0C02) 0x05) s

/-- A location whose corrected words of the hour exceed CE_THR (R421): EV_FLT_CE_RATE; a granary bank is tested at once, another location at its owner's next restart, with a result that is free (log 5). -/
def State.ceRate (s : State) (l n : Nat) : State :=
  let s := s.ev 0x0C04 0x05 (l + n <<< 32)
  let loc := BitVec.ofNat 24 l
  if locKind loc = 1 then { s with flt := { s.flt with rateTests := s.flt.rateTests ++ [locIndex loc] } }
  else
    let (w, s) := s.free
    { s with flt := { s.flt with tests := s.flt.tests ++ [(loc, w.toNat % 2 == 0)] } }

/-- CE_RATE_CHECK (R421): a whole hour of uptime has passed; its counts are judged, and a new hour begins. -/
def execCeRateCheck (s : State) : Host.Outcome State Fault Refusal :=
  act (fun s =>
    let ended := s.flt.ce.filter (fun (e : Nat × Nat) => decide (s.g Reg.FLT_CFG_CE_THR < e.2))
    ended.foldl (fun (t : State) (e : Nat × Nat) => t.ceRate e.1 e.2) { s with flt := { s.flt with ce := [] } }) s

/-- GRANARY_PATTERN_TEST_DONE (R420, R421): the test of a bank that was due has completed; a failure makes the bank permanent, and when R421 asked for the test and a job uses the bank, that job restarts so that the spare can be fitted; while the job restarts, the remedy applies in that restart. Words `lost` are those that the copy into the spare cannot correct: they are stored poisoned (R308). -/
def execGranaryPatternTestDone (b : Fin 1024) (ok : Bool) (lost : List (Fin 8192)) (s : State) : Host.Outcome State Fault Refusal :=
  act (fun s =>
    let l := locCode 1 15 b.val
    let rate := s.flt.rateTests.contains b.val
    if !rate && !s.flt.tests.any (fun (t : BitVec 24 × Bool) => t.1 == l) then s
    else
      let s := { s with flt := { s.flt with rateTests := s.flt.rateTests.filter (fun x => x != b.val), tests := s.flt.tests.filter (fun (t : BitVec 24 × Bool) => t.1 != l) } }
      let s := s.ev 0x0C03 0x05 (l.toNat + b2n (!ok) <<< 24 + s.g Reg.FLT_UPTIME <<< 32)
      if ok then s
      else
        let owner := s.locOwner l
        let s := lost.foldl (fun t w => t.setPoison (grnBase + b.val * 0x40000 + 32 * w.val)) s
        let s := s.permanent l 2
        match owner with
        | some j => if s.jst j = 3 then s.remediesStep j else if rate then s.askRestart j none false false else s
        | none => s) s

/-- HISTORY_EXPIRY (R419): the entry of a location is 86,400 s old and is removed. -/
def execHistoryExpiry (loc : Sys2Proof.Loc) (s : State) : Host.Outcome State Fault Refusal :=
  act (fun s => { s with flt := { s.flt with hist := s.flt.hist.filter (fun e => e.loc != locOf loc || decide (s.g Reg.FLT_UPTIME - e.first < 86400)) } }) s

/-- CALIBRATION (R428): sensors, thresholds, regulators and time-stamp delays are adjusted within the accuracy of R393; no register, queue or port shows it. -/
def execCalibration (s : State) : Host.Outcome State Fault Refusal := act (fun s => s) s

/-- A retired lane returns to use (R424): its remedy and its history entry go. -/
def State.laneBack (s : State) (lane : Nat) : State :=
  let l := locCode 5 15 lane
  let s := s.p Reg.FLT_LANE_RET (s.g Reg.FLT_LANE_RET - bits (s.g Reg.FLT_LANE_RET) lane 1 <<< lane)
  { s with flt := { s.flt with remedies := s.flt.remedies.filter (fun r => r.loc != l), hist := s.flt.hist.filter (fun e => e.loc != l) } }

/-- A write of FLT_LANE_RET (R8, R424): only MG may write it; each bit written 1 of a retired lane returns the lane, and the change is journalled as a new snapshot, which no longer restates the lane (DEDUCED, log 31). -/
def State.laneReturn (s : State) (agent v : Nat) : State :=
  s.guard agent Reg.FLT_LANE_RET.addr true (fun s =>
    let set_ := s.g Reg.FLT_LANE_RET
    if !s.mayWrite agent .mg then (if v % 2 ^ 32 = set_ then s else s.ignore)
    else
      let back := (bitsOn 32 v).filter (fun i => set_.testBit i)
      if back.isEmpty then s
      else
        let s := back.foldl (fun t i => t.laneBack i) s
        { s with flt := { s.flt with waiting := s.flt.waiting ++ s.snapshot.map (fun r => ⟨r, false⟩) } })

/-- LANE_RETURN (R424). -/
def execLaneReturn (agent : Byte) (mask : Word) (s : State) : Host.Outcome State Fault Refusal :=
  act (fun s => s.laneReturn agent.toNat mask.toNat) s

end Sys2Proof.Machine
end

