-- ==== Sys2Proof/Machine/RzPort.lean ====
section
/-!
DEFINITION. The rhizome ports: the frame header (13 R357, R358), routes and forwarding (R360), the order of sending (R361) and the stamps that leave with a frame (R362, R363).
-/
namespace Sys2Proof.Machine

open Sys2Proof (Byte Word RzFrame)

/-! ### Identity (R359) -/

/-- Bytes of the group identity section; none without one. -/
def State.ident (s : State) : List Byte := s.groupSect.getD []

/-- SELF_ID. -/
def State.selfId (s : State) : Nat := s.g Reg.RZ_GRP_STS_SELF_ID

/-- GROUP_ID of the identity section. -/
def State.groupId (s : State) : Nat := le s.ident 8 4

/-- ROLE of a port: 0 unused, 1 parent, 2 child, 3 pair. -/
def State.rzRole (s : State) (p : Fin 4) : Nat := s.g (Reg.RZ_Pp_STS_ROLE p)

/-- One rhizome port. -/
def State.rzp (s : State) (p : Fin 4) : RzPort := s.grp.ports.get p

/-- The state with one rhizome port changed. -/
def State.modRzp (s : State) (p : Fin 4) (g : RzPort → RzPort) : State :=
  { s with grp := { s.grp with ports := s.grp.ports.set p (g (s.rzp p)) } }

/-- Whether a port's link is up and in use. -/
def State.rzUp (s : State) (p : Fin 4) : Bool := s.on (Reg.RZ_Pp_STS_UP p)

/-- The ports of the tree: parent and child (R360). -/
def State.treePorts (s : State) : List (Fin 4) := (List.finRange 4).filter (fun p => s.rzRole p == 1 || s.rzRole p == 2)

/-- The port that leads to a device (R360): the child port whose range holds its ID, else the parent port. -/
def State.rzRoute (s : State) (dst : Nat) : Option (Fin 4) :=
  match (List.finRange 4).find? (fun p => s.rzRole p == 2 && decide (le s.ident (26 + 8 * p.val) 2 ≤ dst ∧ dst ≤ le s.ident (28 + 8 * p.val) 2)) with
  | some p => some p
  | none => (List.finRange 4).find? (fun p => s.rzRole p == 1)

/-! ### Sending (R361) -/

/-- A full time as 14 bytes of a payload: seconds, nanoseconds, fraction (log 28). -/
def timeBytes (t : FullTime) : List Byte := toLE 8 t.sec.toNat ++ toLE 4 t.ns.toNat ++ toLE 2 t.frac.toNat

/-- A full time in 2^-16 ns. -/
def fullUnits (t : FullTime) : Int := ((t.sec.toNat * 1000000000 + t.ns.toNat) * 65536 + t.frac.toNat : Nat)

/-- The full time that 14 bytes of a payload hold, in 2^-16 ns. -/
def timeUnits (bs : List Byte) (o : Nat) : Int := ((le bs o 8 * 1000000000 + le bs (o + 8) 4) * 65536 + le bs (o + 12) 2 : Nat)

/-- The stamps that a frame takes at its transmit time-stamp point (R362, R363, R379; log 28): t1 of a DELAY_REQ, t3 of a DELAY_RSP after the t2 it holds, the leader's time of its own BEACON, the primary's time at the end of a PAIR_SYNC. -/
def State.rzStamped (s : State) (fr : RzFrame) : RzFrame :=
  let now := timeBytes (s.dom s.groupDom).full
  if fr.kind = 0x02 then { fr with payload := now }
  else if fr.kind = 0x03 then { fr with payload := fr.payload.take 14 ++ now }
  else if fr.kind = 0x10 ∧ fr.src.toNat = s.selfId then { fr with payload := now ++ fr.payload.drop 14 }
  else if fr.kind = 0x30 then { fr with payload := now ++ fr.payload.drop 14 }
  else fr

/-- A frame goes on the line of a port. -/
def State.rzEmit (s : State) (p : Fin 4) (fr : RzFrame) : State :=
  let fr := s.rzStamped { fr with port := p }
  let s := s.modRzp p (fun x => { x with busy := true, t1 := if fr.kind = 0x02 then some (s.dom s.groupDom).full else x.t1 })
  { s with rzOut := s.rzOut ++ [(p.val, fr)] }

/-- Bytes of a rhizome frame from destination address through FCS: Ethernet header, 24-byte rhizome header, payload, FCS (R357). -/
def rzLen (fr : RzFrame) : Nat := max 64 (14 + 24 + fr.payload.length + 4)

/-- A job's share of a rhizome port in 1/64 (R319, R361). -/
def State.rzShareOf (s : State) (p : Fin 4) (j : Nat) : Nat := (s.job j).bind.rzShare.getD p.val 0

/-- Whether a level-4 frame of a job may start: the job holds the credit; PAIR frames, which belong to no job (16 here), draw from no bucket (R361; log 28). -/
def State.rzCredit (s : State) (p : Fin 4) (j len : Nat) : Bool :=
  j == 16 || decide (64 * len ≤ bucketNow (s.rzp p).bucket j (s.rzShareOf p j) s.ticks)

/-- The level-4 frame that goes next: the first in queue order of the first job after the one served last whose frame has credit (R361). -/
def State.nextRed (s : State) (p : Fin 4) : Option (Nat × RzFrame) :=
  let x := s.rzp p
  ((List.range 17).map (fun i => (x.lastJob + 1 + i) % 17)).findSome? (fun j =>
    match x.q4.find? (fun (c : Nat × RzFrame) => c.1 == j) with
    | some c => if s.rzCredit p j (rzLen c.2) then some c else none
    | none => none)

/-- A level-4 frame starts and draws its credit (R361). -/
def State.startRed (s : State) (p : Fin 4) : State :=
  match s.nextRed p with
  | none => s
  | some c =>
    let share := s.rzShareOf p c.1
    (s.modRzp p (fun x => { x with
      q4 := x.q4.erase c, lastJob := c.1,
      bucket := if c.1 = 16 then x.bucket else bucketTake x.bucket c.1 share s.ticks (rzLen c.2) })).rzEmit p c.2

/-- The next frame of a port at a frame boundary, by the four levels of R361. A port that is out of use sends nothing. -/
def State.rzServe (s : State) (p : Fin 4) : State :=
  let x := s.rzp p
  if x.busy || !s.rzUp p then s
  else match x.q1, x.q2, x.q3 with
    | fr :: r, _, _ => (s.modRzp p (fun x => { x with q1 := r })).rzEmit p fr
    | [], fr :: r, _ => (s.modRzp p (fun x => { x with q2 := r })).rzEmit p fr
    | [], [], fr :: r => (s.modRzp p (fun x => { x with q3 := r })).rzEmit p fr
    | [], [], [] => s.startRed p

/-- A frame enters a queue of a port and the port sends if it is idle. A port that is down or out of use takes none (R360). -/
def State.rzPut (s : State) (p : Fin 4) (level job : Nat) (fr : RzFrame) : State :=
  if !s.rzUp p then s
  else
    (s.modRzp p (fun x =>
      match level with
      | 1 => { x with q1 := x.q1 ++ [fr] }
      | 2 => { x with q2 := x.q2 ++ [fr] }
      | 3 => { x with q3 := x.q3 ++ [fr] }
      | _ => { x with q4 := x.q4 ++ [(job, fr)] })).rzServe p

/-- A frame of the device's own with the next SEQ (R357). -/
def State.rzMake (s : State) (kind : Nat) (bc : Bool) (dst tag : Nat) (payload : List Byte) : RzFrame × State :=
  let seq := s.grp.seq + 1
  (⟨0, 3, 1, BitVec.ofNat 8 kind, 16, bc, false, BitVec.ofNat 16 dst, BitVec.ofNat 16 s.selfId, BitVec.ofNat 32 s.groupId,
    BitVec.ofNat 32 tag, seq, payload⟩, { s with grp := { s.grp with seq := seq } })

/-- The priority level of a frame kind of the device's own (R361). -/
def rzLevel (kind : Nat) : Nat :=
  if kind ≤ 3 ∨ kind = 0x10 ∨ kind = 0x23 then 1 else if kind < 0x20 ∨ kind = 0x22 then 3 else 4

/-- A frame of the device's own on one port. -/
def State.rzSendOn (s : State) (p : Fin 4) (kind job dst tag : Nat) (payload : List Byte) : State :=
  let (fr, s) := s.rzMake kind false dst tag payload
  s.rzPut p (rzLevel kind) job fr

/-- A frame of the device's own to another device of the topology. -/
def State.rzSend (s : State) (kind job dst tag : Nat) (payload : List Byte) : State :=
  match s.rzRoute dst with
  | some p => s.rzSendOn p kind job dst tag payload
  | none => s

/-- A broadcast of the device's own on every parent and child port (R360). -/
def State.rzCast (s : State) (kind tag : Nat) (payload : List Byte) : State :=
  let (fr, s) := s.rzMake kind true 0 tag payload
  s.treePorts.foldl (fun t p => t.rzPut p (rzLevel kind) 16 fr) s

/-- A frame of the pair port. -/
def State.pairSend (s : State) (kind tag : Nat) (payload : List Byte) : State :=
  match (List.finRange 4).find? (fun p => s.rzRole p == 3) with
  | some p => s.rzSendOn p kind 16 (le s.ident (30 + 8 * p.val) 2) tag payload
  | none => s

/-! ### Receiving (R357, R360) -/

/-- Kinds of R358. -/
def rzKinds : List Nat := [0x01, 0x02, 0x03, 0x10, 0x11, 0x12, 0x13, 0x14, 0x15, 0x16, 0x20, 0x21, 0x22, 0x23, 0x30, 0x31, 0x32]

/-- R357 but for GROUP_ID: CLASS, VER, reserved fields and KIND; a payload longer than R357 allows as well (log 28). -/
def rzBad (fr : RzFrame) : Bool :=
  fr.cls != 3 || fr.ver != 1 || fr.rsv || !rzKinds.contains fr.kind.toNat || decide (8192 < fr.payload.length)

/-- A frame is dropped by R357. -/
def State.rzDropped (s : State) (fr : RzFrame) : Bool := rzBad fr || fr.group.toNat != s.groupId

/-- Whether a port receives: it is up, in RUN or in HOLD (R360). -/
def State.rzLive (s : State) (p : Fin 4) : Bool := s.rzUp p && decide (s.boot.phase = .started) && decide (s.g Reg.PWR_STS_STATE < 2)

/-- Bytes of a payload with a link's delay and the residence time added to the CORR at an offset, in 1/64 ns (R363); the spec gives no figure for the residence time, so it is a free value (log 28). -/
def State.addCorr (s : State) (p : Fin 4) (o : Nat) (bs : List Byte) : List Byte × State :=
  let (r, s) := s.free
  (bs.take o ++ toLE 4 (le bs o 4 + s.g (Reg.RZ_Pp_STS_DELAY p) + r.toNat % 2 ^ 24) ++ bs.drop (o + 4), s)

/-- A frame is forwarded on ports (R360): HOPS falls by 1; with HOPS 0 it is dropped. BEACON and BAR_RELEASE carry a CORR that grows (R363, R376). -/
def State.rzForward (s : State) (fr : RzFrame) (ps : List (Fin 4)) : State :=
  if ps.isEmpty then s
  else if fr.hops = 0 then s.inc Reg.RZ_HOP_DROP_CNT
  else
    let x := if fr.kind = 0x10 then s.addCorr fr.port 22 fr.payload
      else if fr.kind = 0x23 then s.addCorr fr.port 0 fr.payload else (fr.payload, s)
    let fr' : RzFrame := { fr with hops := fr.hops - 1, payload := x.1 }
    ps.foldl (fun t p => t.rzPut p (if fr.kind = 0x10 ∨ fr.kind = 0x23 then 1 else 2) 16 fr') x.2

/-- A unicast frame that is not for this device goes on by range, or is dropped where no route exists (R360). -/
def State.rzPass (s : State) (fr : RzFrame) : State :=
  match s.rzRoute fr.dst.toNat with
  | some p => s.rzForward fr [p]
  | none => s.inc Reg.RZ_NOROUTE_CNT

/-- A received frame of a kind (R357, R358, R360): dropped when bad; a link-local frame, a pair frame on the pair port, a broadcast and a frame for this device are served; broadcasts and frames for others are forwarded. -/
def State.rzReceive (s : State) (fr : RzFrame) (kind : Nat) (serve : State → State) : State :=
  if !s.rzLive fr.port then s
  else if s.rzDropped fr then s.inc Reg.RZ_DROP_CNT
  else if fr.kind.toNat ≠ kind then s
  else if kind ≤ 3 then serve s
  else if 0x30 ≤ kind then (if s.rzRole fr.port = 3 then serve s else s)
  else if fr.bc then (serve s).rzForward fr (s.treePorts.filter (fun p => p != fr.port))
  else if fr.dst.toNat = s.selfId then serve s
  else s.rzPass fr

/-- RZ_FRAME_DROP (R357): a frame with a bad header, another GROUP_ID or a reserved kind is dropped and counted. -/
def execRzFrameDrop (fr : RzFrame) (s : State) : Host.Outcome State Fault Refusal :=
  act (fun s => if s.rzLive fr.port && s.rzDropped fr then s.inc Reg.RZ_DROP_CNT else s) s

/-- RZ_FRAME_FORWARD (R360): a frame for another device is forwarded by range, or dropped without hops or route. -/
def execRzFrameForward (fr : RzFrame) (s : State) : Host.Outcome State Fault Refusal :=
  act (fun s =>
    if !s.rzLive fr.port then s
    else if s.rzDropped fr then s.inc Reg.RZ_DROP_CNT
    else if fr.kind.toNat ≤ 3 ∨ 0x30 ≤ fr.kind.toNat ∨ fr.bc = true ∨ fr.dst.toNat = s.selfId then s
    else s.rzPass fr) s

/-- RZ_EGRESS_FRAME_END (R361): a frame has left the port, and the port picks the next. -/
def execRzEgressFrameEnd (p : Fin 4) (s : State) : Host.Outcome State Fault Refusal :=
  act (fun s => (s.modRzp p (fun x => { x with busy := false })).rzServe p) s

/-- SHARE_BUCKET_CREDIT (R353, R361): a bucket has refilled, and the idle port starts the frame that waited for it. -/
def execShareBucketCredit (p : Fin 4) (rz : Bool) (_job : Fin 16) (s : State) : Host.Outcome State Fault Refusal :=
  act (fun s => if rz then s.rzServe p else s.fhServe p) s

/-! ### Links (R356, R360, R362) -/

/-- HELLO (R356, R360): another GROUP_ID or device ID than the identity section names takes the port out of use; else the peer's address is kept. -/
def execHello (fr : RzFrame) (s : State) : Host.Outcome State Fault Refusal :=
  act (fun s =>
    if !s.rzLive fr.port || fr.kind != 1 then s
    else if rzBad fr then s.inc Reg.RZ_DROP_CNT
    else if fr.group.toNat ≠ s.groupId ∨ le fr.payload 8 4 ≠ s.groupId then
      (s.inc Reg.RZ_DROP_CNT).rzLink fr.port false 1
    else if le fr.payload 6 2 ≠ le s.ident (30 + 8 * fr.port.val) 2 then s.rzLink fr.port false 2
    else s.modRzp fr.port (fun x => { x with peer := some (BitVec.ofNat 48 (le fr.payload 0 6)) })) s

/-- DELAY_REQ (R362): answered with DELAY_RSP, which carries the time of arrival and its own time of sending. -/
def execDelayReq (fr : RzFrame) (s : State) : Host.Outcome State Fault Refusal :=
  act (fun s => s.rzReceive fr 2 (fun s =>
    s.rzSendOn fr.port 3 16 fr.src.toNat 0 (timeBytes (s.dom s.groupDom).full))) s

/-- One link delay from t1, t2, t3 and t4 in 2^-16 ns, in 1/64 ns (R362). -/
def linkDelay (t1 t2 t3 t4 : Int) : Nat := (rneDivI ((t4 - t1) - (t3 - t2)) 2048).toNat

/-- DELAY_RSP (R362): ((t4 − t1) − (t3 − t2)) / 2 joins the last 16 measurements, whose mean RZ_Pp_STS.DELAY shows. -/
def execDelayRsp (fr : RzFrame) (s : State) : Host.Outcome State Fault Refusal :=
  act (fun s => s.rzReceive fr 3 (fun s =>
    match (s.rzp fr.port).t1 with
    | none => s
    | some t1 =>
      let d := linkDelay (fullUnits t1) (timeUnits fr.payload 0) (timeUnits fr.payload 14) (fullUnits (s.dom s.groupDom).full)
      let l := (d :: (s.rzp fr.port).delays).take 16
      (s.modRzp fr.port (fun x => { x with t1 := none, delays := l })).p (Reg.RZ_Pp_STS_DELAY fr.port) (min 0xFFFFFF (rneDiv (l.foldl (· + ·) 0) l.length)))) s

/-- The source address of a rhizome port (R356). -/
def State.rzAddr (s : State) (p : Fin 4) : Nat := s.g64 Reg.FH_BASE_ADDR_LO Reg.FH_BASE_ADDR_HI + 16 + p.val

/-- RZ_LINK_TIMER (R358, R362): every 10 ms the port sends HELLO and measures its link's delay. -/
def execRzLinkTimer (p : Fin 4) (s : State) : Host.Outcome State Fault Refusal :=
  act (fun s =>
    let peer := le s.ident (30 + 8 * p.val) 2
    (s.rzSendOn p 1 16 peer 0 (toLE 6 (s.rzAddr p) ++ toLE 2 s.selfId ++ toLE 4 s.groupId)).rzSendOn p 2 16 peer 0 []) s

/-- RZ_LINK_CHANGE (R356, R360, R380): a rhizome link goes up or down; frames that waited on a lost link are lost with it (log 28). -/
def execRzLinkChange (p : Fin 4) (up : Bool) (s : State) : Host.Outcome State Fault Refusal :=
  act (fun s =>
    let powered := decide (s.boot.phase ≠ .safe) && s.g Reg.PWR_STS_STATE != 2 && s.rzRole p != 0 && s.linkInUse (.rz p)
    if s.rzUp p == up || (up && !powered) then s
    else
      let s := s.modRzp p (fun x => { x with q1 := [], q2 := [], q3 := [], q4 := [], t1 := none })
      s.rzLink p up 0) s

end Sys2Proof.Machine
end

