-- ==== Sys2Proof/Machine/Fuse.lean ====
section
/-!
DEFINITION. When fuses may be programmed, and the anti-rollback counter (17, R439, R440).
-/
namespace Sys2Proof.Machine

open Sys2Proof (Byte Word)

/-- Fuses are programmed only in RUN or SAFE, and only while no thermal cap is in force (R440). -/
def State.canFuse (s : State) : Bool := s.pwr.therm.isNone && (s.inRun || s.boot.phase == .safe)

/-- EV_SEC_FUSE_FAIL (R454): the field and the bit that failed its read-back twice. -/
def State.fuseFail (s : State) (field idx : Nat) : State := s.ev 0x0D07 0x01 (field + (idx % 256) <<< 8)

/-- A write that waits (R440). -/
def State.fuseWait (s : State) (d : FuseDue) : State :=
  if s.fuses.due.contains d then s else { s with fuses := { s.fuses with due := s.fuses.due ++ [d] } }

/-- ANTI_ROLLBACK_ADVANCE (R439): the bits up to SEC_VER of the image in force are blown in order, `blown` of them reading back; a bit that fails stops the device there. -/
def State.arbAdvance (s : State) (blown : Nat) : State :=
  match s.image with
  | none => s
  | some im =>
    let n := im.hdr 16 4 - s.fuses.arb
    let k := min n blown
    let s := { s with fuses := { s.fuses with arb := s.fuses.arb + k } }
    let s := s.p Reg.SEC_ARB s.fuses.arb
    if k < n then s.fuseFail 1 s.fuses.arb else s

/-- Fuse bits that a transition left unfinished are blown before any other start step (R453). -/
def State.finishBlowing (s : State) : State :=
  if s.fuses.life = 3 then { s with fuses := { s.fuses with oik := none, seed := false } }
  else if s.fuses.life = 4 then { s with fuses := { s.fuses with oik := none, seed := false, dus := false } }
  else s

end Sys2Proof.Machine
end

