-- ==== Sys2Proof/Machine/ImageCheck.lean ====
section
/-!
DEFINITION. The checks of an image (02, R42 to R50, R473): header, section table entries, unpacking, parameters, and the content checks of the sections (R112, R159, R173, R245, R318 to R321, R359, R444). A failure is the event it raises: code and ARG.
-/
namespace Sys2Proof.Machine

open Sys2Proof (Byte Word SecExtra GraphInfo ModelInfo)

/-! ### Header (R42, R47 steps 1 to 4, R437) -/

/-- The cause of R437 by which a key index may not sign in the present life-cycle state; 0 when it may. -/
def State.keyCause (s : State) (k : Nat) : Nat :=
  let lc := s.fuses.life
  let allowed := (lc = 0 ∧ k = 0) ∨ lc = 1 ∨ (lc = 2 ∧ k ≠ 0) ∨ (lc = 3 ∧ k = 0)
  if ¬allowed then 1
  else match s.fuses.slots.toList.getD k none with
    | none => 2
    | some _ => if s.fuses.revoked.getLsbD k then 3 else 0

/-- The first header failure of R47 steps 1 to 4. -/
def State.headCheck (s : State) (slot : Fin 2) (h t : List Byte) : Option ImgFail :=
  let bad := fun (c : Nat) => some (0x0E0C, slot.val + c <<< 8)
  let sig := fun (c : Nat) => some (0x0E01, slot.val + byteAt h 40 <<< 8 + c <<< 16)
  let n := le h 6 2
  let size := le h 8 4
  if le h 0 4 ≠ 0x4E414948 then bad 1
  else if le h 4 2 ≠ 1 then bad 2
  else if byteAt h 41 > s.g Reg.SYS_ID_PART_REV_MIN + s.g Reg.SYS_ID_PART_REV_MAJ <<< 4 then bad 3
  else if !zeroRange h 42 6 || !zeroRange h 96 64 || bits (le h 12 4) 3 29 ≠ 0 || n = 0 || decide (n > 1023)
      || decide (size < 256 + 64 * n) || decide (size > s.slotSize) || decide (le h 16 4 > 64) || decide (byteAt h 40 > 3) then bad 4
  else
    let c := s.keyCause (byteAt h 40)
    if c ≠ 0 then sig c
    else if !Config.ecdsaOk ((s.fuses.slots.toList.getD (byteAt h 40) none).getD []) (h.take 160) ((h.drop 160).take 96) then sig 0
    else if le h 16 4 < s.fuses.arb then some (0x0E03, slot.val + le h 16 4 <<< 8 + s.fuses.arb <<< 16)
    else if Config.sha384 t ≠ (h.drop 48).take 48 then bad 5
    else none

/-! ### Section table entries (R43, R44) -/

/-- One 64-byte entry of an image's table. -/
def Image.entry (im : Image) (i : Nat) : List Byte := (im.table.drop (64 * i)).take 64

/-- Number of table entries. -/
def Image.count (im : Image) : Nat := im.hdr 6 2

/-- UNPACKED limit of a section type (R44); none for a reserved type. -/
def sectLimit : Nat → Option Nat
  | 0x01 => some (2 * 1048576)
  | 0x02 => some (256 * 1024)
  | 0x03 => some (64 * 1024)
  | 0x04 => some 1048576
  | 0x05 => some (256 * 1024)
  | 0x06 => some (72 * 1048576)
  | 0x07 => some (64 * 1024)
  | 0x08 => some 4096
  | 0x09 => some (16 * 1024)
  | 0x0A => some 1048576
  | 0x0B => some (16 * 1024)
  | _ => none

/-- Whether a TARGET is one of its type's (R44). -/
def targetOk (typ tg : Nat) : Bool :=
  match typ with
  | 0x01 => decide (tg ≤ 7)
  | 0x02 => (decide (bits tg 0 4 ≤ 5) || bits tg 0 4 == 7) && (decide (bits tg 8 4 ≤ 7) || bits tg 8 4 == 15) && bits tg 4 4 == 0 && bits tg 12 4 == 0
  | 0x03 | 0x0A => decide (tg ≤ 5) || tg == 7
  | 0x04 | 0x05 => decide (tg ≤ 15)
  | 0x06 => bits tg 2 6 == 0 && bits tg 9 7 == 0
  | _ => tg == 0

/-- Whether two sections of one type may not stand beside each other (R44): the same target, or, for signal-core programs, one unit named with the same number of "all" codes. -/
def sectClash (typ a b : Nat) : Bool :=
  a == b || (typ == 0x02 &&
    ((bits a 0 4 == 7 && bits a 8 4 != 15 && bits b 0 4 != 7 && bits b 8 4 == 15) ||
     (bits b 0 4 == 7 && bits b 8 4 != 15 && bits a 0 4 != 7 && bits a 8 4 == 15)))

/-- Check 1 (R43, R44): whether entry `i` is in order; an OFFSET inside the header or the table is not (R42; DEDUCED). -/
def Image.entryOk (im : Image) (i : Nat) : Bool :=
  let e := im.entry i
  let off := le e 0 4
  let stored := le e 4 4
  let unp := le e 8 4
  let typ := byteAt e 12
  let fl := byteAt e 13
  let enc := fl.testBit 0
  let packed := fl.testBit 1
  let tg := le e 14 2
  decide (off % 4096 = 0 ∧ off + stored ≤ im.hdr 8 4 ∧ 256 + 64 * im.count ≤ off ∧ fl / 4 = 0) && (!enc || (im.hdr 12 4).testBit 0) &&
    (if packed then true else if enc then stored == unp + 16 else stored == unp) && (!enc || decide (stored ≥ 16)) &&
    (match sectLimit typ with | some m => decide (unp ≤ m) | none => false) && targetOk typ tg &&
    (List.range i).all (fun k => byteAt (im.entry k) 12 != typ || !sectClash typ (le (im.entry k) 14 2) tg)

/-! ### Unpacking (R45) -/

/-- Unpacks tokens into at most `left` more bytes; none when the counts do not come out at exactly that. -/
def unpackTokens : Nat → Nat → List Byte → Option (List Byte)
  | 0, left, bs => if bs = [] ∧ left = 0 then some [] else none
  | fuel + 1, left, bs =>
    if bs = [] then (if left = 0 then some [] else none)
    else if bs.length < 4 then none
    else
      let n := le bs 0 2
      let z := le bs 2 2
      let pad := (n + 3) / 4 * 4
      let r := bs.drop 4
      if n + z > left ∨ r.length < pad then none
      else (unpackTokens fuel (left - n - z) (r.drop pad)).map (fun o => r.take n ++ zeros z ++ o)

/-! ### Rules between fields (R473) -/

/-- IMAGE_CROSS_CHECK (R473): the rules that tie IMG fields together, in ascending order of the register reported (R240, R259, R294, R341, R391, R403). -/
def State.crossCheck (s : State) (training : Bool) : Option ImgFail :=
  let islBad := s.g Reg.PWR_ISL_CFG_AR_MAX < s.g Reg.PWR_ISL_CFG_AR_MIN ∨ s.g Reg.PWR_ISL_CFG_LN_MAX < s.g Reg.PWR_ISL_CFG_LN_MIN ∨
    s.g Reg.PWR_ISL_CFG_FB_MAX < s.g Reg.PWR_ISL_CFG_FB_MIN
  let ptpBad := s.on (Reg.TIME_d_CFG_EN 0) && s.on (Reg.TIME_d_CFG_EN 1) && s.g (Reg.TIME_d_CFG_PORT 0) == s.g (Reg.TIME_d_CFG_PORT 1) &&
    s.g (Reg.TIME_d_CFG_PTPDOM 0) == s.g (Reg.TIME_d_CFG_PTPDOM 1)
  let slot := 500000 / 2 ^ s.g Reg.JOB_RX_CFG_SCS
  let rxBad := s.g Reg.JOB_RX_CFG_NPORT * s.g Reg.JOB_RX_CFG_NPRB > 33792 ∨ s.g Reg.JOB_RX_GUARD_T * 1000 ≥ (s.g Reg.JOB_RX_CFG_K + 1) * slot
  let txBad := s.g Reg.JOB_TX_TIME_TB_LEAD ≤ s.g Reg.JOB_TX_TIME_LEAD
  let nrec := s.g Reg.JOB_TRN_TRING_NREC
  let resBad := nrec ≠ 0 ∧ s.g Reg.JOB_TRN_RES + s.g Reg.JOB_TRN_CFG_BATCH ≥ nrec
  let nrecBad := (nrec ≠ 0 ∧ (s.g Reg.JOB_TRN_HRING_NHREC < 2000 ∨ s.g Reg.JOB_TRN_TRING_TSLOT = 0)) ∨ (training = true ∧ nrec = 0)
  let hBad := s.g Reg.JOB_TRN_HRING_NHREC ≠ 0 ∧ s.g Reg.JOB_TRN_HRING_HSLOT = 0
  let vid := (List.range 4).find? (fun p => s.on (Reg.FH_Pp_CFG_VLAN_EN p) &&
    (s.g (Reg.FH_Pp_CFG_VID p) == 0 || s.g (Reg.FH_Pp_CFG_VID p) == 4095))
  let bad := fun (F : Fld) => some (0x0E09, F.addr)
  if islBad then bad Reg.PWR_ISL_CFG_AR_MIN
  else if ptpBad then bad (Reg.TIME_d_CFG_PORT 0)
  else if rxBad then bad Reg.JOB_RX_CFG_NPORT
  else if txBad then bad Reg.JOB_TX_TIME_LEAD
  else if resBad then bad Reg.JOB_TRN_CFG_BATCH
  else if nrecBad then bad Reg.JOB_TRN_TRING_NREC
  else if hBad then bad Reg.JOB_TRN_HRING_NHREC
  else match vid with
    | some p => bad (Reg.FH_Pp_CFG_MODE p)
    | none => none

/-! ### Job table (R318 to R321) -/

/-- Whether one record has every field in its range (R319 to R321). -/
def recordOk (r : List Byte) : Bool :=
  let b0 := byteAt r 0
  if b0 % 2 = 0 then b0 / 8 == 0 && zeroRange r 1 255
  else
    let bg := bit b0 1
    let prot := bit b0 2
    b0 / 8 == 0 && decide (byteAt r 1 ≤ 3 ∧ byteAt r 2 ≤ 15 ∧ 1 ≤ byteAt r 3 ∧ byteAt r 3 ≤ 6 ∧ byteAt r 4 ≤ 63 ∧ byteAt r 4 ≠ 0) &&
      (if bg then decide (2 ≤ byteAt r 5) else byteAt r 5 == 0) && zeroRange r 6 2 && byteAt r 11 == 0 && zeroRange r 14 2 &&
      (List.range 8).all (fun p => decide (byteAt r (16 + p) ≤ 64)) && decide (le r 24 4 < 4096) && (bg || le r 24 4 == 0) &&
      (prot || le r 28 2 == 0) && zeroRange r 30 2 && zeroRange r 64 192 &&
      (List.range 4).all (fun i => decide (byteAt r (36 + 8 * i) ≤ 2) && zeroRange r (37 + 8 * i) 3)

/-- Every pair of different entries of a list of jobs with their numbers. -/
def jobPairs (l : List (Nat × JobRec)) : List ((Nat × JobRec) × (Nat × JobRec)) :=
  l.flatMap (fun a => (l.filter (fun b => b.1 != a.1)).map (fun b => (a, b)))

/-- Whether two barn ranges overlap. -/
def overlaps (a1 n1 a2 n2 : Nat) : Bool := decide (n1 ≠ 0 ∧ n2 ≠ 0 ∧ a1 < a2 + n2 ∧ a2 < a1 + n1)

/-- Whether regions taken together cover a range. -/
def covers : Nat → List BarnRegion → Nat → Nat → Bool
  | 0, _, lo, hi => decide (hi ≤ lo)
  | fuel + 1, l, lo, hi =>
    if hi ≤ lo then true
    else match l.find? (fun b => decide (b.base ≤ lo ∧ lo < b.base + b.size)) with
      | some b => covers fuel l (b.base + b.size) hi
      | none => false

/-- The rules of R321 on the bindings of a set of jobs, the barn apart. -/
def bindingsOk (l : List (Nat × JobRec)) : Bool :=
  let ps := jobPairs l
  !l.isEmpty && l.all (fun j => j.2.fronds != 0) &&
    ps.all (fun p => (p.1.2.fronds &&& p.2.2.fronds) == 0 || (p.1.2.kind && p.2.2.kind && p.1.2.fronds == p.2.2.fronds)) &&
    ps.all (fun p => (p.1.2.channels &&& p.2.2.channels) == 0 && (p.1.2.ways &&& p.2.2.ways) == 0) &&
    l.all (fun j => decide (popCount 16 j.2.ways.toNat ≤ 8) && decide (j.2.frondMin ≤ popCount 6 j.2.fronds.toNat)) &&
    ps.all (fun p => p.1.2.role == 0 || p.1.2.role != p.2.2.role) &&
    l.all (fun j => !((j.2.role == 1 || j.2.role == 2) && j.2.kind) && !(j.2.role == 3 && !j.2.kind) && !(j.2.prot && j.2.kind)) &&
    decide (l.countP (fun j => j.2.prot) ≤ 1) &&
    (List.range 4).all (fun p => decide ((l.map (fun j => j.2.fhShare.getD p 0)).sum ≤ 64 ∧ (l.map (fun j => j.2.rzShare.getD p 0)).sum ≤ 64)) &&
    l.all (fun j => !(j.2.kind && l.any (fun k => k.1 != j.1 && k.2.kind && k.2.fronds == j.2.fronds)) ||
      inChannels j.2.channels (j.2.save * 0x10000) (177 * 0x10000 * popCount 6 j.2.fronds.toNat))

/-- The rules of R321 on the barn, its usable size in MiB and ARCH given. -/
def barnOk (l : List (Nat × JobRec)) (arch usable : Nat) : Bool :=
  let top := usable - 256
  let inArch := fun (b : BarnRegion) => decide (arch ≤ b.base ∧ b.base + b.size ≤ arch + 576)
  l.all (fun j => j.2.barn.all (fun b => decide (b.size = 0 ∨ b.base + b.size ≤ top))) &&
    (jobPairs l).all (fun p => p.1.2.barn.all (fun a => p.2.2.barn.all (fun b =>
      b.mode != 2 || !overlaps a.base a.size b.base b.size ||
        (a.mode == 1 && p.1.2.role == 1 && p.2.2.role == 3 && inArch a && inArch b) ||
        (a.mode == 2 && b.mode == 1 && p.2.2.role == 1 && p.1.2.role == 3 && inArch a && inArch b)))) &&
    decide (arch + 576 ≤ top) &&
    l.all (fun j => j.2.role != 1 || covers 8 (j.2.barn.filter (fun b => b.mode == 1)) arch (arch + 576)) &&
    l.all (fun j => j.2.role != 3 || covers 8 (j.2.barn.filter (fun b => b.mode == 2)) arch (arch + 288))

/-- The jobs of a job table section with their numbers. -/
def tableJobs (bs : List Byte) : List (Nat × JobRec) :=
  ((List.range 16).map (fun j => (j, jobRecOf ((bs.drop (64 + 256 * j)).take 256)))).filter (fun x => x.2.valid)

/-- Content check of a job table, the barn apart (R318 to R321). -/
def jobTableOk (bs : List Byte) : Bool :=
  bs.length == 4160 && le bs 0 4 == 0x54424F4A && byteAt bs 4 == 1 && zeroRange bs 5 3 && zeroRange bs 10 54 &&
    (List.range 16).all (fun j => recordOk ((bs.drop (64 + 256 * j)).take 256)) && bindingsOk (tableJobs bs)

/-! ### Other contents -/

/-- Content check of the group identity (R359); FLAGS of the header given. -/
def identityOk (flags : Nat) (bs : List Byte) : Bool :=
  let ndev := le bs 16 4
  let self_ := le bs 20 2
  let pair := byteAt bs 22
  let role := fun (p : Nat) => byteAt bs (24 + 8 * p)
  let kids := ([0, 1, 2, 3].filter (fun p => role p == 2)).map (fun p => (le bs (26 + 8 * p) 2, le bs (28 + 8 * p) 2))
  let sorted := kids.foldr (fun k l => (l.filter (fun x => decide (x.1 < k.1))) ++ [k] ++ l.filter (fun x => decide (k.1 ≤ x.1))) []
  let run := sorted.foldl (fun (a : Bool × Nat) k => (a.1 && k.1 == a.2 && decide (k.1 ≤ k.2), k.2 + 1)) (true, self_ + 1)
  let count := fun (r : Nat) => [0, 1, 2, 3].countP (fun p => role p == r)
  bs.length == 4096 && le bs 0 4 == 0x47525A48 && byteAt bs 4 == 1 && decide (byteAt bs 5 ≤ 1) && zeroRange bs 6 2 && le bs 8 4 != 0 &&
    zeroRange bs 14 2 && decide (1 ≤ ndev ∧ ndev ≤ 65536 ∧ self_ < ndev ∧ pair ≤ 7) && byteAt bs 23 == 0 && zeroRange bs 56 4040 &&
    [0, 1, 2, 3].all (fun p => decide (role p ≤ 3) && byteAt bs (25 + 8 * p) == 0 && (role p == 2 || zeroRange bs (26 + 8 * p) 4)) &&
    decide (count 1 ≤ 1) && (self_ == 0 || count 1 == 1) && run.1 && (count 3 == 0 || (ndev == 1 && count 3 == 1)) &&
    (pair.testBit 0 || !pair.testBit 1) && pair.testBit 1 == flags.testBit 2 && (!pair.testBit 0 || flags.testBit 1)

/-- Content check of the keys section (R444). -/
def keysOk (bs : List Byte) : Bool :=
  let n := byteAt bs 5
  decide (16 + 112 * n ≤ bs.length) && le bs 0 4 == 0x59554B48 && byteAt bs 4 == 1 && decide (n ≤ 8) && zeroRange bs 6 10 &&
    (List.range n).all (fun a => decide (byteAt bs (112 + 112 * a) ≤ 15) && zeroRange bs (113 + 112 * a) 15) &&
    zeroRange bs (16 + 112 * n) (bs.length - (16 + 112 * n))

/-- Content check of an LDPC graph record at an offset (R245). -/
def graphOk (bs : List Byte) (o : Nat) : Bool :=
  let r := bs.drop o
  let rows := byteAt r 0
  let cols := byteAt r 1
  let kb := byteAt r 2
  let nnz := le r 4 2
  let ent := (List.range nnz).map (fun i => le r (16 + 4 * i) 4)
  let key := fun (e : Nat) => bits e 0 7 * 128 + bits e 7 7
  let rising := (ent.zip (ent.drop 1)).all (fun p => decide (key p.1 < key p.2))
  decide (o + 16 + 4 * nnz ≤ bs.length) && decide (4 ≤ rows ∧ rows ≤ 64 ∧ 1 ≤ kb ∧ kb ≤ 24 ∧ cols = kb + rows ∧ cols ≤ 88 ∧ byteAt r 3 ≤ 4) &&
    decide (1 ≤ nnz ∧ nnz ≤ 1024 ∧ 1 ≤ byteAt r 10) && zeroRange r 11 5 && rising &&
    ent.all (fun e => decide (bits e 0 7 < rows ∧ bits e 7 7 < cols ∧ bits e 14 9 ≤ 383) && bits e 29 3 == 0) &&
    (List.range rows).all (fun i => let n := ent.countP (fun e => bits e 0 7 == i); decide (2 ≤ n ∧ n ≤ 32))

/-- Whether numbers form a permutation of 0 to n - 1. -/
def isPerm (n : Nat) (l : List Nat) : Bool := (List.range n).all (fun i => l.countP (fun x => x == i) == 1)

/-- Content check of the thresher tables (R245). -/
def thresherOk (bs : List Byte) : Bool :=
  let n := le bs 0 2
  let pol := le bs 4 4
  let edge := le bs 8 4
  decide (64 ≤ bs.length ∧ n ≤ 8) && zeroRange bs 2 2 && zeroRange bs 44 20 && decide (edge + 128 ≤ bs.length) &&
    (List.range 8).all (fun g => let o := le bs (12 + 4 * g) 4; if g < n then o != 0 && graphOk bs o else o == 0) &&
    (pol == 0 || (decide (pol + 2080 ≤ bs.length) && isPerm 1024 ((List.range 1024).map (fun i => le bs (pol + 2 * i) 2)) &&
      isPerm 32 ((List.range 32).map (fun i => byteAt bs (pol + 2048 + i)))))

/-- Content check of a model (R112): at most 8 outlier channels in each 256. -/
def modelOk (m : ModelInfo) : Bool :=
  m.layers.all (fun l => l.outliers.all (fun c => decide (l.outliers.countP (fun d => d / 256 == c / 256) ≤ 8)))

/-- Content check of a stream graph (R159): its own descriptors, and against its semaphore pairs those of the graphs loaded before (code 5). -/
def State.graphSectOk (s : State) (im : Image) (j : Nat) (g : GraphInfo) : Bool :=
  let s := { s with image := some { im with sections := im.sections ++ [(⟨4, BitVec.ofNat 16 j, [], .graph g⟩ : Section)] }, adopt := none, undo := none }
  let ch := (im.jobRec j).map (fun r => r.channels)
  g.descriptors.all (fun x => s.descLoad j ch g.descriptors x == 0) &&
    (List.range 16).all (fun k => k == j || (match s.graph k with
      | some h => h.descriptors.all (fun x => !s.semBad k (dWsem x.desc) && !s.semBad k (dPsem x.desc))
      | none => true))

/-- What the loader reads of a section beside its bytes, of the kind its type has (log 8). -/
def extraOf (typ : Nat) (x : SecExtra) : SecExtra :=
  match typ, x with
  | 0x04, .graph g => .graph g
  | 0x04, _ => .graph ⟨[], [], [], [], [], [], [], []⟩
  | 0x06, .model m => .model m
  | 0x06, _ => .model ⟨[], []⟩
  | _, _ => .plain

/-- Check 5 (R47, R58): a section's content, its parameters' single fields apart. -/
def State.contentOk (s : State) (im : Image) (typ tg : Nat) (bs : List Byte) (x : SecExtra) : Bool :=
  match typ with
  | 0x03 => programsOk bs
  | 0x04 => (match x with | .graph g => s.graphSectOk im tg g | _ => true)
  | 0x06 => (match x with | .model m => modelOk m | _ => true)
  | 0x07 => bs.length % 4 == 0 && paramShape bs.length bs
  | 0x08 => identityOk (im.hdr 12 4) bs
  | 0x09 => keysOk bs
  | 0x0A => thresherOk bs
  | 0x0B => jobTableOk bs
  | _ => true

/-- The key that decrypts sections in the present life-cycle state (R436); none once key RAM has been cleared (R449). -/
def State.imageKey (s : State) : Option (List Byte) :=
  if s.sec.keysGone then none else match s.fuses.life with
  | 0 | 3 => s.fuses.mik
  | 1 | 2 => s.fuses.oik
  | _ => none

/-- Checks 1 to 5 of section `i` (R47 step 5): the section, or the event of the failure. -/
def State.sectCheck (s : State) (im : Image) (i : Nat) (read : SecExtra) : Except ImgFail Section :=
  let bad := fun (c : Nat) => Except.error (0x0E02, im.slot.val + i <<< 16 + c <<< 32)
  let e := im.entry i
  let typ := byteAt e 12
  let tg := le e 14 2
  let stored := s.fl (s.slotBase im.slot + le e 0 4) (le e 4 4)
  if !im.entryOk i then bad 1
  else if Config.sha384 stored ≠ (e.drop 16).take 48 then bad 2
  else
    let plain := if (byteAt e 13).testBit 0 then
        (match s.imageKey with
         | some k => Config.gcmOpen k ((im.header.drop 32).take 8 ++ toLE 4 i) [] stored
         | none => none)
      else some stored
    match plain with
    | none => bad 3
    | some p =>
      match (if (byteAt e 13).testBit 1 then unpackTokens p.length (le e 8 4) p else some p) with
      | none => bad 4
      | some bs =>
        let x := extraOf typ read
        if !s.contentOk im typ tg bs x then bad 5
        else .ok ⟨BitVec.ofNat 8 typ, BitVec.ofNat 16 tg, bs, x⟩

/-- Whether a section type is one of those that R473 waits for. -/
def firstGroup (typ : Nat) : Bool := typ == 7 || typ == 8 || typ == 9 || typ == 0x0B

/-- The index of the section after which R473 is checked: the last of parameters, keys, job table and group identity; the first section when the image holds none of them. -/
def Image.crossIdx (im : Image) : Nat := (List.range im.count).foldl (fun m i => if firstGroup (byteAt (im.entry i) 12) then i else m) 0

/-- The index of an image's job table in its section table. -/
def Image.tableIdx (im : Image) : Nat := ((List.range im.count).find? (fun i => byteAt (im.entry i) 12 == 0x0B)).getD 0

/-- The jobs of an image's job table. -/
def Image.jobs (im : Image) : List (Nat × JobRec) :=
  match im.sections.find? (fun x => x.typ == 0x0B) with
  | some x => tableJobs x.bytes
  | none => []

/-- P_T of an image (R279): the parameters of TRAIN layers of the active models of roles 0 and 1. -/
def Image.trainCount (im : Image) : Nat :=
  ((im.sections.filter (fun x => x.typ == 6 && (x.target == 0 || x.target == 1))).map (fun x => match x.extra with
    | .model m => ((m.layers.filter (fun l => l.train)).map (fun l => l.codes.length)).sum
    | _ => 0)).sum

/-- The rule of R279 on the training job's granary space. -/
def Image.trainSpaceOk (im : Image) : Bool :=
  im.jobs.all (fun j => j.2.role != 3 ||
    decide (6 * im.trainCount ≤ ((bitsOn 24 j.2.channels.toNat).map (fun c => (channelBanks c).length * 0x40000)).sum))

/-- The rules of R321 that need the usable barn, in GiB. -/
def Image.barnRulesOk (im : Image) (gib : Nat) : Bool :=
  match im.sections.find? (fun x => x.typ == 0x0B) with
  | some x => barnOk im.jobs (le x.bytes 8 2) (gib * 1024)
  | none => true

/-- The event of a failed check 5 of the job table. -/
def Image.tableFail (im : Image) : ImgFail := (0x0E02, im.slot.val + im.tableIdx <<< 16 + 5 <<< 32)

/-- What one section adds: the registers after its parameters, the image with the section, or the event of the failure (R47 step 5, R473, R279, and R321 where the usable barn is known; log 37). -/
def State.addSection (s : State) (im : Image) (i : Nat) (read : SecExtra) : Except ImgFail (State × Image) :=
  match s.sectCheck im i read with
  | .error e => .error e
  | .ok x =>
    let im := { im with sections := im.sections ++ [x] }
    match (if x.typ = 7 then s.applyParams x.bytes.length x.bytes else .ok s) with
    | .error e => .error e
    | .ok s =>
      match (if i = im.crossIdx then s.crossCheck (im.jobs.any (fun j => j.2.role == 3)) else none) with
      | some e => .error e
      | none =>
        if x.typ = 0x0B && s.g Reg.BRN_CFG_USABLE != 0 && !im.barnRulesOk (s.g Reg.BRN_CFG_USABLE) then .error im.tableFail
        else if i + 1 = im.count && !im.trainSpaceOk then .error im.tableFail
        else .ok (s, im)

/-- The header and section table of a slot as read from flash. -/
def State.readHead (s : State) (k : Fin 2) : Image :=
  let h := s.fl (s.slotBase k) 256
  ⟨k, h, s.fl (s.slotBase k + 256) (64 * le h 6 2), []⟩

/-- Sections from `i` on added to an image; registers are a scratch copy. -/
def State.addSections (s : State) (im : Image) (i : Nat) (reads : List SecExtra) : Nat → Except ImgFail (State × Image)
  | 0 => .ok (s, im)
  | n + 1 =>
    match s.addSection im i (reads.getD i .plain) with
    | .error e => .error e
    | .ok (s, im) => s.addSections im (i + 1) reads n

/-- R47 steps 1 to 5 on a slot (SLOT_COMMIT, IMG_ADOPT): the image with the registers its parameters give over the factory defaults, or the event of the failure. -/
def State.checkSlot (s : State) (k : Fin 2) (reads : List SecExtra) : Except ImgFail (State × Image) :=
  let im := s.readHead k
  match s.headCheck k im.header im.table with
  | some e => .error e
  | none =>
    (s.resetRegs .img (fun _ => true)).addSections im 0 reads im.count

end Sys2Proof.Machine
end

