-- ==== Sys2Proof/Machine/Start.lean ====
section
/-!
DEFINITION. The start sequence (02, R39 to R57): self test, flash, slot choice and fallback, sections, memory test, barn, firmware start, confirmation.
-/
namespace Sys2Proof.Machine

open Sys2Proof (Byte Word SecExtra SfdpInfo BarnTrain)

/-! ### Ports and ring that an image sets up (R38, R56, R359, R379) -/

/-- What the group identity sets: port roles, own ID, the member set of itself alone (R369), and the pair role (R379). -/
def State.identityRegs (s : State) : State :=
  match s.groupSect with
  | none => s
  | some g =>
    let s := (List.range 4).foldl (fun t p => t.p (Reg.RZ_Pp_STS_ROLE p) (byteAt g (24 + 8 * p))) s
    let s := (s.p Reg.RZ_GRP_STS_SELF_ID (le g 20 2)).p Reg.RZ_PAIR_STS_ACTIVE (1 - bits s.pairByte 2 1)
    { s with grp := { s.grp with members := [le g 20 2] } }

/-- The ring base is set (R38, R56): the ring continues when it lay there before, and starts empty elsewhere; the old bank then loses its contents and waits for its own test. -/
def State.ringStart (s : State) : State :=
  let b := s.g Reg.SYS_EVR_BASE_BASE_BLK
  let s := s.p Reg.SYS_EVR_BASE_SET 1
  let s := match s.boot.ringKept with
    | none => s
    | some o =>
      if o = b then s
      else
        let s := (s.p Reg.SYS_EVR_WR_IDX 0).p Reg.SYS_EVR_RD_IDX 0
        let s := (s.dropBank (ringBankOf o)).zeroFill (grnBase + ringBankOf o * 0x40000) 0x40000
        { s with boot := { s.boot with oldBank := some (ringBankOf o) } }
  { s with boot := { s.boot with ringKept := s.boot.ringKept.filter (fun o => o == b) } }

/-- The event ring of a boot that falls back is kept for the next one while its bank is ON (R51, R56). -/
def State.ringBack (s : State) : Option Nat :=
  if s.on Reg.SYS_EVR_BASE_SET && s.bank (ringBankOf (s.g Reg.SYS_EVR_BASE_BASE_BLK)) == 1 then some (s.g Reg.SYS_EVR_BASE_BASE_BLK) else s.boot.ringKept

/-- What follows once the image's parameters are in force: PWR_CAP takes CAP_INIT, the ceilings their MAX values, and the ring is in use (R38, R406, R407). -/
def State.paramsInForce (s : State) : State :=
  let s := s.p Reg.PWR_CAP (s.g Reg.PWR_CAP_CFG_CAP_INIT)
  let s := ((s.p Reg.PWR_CEIL_AR_CEIL (s.g Reg.PWR_ISL_CFG_AR_MAX)).p Reg.PWR_CEIL_LN_CEIL (s.g Reg.PWR_ISL_CFG_LN_MAX)).p
    Reg.PWR_CEIL_FB_CEIL (s.g Reg.PWR_ISL_CFG_FB_MAX)
  let s := (s.p Reg.PWR_STS_CMP_CEIL (max (s.g Reg.PWR_ISL_CFG_AR_MAX) (s.g Reg.PWR_ISL_CFG_LN_MAX))).p
    Reg.PWR_STS_FB_CEIL (s.g Reg.PWR_ISL_CFG_FB_MAX)
  (s.setCap.ringStart).flushHold

/-! ### Slot choice and fallback (R51, R53) -/

/-- A boot of a slot starts: IMG fields at their defaults, header and table read and checked (R47, R48, R51). The answer is the code of the event of a failed header. IMG_SLOT_STS shows the slot as the running one from here on, before its image runs (DESIGN CHOICE, log 37). -/
def State.bootSlot (s : State) (k : Fin 2) : State × Option Nat :=
  let s := { s with boot := { s.boot with ringKept := s.ringBack } }
  let s := (s.resetRegs .img (fun _ => true)).recordFronds
  let s := (s.p Reg.IMG_SLOT_STS_RUN_VALID 1).p Reg.IMG_SLOT_STS_RUN_SLOT k.val
  let im := s.readHead k
  let s := { s with image := some im, boot := { s.boot with loaded := 0, bootSlot := k, dirOk := true }, grp := Grp.reset, trn := { s.trn with heldBase := s.trn.heldSeq } }
  match s.headCheck k im.header im.table with
  | some e => (s.ev e.1 0x02 e.2, some e.1)
  | none =>
    if (im.hdr 12 4).testBit 2 && !s.fuses.pair then (((s.ev 0x0E04 0x02 k.val).markSlot k 4).enterSafe 0x04, none)
    else (s, none)

/-- try_other of R51: the other slot boots once, or SAFE is entered with the code of the event that led here. -/
def State.tryOther (s : State) (k : Fin 2) (code : Nat) : State :=
  if s.boot.second then s.enterSafe (code % 256)
  else if s.slotState k = 3 ∨ s.slotState k = 1 then
    let s := if s.slotState k = 1 then s.markSlot k 2 else s
    let s := { (s.ev 0x0E05 0x02 k.val) with boot := { s.boot with second := true } }
    match s.bootSlot k with
    | (t, none) => t
    | (t, some c) => (t.markSlot k 4).enterSafe (c % 256)
  else s.enterSafe (code % 256)

/-- SLOT_FALLBACK (R51): the slot that is booting has failed a check. -/
def State.bootFail (s : State) (code : Nat) : State := (s.markSlot s.boot.bootSlot 4).tryOther (otherSlot s.boot.bootSlot) code

/-- A slot boots; a failed header falls back. -/
def State.bootFirst (s : State) (k : Fin 2) : State :=
  match s.bootSlot k with
  | (t, none) => t
  | (t, some c) => t.bootFail c

/-- SLOT_CHOICE (R51). -/
def State.slotChoice (s : State) : State :=
  let p := s.prefSlot
  match s.slotState p with
  | 1 => (s.markSlot p 2).bootFirst p
  | 2 => (s.markSlot p 4).tryOther (otherSlot p) 0
  | 3 => s.bootFirst p
  | _ => s.tryOther (otherSlot p) 0

/-! ### Banks named by the image (R56, R57) -/

/-- The granary banks that the image names: those of its jobs' channels, the ring's and the semaphore table's (R57 does not say which it means; DESIGN CHOICE, log 37). -/
def State.namedBanks (s : State) (im : Image) : List Nat :=
  (List.range 1024).filter (fun b => s.sysBank b || im.jobs.any (fun j => j.2.channels.getLsbD (bankChannel b)))

/-- Banks after load (R56): those named are ON, the others off. -/
def State.imageBanks (s : State) (named : List Nat) : State :=
  (List.range 1024).foldl (fun t b =>
    if t.bank b = 3 then t
    else if named.contains b then (if t.bank b = 0 then t.setBank b 1 else t)
    else if t.bank b = 0 then t else t.setBank b 0) s

/-- Checks that wait for two things at once: masked banks (the memory test and the first sections, R57) and the barn rules of R321 (barn training and the job table). A failing bank is charged to the job table's section, which names the channels (DESIGN CHOICE, log 37). -/
def State.startGates (s : State) : State :=
  match s.image with
  | none => s
  | some im =>
    if s.boot.phase ≠ .starting then s
    else if s.boot.barnOk && decide (s.boot.loaded > im.tableIdx) && !im.barnRulesOk (s.g Reg.BRN_CFG_USABLE) then
      (s.ev im.tableFail.1 0x02 im.tableFail.2).bootFail im.tableFail.1
    else if s.boot.memOk && s.boot.oldBank.isNone && decide (s.boot.loaded > im.crossIdx) then
      let named := s.namedBanks im
      if named.any (fun b => s.bank b == 3) then
        (s.ev 0x0E02 0x02 (im.slot.val + im.tableIdx <<< 16 + 6 <<< 32)).tryOther (otherSlot im.slot) 0x02
      else (s.imageBanks named).flushHold
    else s

/-! ### The steps -/

/-- SECURITY_SELFTEST_DONE (R55): known-answer tests and the entropy health test; 0 is a pass, else the code of the test that failed. -/
def execSecuritySelftestDone (result : Fin 5) (s : State) : Host.Outcome State Fault Refusal :=
  act (fun s =>
    if s.boot.phase ≠ .starting then s
    else if result = 0 then { s with boot := { s.boot with selfOk := true } }
    else (s.ev 0x0E08 0x01 result.val).enterSafe 0x08) s

/-- Whether a flash is one that the device supports (R39, R430). -/
def sfdpOk (i : SfdpInfo) : Bool := (i.mbit == 512 || i.mbit == 1024 || i.mbit == 2048 || i.mbit == 4096) && i.erase4k

/-- No flash, or one that the device does not support (R39): no slot can be opened (R63), and a start ends in SAFE. -/
def State.noFlash (s : State) (sizeField : Nat) : State :=
  let s := { s with flashSize := 0, boot := { s.boot with flashOk := false } }
  if s.boot.phase = .safe then s else (s.ev 0x0E0A 0x02 sizeField).enterSafe 0x0A

/-- FLASH_SFDP_READ (R39): the size is taken and the regions follow from it, or the device enters SAFE. -/
def execFlashSfdpRead (info : Option SfdpInfo) (s : State) : Host.Outcome State Fault Refusal :=
  act (fun s =>
    if s.boot.phase ≠ .starting ∧ s.boot.phase ≠ .safe then s
    else match info with
      | some i =>
        if sfdpOk i then { s with flashSize := i.mbit * 131072, boot := { s.boot with flashOk := true } }
        else s.noFlash i.sizeField.toNat
      | none => s.noFlash 0) s

/-- DIRECTORY_READ (R40, R51): the directory in force is shown; at start the slot is chosen from it. -/
def execDirectoryRead (s : State) : Host.Outcome State Fault Refusal :=
  act (fun s =>
    if !s.boot.flashOk then s
    else if s.boot.phase = .safe then s.dirShow
    else if s.boot.phase = .starting ∧ s.boot.selfOk = true ∧ s.boot.dirOk = false then s.dirShow.slotChoice
    else s) s

/-- One section loaded into the image that is booting (R47 step 5). -/
def State.loadSection (s : State) (im : Image) (read : SecExtra) : State :=
  let i := s.boot.loaded
  match s.addSection im i read with
  | .error e => (s.ev e.1 0x02 e.2).bootFail e.1
  | .ok (t, im') =>
    let t := { t with image := some im', boot := { t.boot with loaded := i + 1 } }
    let typ := byteAt (im.entry i) 12
    let t := if typ = 8 then t.identityRegs else t
    let none7 := !((List.range im.count).any (fun k => byteAt (im.entry k) 12 == 7))
    let t := if typ = 7 ∨ (none7 = true ∧ i = im.crossIdx) then t.paramsInForce else t
    t.startGates

/-- SECTION_LOADED (R47, R49, R473): the next section of the table, with what the loader reads of it (log 8). -/
def execSectionLoaded (read : SecExtra) (s : State) : Host.Outcome State Fault Refusal :=
  act (fun s =>
    match s.image with
    | none => s
    | some im => if s.boot.phase = .starting ∧ s.boot.loaded < im.count then s.loadSection im read else s) s

/-- A bank that fails the memory test is replaced, or masked when no spare is left (R57). -/
def State.startBank (s : State) (b : Nat) : State :=
  if s.bank b = 3 then s
  else match s.freeSpare with
    | some k => (s.useSpare k b).retire (locCode 1 15 b) 5 3
    | none => (s.setBank b 3).retire (locCode 1 15 b) 6 3

/-- MEMORY_TEST_DONE (R56, R57): failing banks and leaf stores; the bank kept over a WARM is not tested, and one that a new ring base gives up is tested as any other, by itself when the others have been. -/
def execMemoryTestDone (bad : List (Fin 1024)) (badLeaf : List (Fin 6)) (s : State) : Host.Outcome State Fault Refusal :=
  act (fun s =>
    if s.boot.phase ≠ .starting then s
    else if s.boot.memOk then
      match s.boot.oldBank with
      | none => s
      | some o =>
        let s := if bad.any (fun b => b.val == o) then s.startBank o else s
        ({ s with boot := { s.boot with oldBank := none } }).startGates
    else
      let kept := s.boot.ringKept.map ringBankOf
      let s := (bad.eraseDups.filter (fun b => kept != some b.val)).foldl (fun t b => t.startBank b.val) s
      let s := badLeaf.eraseDups.foldl (fun t f => t.retireFrond f.val (locCode 2 f.val 0) 3) s
      ({ s with boot := { s.boot with memOk := true, oldBank := none } }).startGates) s

/-- GiB of a part that the barn supports (R314). -/
def barnPart (n : Nat) : Bool := n == 4 || n == 8 || n == 16 || n == 32

/-- BARN_TRAINING_DONE (R314, R315). -/
def execBarnTrainingDone (result : BarnTrain) (s : State) : Host.Outcome State Fault Refusal :=
  act (fun s =>
    if s.boot.phase ≠ .starting ∨ s.boot.barnOk = true then s
    else if result.ok && result.gib0 == result.gib1 && barnPart result.gib0 then
      let n := 2 * result.gib0
      let s := (s.p Reg.BRN_CFG_FITTED n).p Reg.BRN_CFG_USABLE (n * 7 / 8)
      ({ s with boot := { s.boot with barnOk := true } }).startGates
    else
      let g := if result.chan = 0 then result.gib0 else result.gib1
      (s.ev 0x0602 0x0A (result.chan.val + (g % 256) <<< 8)).enterSafe 0x02) s

/-- A job of the table is bound (R317, R322, R330): without its retired fronds, and FAILED when fewer than FROND_MIN remain. -/
def State.bindJob (s : State) (j : Nat) (r : JobRec) : State :=
  let left := r.fronds &&& ~~~(BitVec.ofNat 6 (s.g Reg.FLT_STS_FROND_RET))
  let s := (s.setBind j { r with fronds := left }).setJst j 1
  if popCount 6 left.toNat < r.frondMin then s.failJob j 2 else s

/-- The slice rings of the background jobs (R326): each starts with its lowest job that can run, the others SLICED_OUT. -/
def State.makeRings (s : State) : State :=
  let bg := s.jobNums.filter (fun j => (s.job j).bind.kind)
  bg.foldl (fun t j =>
    if t.jst j ≠ 1 then t
    else
      let fr := (t.job j).bind.fronds
      if t.rings.any (fun r => r.fronds == fr) then t.setJst j 2
      else { t with rings := t.rings ++ [(⟨fr, j, (s.dom .a).nanos, none, false⟩ : Ring)] }) { s with rings := [] }

/-- The loader's copies of the image's sections other than models (R320), one after another from the base of the loader area, the top 256 MiB of the usable barn, each from a multiple of 64 bytes on (DESIGN CHOICE, log 37). -/
def State.loaderCopies (s : State) (im : Image) : State :=
  ((im.sections.filter (fun x => x.typ != 6)).foldl (fun (e : State × Nat) x =>
    (e.1.loftStore none (brnBase + e.2) x.bytes, e.2 + 64 * ceilDiv x.bytes.length 64)) (s, s.barnBytes - 0x10000000)).1

/-- FIRMWARE_START (R55): the journal is applied, jobs are bound, the fronds start from JOB-reset state, models are placed and the persisted set restored over them, its edge-class table included (R291). -/
def execFirmwareStart (s : State) : Host.Outcome State Fault Refusal :=
  act (fun s =>
    match s.image with
    | none => s
    | some im =>
      if s.boot.phase = .starting ∧ s.boot.loaded = im.count ∧ s.boot.dirOk = true ∧ s.boot.memOk = true ∧ s.boot.barnOk = true then
        let s := s.journalReplay.recordFronds
        let s := im.jobs.foldl (fun t j => t.bindJob j.1 j.2) s
        let s := s.makeRings
        let s := { s with boot := { s.boot with phase := .started, runAt := s.ticks } }
        let s := s.jobNums.foldl (fun t j => ((t.heldFronds j).foldl (fun u f => u.resetFrond j f) t).startJob j) s
        let s := ((s.loaderCopies im).placeModels).restoreSet
        let s := match s.roleJob 1 with | some j => (s.heldFronds j).foldl (fun (t : State) f => t.loadEdges f) s | none => s
        if (s.roleJob 3).isSome then ({ s with trn := { s.trn with persistAt := s.ticks } }).trnResume else { s with trn := { s.trn with persistAt := s.ticks } }
      else s) s

/-- IMAGE_CONFIRM (R52, R439, R440): after 10 s in RUN the slot is GOOD and preferred, and the anti-rollback counter advances, at once or when fuses may be written. -/
def execImageConfirm (blown : Nat) (s : State) : Host.Outcome State Fault Refusal :=
  act (fun s =>
    match s.image with
    | none => s
    | some im =>
      if s.boot.phase = .started ∧ s.g Reg.PWR_STS_STATE = 0 ∧ s.boot.confirmed = false ∧ s.boot.runAt + 10000000000 ≤ s.ticks then
        let s := ({ s with boot := { s.boot with confirmed := true } }).markPrefer im.slot 3
        if im.hdr 16 4 > s.fuses.arb then (if s.canFuse then s.arbAdvance blown else s.fuseWait .arb) else s
      else s) s

end Sys2Proof.Machine
end

