-- ==== Sys2Proof/Machine/Group.lean ====
section
/-!
DEFINITION. Membership of a group (13 R363 to R369, R377): BEACON, the leader and its change, admission, fencing, and the member set at slot edges. Payload layouts are the model's (log 28).
-/
namespace Sys2Proof.Machine

open Sys2Proof (Byte Word RzFrame)

/-! ### What a device says of itself (R365) -/

/-- IMGD: first 16 bytes of SHA-384 over the DIGEST fields of the sections but the group identity, in table order. -/
def Image.imgd (im : Image) : List Byte :=
  (Config.sha384 ((List.range (im.hdr 6 2)).flatMap (fun i =>
    let e := (im.table.drop (64 * i)).take 64
    if byteAt e 12 = 8 then [] else (e.drop 16).take 48))).take 16

/-- Whether a group-bound job is not RUNNING; a restart made by an adoption does not count (R368). -/
def State.gjobDown (s : State) (j : Nat) : Bool :=
  s.gjobs.testBit j && s.jst j != 1 && !(match (s.job j).restart with | some r => r.adopt | none => false)

/-- STATE of the record (R365): the power state, and whether every group-bound job is RUNNING. -/
def State.grpState (s : State) : Nat := s.g Reg.PWR_STS_STATE + b2n (!(List.range 16).any (fun j => s.gjobDown j)) <<< 2

/-- PTP domain number that the group domain follows. -/
def State.tdid (s : State) : Nat := s.g (Reg.TIME_d_CFG_PTPDOM (domNo s.groupDom))

/-- The image that the digest record describes: the one in force, or from the boundary of an adoption on the new one (R69, R365). -/
def State.digestImage (s : State) : Option Image :=
  match s.adopt with
  | some a => if a.started then some a.image else s.image
  | none => s.image

/-- The 32-byte digest record (R365). -/
def State.record (s : State) : List Byte :=
  (match s.digestImage with | some im => (im.imgd ++ zeros 16).take 16 | none => zeros 16) ++ toLE 4 s.groupId ++
    toLE 4 (match s.digestImage with | some im => im.hdr 20 4 | none => 0) ++ [BitVec.ofNat 8 (b2n s.det), BitVec.ofNat 8 s.tdid, BitVec.ofNat 8 s.grpState, 0] ++
    toLE 4 (s.g Reg.RZ_GRP_OFS)

/-- 50 ns in 1/16 ns (R366, R368). -/
def ofsFar (r : List Byte) : Bool := decide (800 < (sx 32 (le r 28 4)).natAbs)

/-- The fields of a record that fail against the leader's own, as the mask of EV_GRP_REFUSED (R366, R381); `m` is the member count. -/
def State.failMask (s : State) (r : List Byte) (m : Nat) : Nat :=
  let own := s.record
  let ne := fun (o n : Nat) => b2n ((r.drop o).take n != (own.drop o).take n)
  ne 0 16 + ne 16 4 <<< 1 + ne 20 4 <<< 2 + ne 24 1 <<< 3 + ne 25 1 <<< 4 + b2n (ofsFar r) <<< 5 + b2n (byteAt r 26 != 4) <<< 6 +
    b2n (!s.det && decide (64 ≤ m)) <<< 7

/-! ### Member sets (R367, R370) -/

/-- Whether this device leads. -/
def State.leads (s : State) : Bool := s.g Reg.RZ_GRP_STS_ROLE == 2

/-- Members of the set in force; a device outside is alone (R369). -/
def State.memberList (s : State) : List Nat := if s.isMember then s.grp.members else [s.selfId]

/-- A list of IDs with others put in, ascending. -/
def addIds (l add : List Nat) : List Nat := add.foldl (fun a x => if a.contains x then a else a.takeWhile (fun y => decide (y < x)) ++ x :: a.dropWhile (fun y => decide (y < x))) l

/-- The member set once the changes that wait have taken effect. -/
def State.nextMembers (s : State) : List Nat :=
  s.grp.edges.foldl (fun (l : List Nat) (e : MemEdge) => (addIds l e.joins).filter (fun x => !e.fence.any (fun (f : Nat × Nat) => f.1 == x))) s.grp.members

/-- The registers that show the set (R381): M, the own rank, the leader. -/
def State.showGroup (s : State) : State :=
  let l := s.memberList
  (s.p Reg.RZ_GRP_M l.length).p Reg.RZ_GRP_LEAD_RANK (if s.isMember then l.idxOf s.selfId else 0)

/-- A change of leader (R364): EV_GRP_LEADER. -/
def State.newLeader (s : State) (lead : Nat) : State :=
  (s.p Reg.RZ_GRP_LEAD_LEADER lead).ev 0x0904 0x08 (lead + b2n (lead == s.selfId) <<< 16 + s.memberList.length <<< 32)

/-- Slot index of an instant in the receive job's slot timing in the group domain (R367). -/
def State.groupIdx (s : State) (t : Nat) : Nat := s.slotIdxAt s.groupDom (s.g Reg.JOB_RX_CFG_SCS) t

/-- The first slot start edge at or after an instant in the receive job's slot timing in the group domain (R367). -/
def State.groupEdge (s : State) (t : Nat) : Nat :=
  let d := s.groupDom
  let scs := s.g Reg.JOB_RX_CFG_SCS
  if s.isEdge d scs t then t else s.edgeAfter d scs t

/-- The version that an edge brings (R367): one more at each edge. -/
def State.edgeVersion (s : State) (sec ns : Nat) : Nat :=
  match s.grp.edges.getLast? with
  | some e => if e.sec = sec ∧ e.ns = ns then e.version else e.version + 1
  | none => s.grp.version + 1

/-- A list in pieces of at most `n`. -/
def pieces {α : Type} (n : Nat) : Nat → List α → List (List α)
  | 0, _ => []
  | fuel + 1, l => if l.length ≤ n then [l] else l.take n :: pieces n fuel (l.drop n)

/-- Payload of a MEMBERSHIP (log 28): edge, version, leader, counts, admitted IDs, fenced IDs with their cause. -/
def memPayload (e : MemEdge) (fence : List (Nat × Nat)) : List Byte :=
  toLE 8 e.sec ++ toLE 4 e.ns ++ toLE 4 e.version ++ toLE 2 e.leader ++ toLE 2 e.joins.length ++ toLE 2 fence.length ++
    e.joins.flatMap (fun i => toLE 2 i) ++ fence.flatMap (fun f => toLE 2 f.1 ++ toLE 1 f.2)

/-- The change that a MEMBERSHIP payload names. -/
def memOf (p : List Byte) : MemEdge :=
  let a := le p 18 2
  { sec := le p 0 8, ns := le p 8 4, joins := (List.range a).map (fun i => le p (22 + 2 * i) 2),
    fence := (List.range (le p 20 2)).map (fun i => (le p (22 + 2 * a + 3 * i) 2, byteAt p (24 + 2 * a + 3 * i))),
    version := le p 12 4, leader := le p 16 2 }

/-- The leader broadcasts a MEMBERSHIP and takes the change itself (R367); its edge is the first slot start edge at least 40 µs ahead. The leader from the edge is the lowest ID of the new set (R364), unless one is named. -/
def State.sendMembership (s : State) (joins : List Nat) (fence : List (Nat × Nat)) (lead : Option Nat) : State :=
  let t := s.groupEdge ((s.dom s.groupDom).nanos + 40000)
  let left := (addIds s.nextMembers joins).filter (fun x => !fence.any (fun (f : Nat × Nat) => f.1 == x))
  let leader := lead.getD (left.headD s.selfId)
  let e : MemEdge := ⟨t / 1000000000, t % 1000000000, joins, fence, s.edgeVersion (t / 1000000000) (t % 1000000000), leader⟩
  let s := { s with grp := { s.grp with edges := s.grp.edges ++ [e] } }
  (pieces 2000 (fence.length + 1) fence).foldl (fun t l => t.rzCast 0x14 0 (memPayload e l)) s

/-- The leader fences members that no waiting change fences yet (R368). -/
def State.fenceIds (s : State) (l : List (Nat × Nat)) : State :=
  let new := l.filter (fun (f : Nat × Nat) => s.nextMembers.contains f.1)
  if new.isEmpty then s else s.sendMembership [] new none

/-- FENCE_REQ, or the same at the leader itself (R368). -/
def State.fenceReq (s : State) (cause : Nat) : State :=
  if s.leads then s.fenceIds [(s.selfId, cause)]
  else if s.isMember then s.rzSend 0x15 16 (s.g Reg.RZ_GRP_LEAD_LEADER) 0 (toLE 1 cause)
  else s

/-- A member that finds its own offset too large or its STATE changed asks to be fenced (R368). -/
def State.selfCheck (s : State) : State :=
  if !s.isMember then s
  else if ofsFar s.record then s.fenceReq 1
  else if s.grpState ≠ 4 then s.fenceReq 2
  else s

/-- A member leaves the group at a re-binding of a group-bound job (R377, R369): it tells the leader and runs alone; EV_GRP_FENCED with the cause. -/
def State.fenceSelf (s : State) (cause : Nat) : State :=
  let id := s.selfId
  let s := s.fenceReq cause
  let idx := s.groupIdx (s.dom s.groupDom).nanos
  let s := { s.p Reg.RZ_GRP_STS_ROLE 0 with grp := { s.grp with members := [id] } }
  s.showGroup.ev 0x0902 0x08 (id + cause <<< 16 + idx <<< 32)

/-! ### Membership edges (R367, R368) -/

/-- One change takes effect at its edge, the start of the slot `idx`: the set, the version and the leader change; a fenced device and the leader raise EV_GRP_FENCED. -/
def State.memberEdge (s : State) (idx : Nat) (e : MemEdge) : State :=
  let self := s.selfId
  let was := s.isMember
  let led := s.leads
  let admitted := e.joins.contains self
  let fenced := e.fence.find? (fun (f : Nat × Nat) => f.1 == self)
  let base := if was then s.grp.members else if admitted then s.grp.joinSet else []
  let set := (addIds base e.joins).filter (fun x => !e.fence.any (fun (f : Nat × Nat) => f.1 == x))
  let inside := (was || admitted) && fenced.isNone
  let tell := e.fence.filter (fun (f : Nat × Nat) => (led && s.grp.members.contains f.1) || (was && f.1 == self))
  let s := { s with grp := { s.grp with members := if inside then set else [self], version := e.version } }
  let s := (s.p Reg.RZ_GRP_STS_ROLE (if inside then (if e.leader = self then 2 else 1) else 0)).showGroup
  let s := tell.foldl (fun t (f : Nat × Nat) => t.ev 0x0902 0x08 (f.1 + f.2 <<< 16 + idx <<< 32)) s
  if s.g Reg.RZ_GRP_LEAD_LEADER = e.leader then s else s.newLeader e.leader

/-- MEMBERSHIP_EDGE (R367): the changes whose edge has come take effect, in order; the set in force from this slot on is kept for its reductions and barriers; what is left of operations of slots long past is forgotten. -/
def State.memberEdges (s : State) (t : Nat) : State :=
  let idx := s.groupIdx t
  let due := s.grp.edges.filter (fun (e : MemEdge) => decide (e.sec * 1000000000 + e.ns ≤ t))
  let s := { s with grp := { s.grp with edges := s.grp.edges.filter (fun (e : MemEdge) => !decide (e.sec * 1000000000 + e.ns ≤ t)) } }
  let s := due.foldl (fun t e => t.memberEdge idx e) s
  let sets := (s.grp.sets ++ [(idx, if s.isMember then s.grp.members else [])])
  let n := 1024 * spf (s.g Reg.JOB_RX_CFG_SCS)
  let stale := fun (o : GrpOp) => o.frond.isNone && decide (16 ≤ (idx + n - o.slot % n) % n ∧ (idx + n - o.slot % n) % n < n / 2)
  { s with grp := { s.grp with sets := sets.drop (sets.length - 16), ops := s.grp.ops.filter (fun o => !stale o) } }

/-- The member set of a slot (R367); empty: the device ran alone (R369). -/
def State.setOf (s : State) (idx : Nat) : List Nat :=
  match s.grp.sets.find? (fun (e : Nat × List Nat) => e.1 == idx) with
  | some e => e.2
  | none => if s.isMember then s.grp.members else []

/-! ### BEACON and the leader (R363, R364) -/

/-- BEACON_TIMER (R363): the leader broadcasts its time, the membership version, M and a CORR of 0. -/
def execBeaconTimer (s : State) : Host.Outcome State Fault Refusal :=
  act (fun s => if s.leads then s.rzCast 0x10 0 (zeros 14 ++ toLE 4 s.grp.version ++ toLE 4 s.grp.members.length ++ zeros 4) else s) s

/-- The offset to the leader in 1/16 ns (R363): time of arrival − (leader time + CORR), held within 32 bits (log 28). -/
def State.offsetOf (s : State) (p : List Byte) : Nat :=
  toBits 32 (satS 32 (rneDivI (fullUnits (s.dom s.groupDom).full - (timeUnits p 0 + 1024 * le p 22 4)) 4096))

/-- BEACON (R363, R364, R368): every device computes its offset to its leader; a leader that hears a lower one fences its whole group and applies to it; a member whose offset is too large or whose STATE has changed asks to be fenced. -/
def execBeacon (fr : RzFrame) (s : State) : Host.Outcome State Fault Refusal :=
  act (fun s => s.rzReceive fr 0x10 (fun s =>
    let src := fr.src.toNat
    if s.leads then
      let s := if src < s.selfId then { s with grp := { s.grp with beaconAt := s.ticks + 1 } } else s
      (if src < s.selfId ∧ s.grp.edges.all (fun (e : MemEdge) => e.leader != src) = true then
        s.sendMembership [] (s.nextMembers.map (fun i => (i, 5))) (some src) else s)
    else if s.isMember && src != s.g Reg.RZ_GRP_LEAD_LEADER then s
    else
      let s := if s.grp.beaconAt = 0 ∨ src ≠ s.g Reg.RZ_GRP_LEAD_LEADER then s.newLeader src else s
      let s := { s with grp := { s.grp with beaconAt := s.ticks + 1 } }
      (s.p Reg.RZ_GRP_OFS (s.offsetOf fr.payload)).selfCheck)) s

/-- Whether no BEACON has been heard for the time of R364: 1 s outside a group, (r + 1) × 300 ms for the member of rank r. -/
def State.beaconLost (s : State) : Bool :=
  decide (s.grp.beaconAt - 1 + (if s.isMember then (s.grp.members.idxOf s.selfId + 1) * 300000000 else 1000000000) ≤ s.ticks)

/-- BEACON_TIMEOUT (R364): no BEACON for the time of R364. Outside a group, a device with valid time founds one; the member of rank r becomes leader and fences every member of lower rank. -/
def execBeaconTimeout (s : State) : Host.Outcome State Fault Refusal :=
  act (fun s =>
    if !s.inRun || s.groupSect.isNone || s.leads || !s.valid s.groupDom || !s.beaconLost then s
    else
      let self := s.selfId
      let lower := if s.isMember then s.grp.members.filter (fun i => decide (i < self)) else []
      let s := if s.isMember then s else { s with grp := { s.grp with members := [self], version := s.grp.version + 1, edges := [] } }
      let s := ((s.p Reg.RZ_GRP_STS_ROLE 2).p Reg.RZ_GRP_OFS 0).showGroup.newLeader self
      s.fenceIds (lower.map (fun i => (i, 5)))) s

/-- A leader that loses valid time fences itself; the member of rank 1 leads from the edge (R364). -/
def State.leaderTimeLost (s : State) : State :=
  if s.leads && !s.valid s.groupDom then s.fenceIds [(s.selfId, 5)] else s

/-! ### Admission (R366) -/

/-- JOIN_RETRY (R366): a device outside that holds valid time sends JOIN with its record to the leader it has heard. -/
def execJoinRetry (s : State) : Host.Outcome State Fault Refusal :=
  act (fun s =>
    if s.boot.phase ≠ .started ∨ s.isMember = true ∨ s.groupSect = none ∨ s.valid s.groupDom = false ∨ s.grp.beaconAt = 0 then s
    else s.rzSend 0x11 16 (s.g Reg.RZ_GRP_LEAD_LEADER) 0 s.record) s

/-- A member set as a bit for each device of the topology (log 28). -/
def setBytes (ndev : Nat) (l : List Nat) : List Byte :=
  toLE (ceilDiv ndev 8) (maskOf l)

/-- JOIN (R366): the leader compares the record with its own and answers REFUSE with the failing fields, or admits the device: MEMBERSHIP, ADMIT, EV_GRP_ADMITTED. -/
def execJoin (fr : RzFrame) (s : State) : Host.Outcome State Fault Refusal :=
  act (fun s => s.rzReceive fr 0x11 (fun s =>
    if !s.leads then s
    else
      let id := fr.src.toNat
      let mask := s.failMask fr.payload s.nextMembers.length
      if mask ≠ 0 then s.rzSend 0x13 16 id 0 (toLE 1 mask)
      else
        let s := s.sendMembership [id] [] none
        let set := s.nextMembers
        let v := match s.grp.edges.getLast? with | some e => e.version | none => s.grp.version
        let s := s.rzSend 0x12 16 id v (setBytes (le s.ident 16 4) set)
        s.ev 0x0903 0x08 (id + set.length <<< 32))) s

/-- ADMIT (R366): the device learns that it is admitted, and the member set that holds from the edge (log 28). -/
def execAdmitFrame (fr : RzFrame) (s : State) : Host.Outcome State Fault Refusal :=
  act (fun s => s.rzReceive fr 0x12 (fun s =>
    let set := bitsOn (8 * fr.payload.length) (leOf fr.payload)
    if s.isMember then ({ s with grp := { s.grp with members := addIds s.grp.members set } }).showGroup
    else { s with grp := { s.grp with joinSet := set } })) s

/-- REFUSE (R366): EV_GRP_REFUSED with the mask of failing fields and the leader's ID. -/
def execRefuse (fr : RzFrame) (s : State) : Host.Outcome State Fault Refusal :=
  act (fun s => s.rzReceive fr 0x13 (fun s => s.ev 0x0901 0x08 (byteAt fr.payload 0 + fr.src.toNat <<< 16))) s

/-- MEMBERSHIP (R367): the change waits for its edge at every device; one whose edge has passed takes effect at once (log 28). -/
def execMembership (fr : RzFrame) (s : State) : Host.Outcome State Fault Refusal :=
  act (fun s => s.rzReceive fr 0x14 (fun s =>
    let e := memOf fr.payload
    let now := (s.dom s.groupDom).nanos
    if e.sec * 1000000000 + e.ns ≤ now then s.memberEdge (s.groupIdx (e.sec * 1000000000 + e.ns)) e
    else { s with grp := { s.grp with edges := s.grp.edges ++ [e] } })) s

/-! ### Fencing (R368) -/

/-- FENCE_REQ (R368): the leader fences the member that asks, with the cause it gives. -/
def execFenceReq (fr : RzFrame) (s : State) : Host.Outcome State Fault Refusal :=
  act (fun s => s.rzReceive fr 0x15 (fun s => if s.leads then s.fenceIds [(fr.src.toNat, byteAt fr.payload 0)] else s)) s

/-- DIGEST (R368, R377): the leader compares a member's record with its own and fences it on a difference. -/
def execDigest (fr : RzFrame) (s : State) : Host.Outcome State Fault Refusal :=
  act (fun s => s.rzReceive fr 0x16 (fun s =>
    let id := fr.src.toNat
    if !s.leads || !s.grp.members.contains id then s
    else
      let ds := s.grp.digests.filter (fun (d : Nat × Bool × Nat) => d.1 != id)
      let s := { s with grp := { s.grp with digests := ds ++ [(id, true, 0)] } }
      let mask := s.failMask fr.payload 0
      if mask % 32 ≠ 0 then s.fenceIds [(id, 3)]
      else if mask.testBit 5 then s.fenceIds [(id, 1)]
      else if mask.testBit 6 then s.fenceIds [(id, 2)]
      else s)) s

/-- Digests missing in a row of each member but the leader itself (R368). -/
def State.digestCount (s : State) : List (Nat × Bool × Nat) :=
  (s.grp.members.filter (fun i => i != s.selfId)).map (fun i =>
    match s.grp.digests.find? (fun (d : Nat × Bool × Nat) => d.1 == i) with
    | some d => if d.2.1 then (i, false, 0) else (i, false, d.2.2 + 1)
    | none => (i, false, 1))

/-- DIGEST_TIMER (R368): a member checks itself and sends its DIGEST; the leader fences members of whom two in a row have failed to arrive. -/
def execDigestTimer (s : State) : Host.Outcome State Fault Refusal :=
  act (fun s =>
    if s.leads then
      let ds := s.digestCount
      let s := { s with grp := { s.grp with digests := ds } }
      (s.fenceIds ((ds.filter (fun (d : Nat × Bool × Nat) => decide (2 ≤ d.2.2))).map (fun (d : Nat × Bool × Nat) => (d.1, 4)))).selfCheck
    else if s.isMember then (s.selfCheck).rzSend 0x16 16 (s.g Reg.RZ_GRP_LEAD_LEADER) 0 s.record
    else s) s

end Sys2Proof.Machine
end

