-- ==== Sys2Proof/Machine/Jobs.lean ====
section
/-!
DEFINITION. Jobs (11): readiness, restarts that are asked for, slices, re-binding; and job-by-job adoption of an image (02, R66 to R69).
-/
namespace Sys2Proof.Machine

open Sys2Proof (Byte Word SecExtra)

/-- Whether a zeroisation runs or has run since the last WARM: jobs may then not be restarted, re-bound or adopted (R449). -/
def State.zeroLock (s : State) : Bool := s.sec.zero.isSome || s.sec.zeroised

/-! ### Copies of memory -/

/-- `n` bytes from one address copied to another, poisoned words staying poisoned (R303). -/
def State.copyMem (s : State) (src dst n : Nat) : State :=
  let cells := s.mem.filter (fun c => decide (src ≤ c.1 ∧ c.1 < src + n))
  let bad := s.poison.filter (fun w => decide (src ≤ w ∧ w < src + n))
  let t := s.zeroFill dst n
  let t := { t with mem := cells.foldl (fun m c => sset 0 m (dst + (c.1 - src)) c.2) t.mem }
  bad.foldl (fun t w => t.setPoison (dst + (w - src))) t

/-! ### Adoption: the next step (R66 to R68) -/

/-- IMG_ADOPT_FINISH (R66 step 4, R67, R267): device-wide IMG fields take their new values, the slot is TRIED and preferred, and EV_IMG_ADOPTED carries job 0xFF. -/
def State.adoptFinish (s : State) (a : Adopt) : State :=
  let s := s.takeRegs (s.imageRegs a.image) (fun _ => true)
  let noRx := (s.roleJob 1).isNone
  let s := { s with image := some a.image, adopt := none, boot := { s.boot with bootSlot := a.image.slot, confirmed := false, runAt := s.ticks } }
  let s := ((if noRx then s.modelsAdopted else s).loaderCopies a.image).identityRegs
  let s := s.p Reg.JOB_TRN_MSET 0
  let s := { s with trn := { s.trn with maxMset := 0, settled := none, heldBase := s.trn.heldSeq } }
  let s := (s.markPrefer a.image.slot 2).p Reg.IMG_SLOT_STS_ADOPT 0
  let s := (s.p Reg.IMG_SLOT_STS_RUN_VALID 1).p Reg.IMG_SLOT_STS_RUN_SLOT a.image.slot.val
  s.ev 0x0E07 0x02 (a.image.slot.val + 0xFF <<< 8)

/-- What an adoption does once a job of its own is ready: the job is reported; after the last one it finishes. -/
def State.adoptReady (s : State) (j : Nat) : State :=
  match s.adopt with
  | none => s
  | some a =>
    let s := s.raise 0x0E07 0x02 j (a.image.slot.val + j <<< 8)
    if a.todo.isEmpty && !s.jobNums.any (fun k => match (s.job k).restart with | some r => r.newImg | none => false) then s.adoptFinish a else s

/-- JOB_READY (R329, R338): the job's restart is complete: it is counted and reported, its semaphores are restored, and it runs, or waits for its slice. `ok` false: the job fails to start, which undoes an adoption (R68) and otherwise leaves it RESTARTING. -/
def execJobReady (j : Fin 16) (ok : Bool) (s : State) : Host.Outcome State Fault Refusal :=
  act (fun s =>
    match (s.job j).restart with
    | none => s
    | some r =>
      if s.jst j ≠ 3 then s
      else if !ok then
        (match s.adopt with
         | some a => if r.adopt && r.newImg then s.adoptUndo a j else s
         | none => s)
      else
        let us := min 0xFFFF ((s.ticks - r.since) / 1000)
        let waits := match s.rings.find? (fun (x : Ring) => x.fronds == (s.job j).bind.fronds) with
          | some x => (s.job j).bind.kind && x.running != j.val
          | none => false
        let s := s.modJob j (fun x => { x with restart := none })
        let s := (s.setJst j (if waits then 2 else 1)).inc (Reg.JOB_jRESTART_CNT j)
        let s := (s.raise 0x0702 0x06 j (us + b2n r.rebound <<< 16)).startJob j
        let s := s.rebindTest
        let s := if (s.job j).bind.role = 3 then s.trnResume else s
        if r.adopt && r.newImg then s.adoptReady j else s.undoEnd) s

/-- JOB_RESTART (R333): a write of JOB and GO = 1. A job that was shed leaves the shed jobs (DEDUCED, log 16). -/
def State.jobRestartWrite (s : State) (agent v : Nat) : State :=
  s.trigger agent .fwmg v Reg.JOB_RESTART_GO (fun s =>
    let j := s.g Reg.JOB_RESTART_JOB
    if !(s.job j).bind.valid || s.jst j == 3 || s.zeroLock then s.ignore
    else
      let s := if s.jst j = 4 then
          { (s.p Reg.PWR_STS_SHED (s.g Reg.PWR_STS_SHED - 1 <<< j)) with pwr := { s.pwr with sheds := s.pwr.sheds.filter (fun x => x.1 != j) } }
        else s
      s.askRestart j (some (0, agent)) false false)

/-- JOB_RESTART (R333). -/
def execJobRestart (agent : Byte) (val : Word) (s : State) : Host.Outcome State Fault Refusal :=
  act (fun s => s.jobRestartWrite agent.toNat val.toNat) s

/-! ### Slices (R326 to R328) -/

/-- The ring of a FRONDS mask. -/
def State.ringBy (s : State) (m : BitVec 6) : Option Ring := s.rings.find? (fun r => r.fronds == m)

/-- The state with a ring changed. -/
def State.modRing (s : State) (m : BitVec 6) (g : Ring → Ring) : State :=
  { s with rings := s.rings.map (fun (r : Ring) => if r.fronds = m then g r else r) }

/-- The members of a ring, ascending. -/
def State.ringMembers (s : State) (m : BitVec 6) : List Nat :=
  s.jobNums.filter (fun j => (s.job j).bind.kind && (s.job j).bind.fronds == m)

/-- Whether a member of a ring can take a slice (R326): neither SHED nor FAILED. -/
def State.canSlice (s : State) (j : Nat) : Bool := s.jst j == 1 || s.jst j == 2 || s.jst j == 3

/-- The member whose slice comes next (R326): the next one in ascending job number, round the ring, that can run. -/
def State.ringNext (s : State) (r : Ring) : Option Nat :=
  let l := (s.ringMembers r.fronds).filter (fun j => j != r.running && s.canSlice j)
  match l.find? (fun j => decide (r.running < j)) with
  | some j => some j
  | none => l.head?

/-- Whether the slice that runs has lasted its SLICE_MS less the overrun charged to it, in domain A's time (R326, R327; log 7). -/
def State.sliceOver (s : State) (r : Ring) : Bool :=
  let x := s.job r.running
  decide (r.began + x.bind.sliceMs * 1000000 ≤ (s.dom .a).nanos + x.short)

/-- SLICE_END (R326, R327): the slice is over, and the fronds of the ring stop issuing new work; a ring with one member that can run never switches. -/
def execSliceEnd (ring : BitVec 6) (s : State) : Host.Outcome State Fault Refusal :=
  act (fun s =>
    match s.ringBy ring with
    | none => s
    | some r =>
      if r.endedAt.isSome || (s.ringNext r).isNone || !s.inRun || !s.sliceOver r then s
      else (s.modRing ring (fun r => { r with endedAt := some s.ticks })).modJob r.running (fun x => { x with short := 0 })) s

/-- SOURCE of the first busy unit of a ring's fronds. -/
def State.ringBusy (s : State) (m : BitVec 6) : Option Nat :=
  ((List.finRange 6).filter (fun (f : Fin 6) => m.getLsbD f.val)).findSome? (fun f => (s.busyUnit f).map (fun u => unitSrc f u))

/-- SLICE_SWITCH_START (R327): the last non-preemptible unit has completed; an overrun is counted and shortens the job's next slice. -/
def execSliceSwitchStart (ring : BitVec 6) (s : State) : Host.Outcome State Fault Refusal :=
  act (fun s =>
    match s.ringBy ring with
    | none => s
    | some r =>
      match r.endedAt with
      | none => s
      | some t =>
        if r.switch || (s.ringNext r).isNone || (s.ringBusy ring).isSome then s
        else
          let ended := if s.jst r.running = 1 then s.ticks - t else 0
          let s := if ended > 0 then (s.inc Reg.JOB_SLICE_OVR_CNT).modJob r.running (fun x => { x with short := min ended 100000 }) else s
          s.modRing ring (fun r => { r with switch := true })) s

/-- SLICE_STUCK (R327, R331): the overrun reaches 100 µs: EV_JOB_SLICE_STUCK; the outgoing job faults, and restarts at the start of its next slice; the switch starts. -/
def execSliceStuck (ring : BitVec 6) (s : State) : Host.Outcome State Fault Refusal :=
  act (fun s =>
    match s.ringBy ring with
    | none => s
    | some r =>
      match r.endedAt, s.ringBusy ring with
      | some t, some src =>
        if r.switch || decide (s.ticks - t < 100000) then s
        else
          let j := r.running
          let s := (s.raise 0x0704 0x06 j src).jobFault j 0x0704 0x06
          let s := (s.inc Reg.JOB_SLICE_OVR_CNT).modJob j (fun x => { x with short := 100000, saved := [], fresh := true })
          s.modRing ring (fun r => { r with endedAt := some s.ticks, switch := true })
      | _, _ => s) s

/-- Offset of a frond's part of a SAVE area (R328): the job's fronds in ascending order, 177 × 64 KiB each. -/
def State.saveAt (s : State) (j : Nat) (f : Fin 6) : Nat :=
  grnBase + (s.job j).bind.save * 0x10000 + 177 * 0x10000 * ((s.jobFronds j).filter (fun g => decide (g.val < f.val))).length

/-- Bytes of the correction state and of the unit state in a SAVE area, whose layout the spec does not give (log 8). -/
def saveTail : Nat := 0x100000 + 0x10000

/-- A frond's state is saved (R328): leaf store and signal-core memory into the SAVE area, the rest held beside it; its bytes in the area are free values. -/
def State.saveFrond (s : State) (j : Nat) (f : Fin 6) : State :=
  let a := s.saveAt j f
  let s := s.modJob j (fun x => { x with saved := x.saved ++ [⟨f, s.fr f, s.regs.filter (fun e => frondReg f e.1)⟩] })
  let s := (s.copyMem (leafBase f) a 0x800000).copyMem (sigBase f 0) (a + 0x800000) 0x200000
  let (b, s) := s.freeBytes saveTail
  s.st (a + 0xA00000) b

/-- Registers that the retirement record and fuses hold, never a save area. -/
def recordAddr (f : Fin 6) (a : Nat) : Bool := a == (Reg.SIG_PRESENT f).addr || a == (Reg.ARR_SPARE_STS_SROW_MAP f).addr

/-- Registers with a frond's saved ones in place of its own. -/
def swapRegs (f : Fin 6) (regs saved : List (Nat × Word)) : List (Nat × Word) :=
  (saved.filter (fun e => !recordAddr f e.1)).foldl (fun m e => sset (regReset e.1) m e.1 e.2)
    (regs.filter (fun e => !frondReg f e.1 || recordAddr f e.1))

/-- A frond's state is reloaded (R328), or starts from JOB-reset state when the job has none saved. -/
def State.loadFrond (s : State) (j : Nat) (f : Fin 6) : State :=
  match (s.job j).saved.find? (fun x => x.f == f) with
  | none => s.resetFrond j f
  | some x =>
    let a := s.saveAt j f
    let s := { (s.setFr f x.unit) with regs := swapRegs f s.regs x.regs }
    ((s.copyMem a (leafBase f) 0x800000).copyMem (a + 0x800000) (sigBase f 0) 0x200000).recordRegs f

/-- SLICE_SWITCH_COMPLETE (R328): the outgoing job's fronds are saved and the incoming job's are reloaded; the switch counts. -/
def execSliceSwitchComplete (ring : BitVec 6) (s : State) : Host.Outcome State Fault Refusal :=
  act (fun s =>
    match s.ringBy ring with
    | none => s
    | some r =>
      match r.switch, s.ringNext r with
      | true, some n =>
        let o := r.running
        let fs := (List.finRange 6).filter (fun (f : Fin 6) => ring.getLsbD f.val)
        let s := if s.jst o = 1 then fs.foldl (fun t f => t.saveFrond o f) ((s.modJob o (fun x => { x with saved := [], fresh := false })).setJst o 2) else s
        let s := s.modRing ring (fun r => { r with running := n, began := (s.dom .a).nanos, endedAt := none, switch := false })
        let s := fs.foldl (fun t f => t.loadFrond n f) s
        let s := if (s.job n).fresh then fs.foldl (fun t f => t.startLists n f) (s.restoreSems n) else s
        let s := s.modJob n (fun x => { x with saved := [], fresh := false })
        (if s.jst n = 2 then s.setJst n 1 else s).inc Reg.JOB_SWITCH_CNT
      | _, _ => s) s

/-! ### Re-binding (R334 to R336, R377) -/

/-- One entry of a JOB_REBIND over the record in force. -/
def rebindRec (old : JobRec) (e : List Byte) : JobRec :=
  { old with fronds := BitVec.ofNat 6 (byteAt e 1), channels := BitVec.ofNat 24 (le e 4 4), ways := BitVec.ofNat 16 (le e 8 2),
             fhShare := (List.range 4).map (fun p => byteAt e (12 + p)), rzShare := (List.range 4).map (fun p => byteAt e (16 + p)) }

/-- Whether an entry's reserved bits are 0 (R334). -/
def rebindShape (e : List Byte) : Bool :=
  decide (byteAt e 0 < 16 ∧ byteAt e 1 < 64) && zeroRange e 2 2 && byteAt e 7 == 0 && zeroRange e 10 2 && zeroRange e 20 12

/-- The jobs' records with some replaced. -/
def State.recsWith (s : State) (l : List (Nat × JobRec)) : List (Nat × JobRec) :=
  s.jobNums.map (fun j => match l.find? (fun x => x.1 == j) with | some x => x | none => (j, (s.job j).bind))

/-- Whether a slice ring would be split (R335). -/
def State.splitsRing (s : State) (l : List (Nat × JobRec)) : Bool :=
  l.any (fun a => l.any (fun b => a.2.kind && b.2.kind && (s.job a.1).bind.fronds == (s.job b.1).bind.fronds && a.2.fronds != b.2.fronds))

/-- The new records that a JOB_REBIND payload asks for (R334). -/
def State.rebindRecs (s : State) (p : List Byte) : List (Nat × JobRec) :=
  (List.range (byteAt p 0)).map (fun e =>
    let b := (p.drop (16 + 32 * e)).take 32
    (byteAt b 0, rebindRec (s.job (byteAt b 0)).bind b))

/-- Whether a JOB_REBIND payload is out of range (R334, R335, R377). -/
def State.rebindBad (s : State) (p : List Byte) : Bool :=
  let n := byteAt p 0
  let es := (List.range n).map (fun e => (p.drop (16 + 32 * e)).take 32)
  let recs := s.rebindRecs p
  let all_ := s.recsWith recs
  let named := recs.map (fun x => x.1)
  let group := s.isMember && named.any (fun j => s.gjobs.testBit j)
  decide (n < 1 ∨ n > 4 ∨ p.length ≠ 16 + 32 * n) || !zeroRange p 1 3 || !es.all rebindShape || !s.atOk group (le p 4 8) (le p 12 4) ||
    named.any (fun j => !(s.job j).bind.valid) || decide (named.eraseDups.length ≠ n) ||
    recs.any (fun x => (x.2.fronds &&& BitVec.ofNat 6 (s.g Reg.FLT_STS_FROND_RET)) != 0) ||
    !bindingsOk all_ || s.splitsRing all_

/-- JOB_REBIND (R334, R335, R377): checked whole and scheduled. -/
def execJobRebind (r : MgReq) (s : State) : Host.Outcome State Fault Refusal :=
  act (fun s => s.mgServe 0x0050 false r (fun s =>
    let recs := s.rebindRecs r.payload
    if s.rebindBad r.payload then s.mgAnswer 0x0050 r.seq 4 []
    else if !s.inRun || s.pwr.trans.isSome || s.rebind.isSome || s.zeroLock then s.mgAnswer 0x0050 r.seq 3 []
    else if s.adopting then s.mgAnswer 0x0050 r.seq 6 []
    else ({ s with rebind := some ⟨le r.payload 4 8, le r.payload 12 4, recs, recs.map (fun (x : Nat × JobRec) => x.1)⟩ }).mgAnswer 0x0050 r.seq 0 [])) s

/-- The bindings that a re-binding changes (R336): those that differ, and FAILED jobs named. -/
def State.rebound (s : State) (b : Rebind) : List (Nat × JobRec) :=
  b.recs.filter (fun x => x.2 != (s.job x.1).bind || s.jst x.1 == 5)

/-- The owner of a way among the jobs. -/
def State.wayJob (s : State) (w : Nat) : Option Nat := s.jobNums.find? (fun j => (s.job j).bind.ways.getLsbD w)

/-- Slice rings after bindings have changed (R326): a ring whose members keep a running member keeps it. -/
def State.remakeRings (s : State) : State :=
  let bg := s.jobNums.filter (fun j => (s.job j).bind.kind)
  let masks := (bg.map (fun j => (s.job j).bind.fronds)).eraseDups
  let ring := fun (m : BitVec 6) =>
    let mem := s.ringMembers m
    match s.rings.find? (fun (r : Ring) => mem.contains r.running) with
    | some r => (if r.fronds = m then r else (⟨m, r.running, (s.dom .a).nanos, none, false⟩ : Ring))
    | none => (⟨m, mem.headD 0, (s.dom .a).nanos, none, false⟩ : Ring)
  { s with rings := masks.map ring }

/-- JOB_REBIND_BOUNDARY (R336): every changed job stops, resources pass, and the changed jobs restart together. -/
def execJobRebindBoundary (s : State) : Host.Outcome State Fault Refusal :=
  act (fun s =>
    match s.rebind with
    | none => s
    | some b =>
      if b.recs = [] ∨ s.slotBoundary = false ∨ s.atReached (s.isMember && b.recs.any (fun x => s.gjobs.testBit x.1)) b.atSec b.atNs = false then s
      else
        let ch := s.rebound b
        let named := ch.map (fun x => x.1)
        let s := named.foldl (fun t j => t.stopJob j) s
        let before := s.boundChannels
        let ways := (List.range 16).map s.wayJob
        let s := ch.foldl (fun t x => t.setBind x.1 x.2) s
        let s := s.loftFlush (fun l => ways.getD l.way.val none != s.wayJob l.way.val)
        let s := (s.passBanks before s.boundChannels).remakeRings
        let s := { s with rebind := some { b with recs := [], named := named } }
        let s := if s.isMember && b.named.any (fun j => s.gjobs.testBit j) then s.fenceSelf 6 else s
        (named.foldl (fun t j => t.askRestart j none false false) s).rebindTest) s

/-! ### IMG_ADOPT (R66 to R69) -/

/-- Whether a register lies in a block that step 1 of R66 compares: SYS, PWR, TIME, FH, RZ, GRN, BRN. -/
def comparedBlock (a : Nat) : Bool :=
  let b := a / 0x10000
  b == 0 || b == 3 || b == 4 || b == 7 || b == 8 || b == 9 || b == 10

/-- Whether a register's IMG fields are the same in two register maps. -/
def sameImg (s t : State) (a : Nat) : Bool :=
  match regSpecAt a with
  | none => true
  | some r => (r.fields.filter (fun f => f.acc == .img)).all (fun f => bits (s.reg a).toNat f.lo f.width == bits (t.reg a).toNat f.lo f.width)

/-- The sections of the types that step 1 of R66 reads, as far as they pass their checks. -/
def State.peekSections (s : State) (im : Image) : Image :=
  { im with sections := (List.range im.count).filterMap (fun i =>
      let t := byteAt (im.entry i) 12
      if t = 7 ∨ t = 0x0B then (match s.sectCheck im i .plain with | .ok x => some x | .error _ => none) else none) }

/-- Whether two records hold the same bindings (R66, R322). -/
def sameBinding (a b : JobRec) : Bool :=
  a.valid == b.valid && a.fronds == b.fronds && a.channels == b.channels && a.ways == b.ways && a.fhShare == b.fhShare &&
    a.rzShare == b.rzShare && a.barn == b.barn

/-- Whether step 1 of R66 asks for a full start: DET, an IMG field of a compared block, or a binding differs. -/
def State.needsFull (s : State) (im : Image) : Bool :=
  let im := s.peekSections im
  let new := s.imageRegs im
  (im.hdr 12 4).testBit 1 != s.det ||
    ((s.regs ++ new.regs).filter (fun e => comparedBlock e.1)).any (fun e => !sameImg s new e.1) ||
    ((im.sections.any (fun x => x.typ == 0x0B) || !(List.range im.count).any (fun i => byteAt (im.entry i) 12 == 0x0B)) && (List.range 16).any (fun j => !sameBinding ((im.jobRec j).getD JobRec.none) (s.job j).bind))

/-- IMG_ADOPT (R63, R66, R69). -/
def execImgAdopt (r : MgReq) (s : State) : Host.Outcome State Fault Refusal :=
  act (fun s => s.mgServe 0x0051 false r (fun s =>
    let p := r.payload
    let sec := le p 0 8
    let ns := le p 8 4
    match s.image with
    | none => s.mgAnswer 0x0051 r.seq 3 []
    | some run =>
      let k := otherSlot run.slot
      if p.length ≠ 12 ∨ s.atOk s.isMember sec ns = false then s.mgAnswer 0x0051 r.seq 4 []
      else if s.adopting then s.mgAnswer 0x0051 r.seq 6 []
      else if s.slotState k ≠ 1 ∨ s.boot.phase ≠ .started ∨ s.zeroLock = true then s.mgAnswer 0x0051 r.seq 3 []
      else
        let im := s.readHead k
        if s.needsFull im then s.mgAnswer 0x0051 r.seq 8 []
        else
          let s := { s with adopt := some ⟨im, sec, ns, false, false, [], [], []⟩ }
          (s.p Reg.IMG_SLOT_STS_ADOPT 1).mgAnswer 0x0051 r.seq 0 [])) s

/-- The jobs that an adoption restarts: in job order (R66, R325). Jobs that are SHED or FAILED take the new image without a restart (DEDUCED, log 17). -/
def State.adoptOrder (s : State) : List Nat := s.jobOrder.filter (fun j => s.jst j != 4 && s.jst j != 5)

/-- A background check that fails ends the adoption (R66, R68): the event of the check, the slot BAD, and EV_IMG_ADOPT_FAIL, whose job byte is then 0xFF (DESIGN CHOICE, log 17). -/
def State.adoptRefuse (s : State) (a : Adopt) (e : ImgFail) : State :=
  let s := (s.ev e.1 0x02 e.2).markSlot a.image.slot 4
  (({ s with adopt := none }).p Reg.IMG_SLOT_STS_ADOPT 0).ev 0x0E0B 0x02 (a.image.slot.val + 0xFF <<< 8)

/-- What the background check of an adoption finds: the failed check of R47, or a NEED_PAIR image on a part without the pair fuse (R53). -/
def State.adoptCheck (s : State) (k : Fin 2) (reads : List SecExtra) : Except ImgFail Image :=
  let im := s.readHead k
  if (s.headCheck k im.header im.table).isNone && (im.hdr 12 4).testBit 2 && !s.fuses.pair then .error (0x0E04, k.val)
  else match s.checkSlot k reads with
    | .error e => .error e
    | .ok (_, im) => .ok im

/-- IMG_ADOPT_CHECK_DONE (R53, R66 step 2): every section of the new image has been read and checked; a failure ends the adoption. Jobs that are SHED or FAILED take its fields at once (log 17). -/
def execImgAdoptCheckDone (reads : List SecExtra) (s : State) : Host.Outcome State Fault Refusal :=
  act (fun s =>
    match s.adopt with
    | none => s
    | some a =>
      if a.checked then s
      else match s.adoptCheck a.image.slot reads with
        | .error e => s.adoptRefuse a e
        | .ok im =>
          let idle := s.jobOrder.filter (fun j => s.jst j == 4 || s.jst j == 5)
          let a := { a with image := im, checked := true, todo := s.adoptOrder, done := idle, idle := idle }
          let s := idle.foldl (fun t j => t.takeJobFields j) { s with adopt := some a }
          if a.todo.isEmpty then s.adoptFinish a else s) s

/-- A job restarts under the image it now belongs to (R67). -/
def State.adoptJob (s : State) (j : Nat) (newImg : Bool) : State := (s.takeJobFields j).askRestart j none true newImg

/-- The jobs that restart next for an adoption, and those that remain: one at a time, but on a group member all group-bound jobs together, at the first boundary (R66, R69). -/
def State.adoptNext (s : State) (a : Adopt) : List Nat × List Nat :=
  let group := if s.isMember && !a.started then a.todo.filter (fun j => s.gjobs.testBit j) else []
  if group.isEmpty then (a.todo.take 1, a.todo.drop 1) else (group, a.todo.filter (fun j => !group.contains j))

/-- One job restarts for an adoption; one that its remedies leave FAILED has failed to start (R68). -/
def State.adoptStart (s : State) (j : Nat) : State :=
  match s.adopt with
  | none => s
  | some a =>
    let a := { a with started := true, done := a.done ++ [j] }
    let s := ({ s with adopt := some a }).adoptJob j true
    if s.jst j = 5 then s.adoptUndo a j else s

/-- The next job of an undoing restarts under the running image; one that is SHED or FAILED takes its fields back without a restart (R67, R68). -/
def State.undoNext (s : State) (u : Undo) (j : Nat) (left : List Nat) : State :=
  let s := { s with undo := some { u with left := left } }
  (if s.jst j = 4 ∨ s.jst j = 5 then s.takeJobFields j else s.adoptJob j false).undoEnd

/-- IMG_ADOPT_JOB_RESTART (R66 step 3, R68, R69, R332): at a slot boundary, from AT on, the next job of an undoing or of an adoption restarts, once no job is restarting. -/
def execImgAdoptJobRestart (s : State) : Host.Outcome State Fault Refusal :=
  act (fun s =>
    if s.jobNums.any (fun j => s.jst j == 3) || !s.slotBoundary then s
    else match s.undo, s.adopt with
      | some u, _ =>
        (match u.left with
         | [] => { s with undo := none }
         | j :: js => s.undoNext u j js)
      | none, none => s
      | none, some a =>
        if !a.checked || !s.atReached s.isMember a.atSec a.atNs then s
        else if a.todo.isEmpty then s.adoptFinish a
        else
          let (now, later) := s.adoptNext a
          now.foldl (fun t j => t.adoptStart j) { s with adopt := some { a with todo := later } }) s

end Sys2Proof.Machine
end

