-- ==== Sys2Proof/Machine/Mgmt.lean ====
section
/-!
DEFINITION. Management messages over MG (02, R60 to R63) and the telemetry message (16, R429). Register accesses over MG are in RegWrite.lean, adoption and re-binding in Jobs.lean, time in Time.lean, debug in Security.lean.
-/
namespace Sys2Proof.Machine

open Sys2Proof (Byte Word SecExtra MgIn)

/-- Whether MG accepts a management frame (R60): its EtherType, its source when MG_PEER_MAC is set, its CLASS. -/
def State.mgTakes (s : State) (x : MgIn) : Bool :=
  let peer := s.g64 Reg.MG_PEER_MAC_LO Reg.MG_PEER_MAC_HI
  x.etherType == 0x88B5 && (peer == 0 || x.src.toNat == peer) && x.cls == 2

/-- MG_FRAME_DROP (R60): a frame that MG does not accept is dropped and counted; a PTP frame goes to the time island ahead of the checks (R392). -/
def execMgFrameDrop (x : MgIn) (s : State) : Host.Outcome State Fault Refusal :=
  act (fun s =>
    if s.mg.up && !s.mgTakes x && !(x.etherType == 0x88F7 && ptpAddr x.dst) then s.inc Reg.MG_DROP_CNT else s) s

/-- Opcodes of requests to the device (R61). -/
def mgRequests : List Nat :=
  [0x0001, 0x0002, 0x0012, 0x0013, 0x0020, 0x0030, 0x0040, 0x0041, 0x0042, 0x0043, 0x0050, 0x0051, 0x0060, 0x0070, 0x0071]

/-- MG_UNSUPPORTED_REQUEST (R60, R61): an opcode that is no request to the device is answered UNSUPPORTED, in SAFE too; another VER is answered VERSION. -/
def execMgUnsupportedRequest (op : BitVec 16) (r : MgReq) (s : State) : Host.Outcome State Fault Refusal :=
  act (fun s =>
    if !s.mg.up || mgRequests.contains op.toNat then s
    else if r.ver ≠ 1 then s.mgAnswer op.toNat r.seq 2 []
    else s.mgAnswer op.toNat r.seq 1 []) s

/-- A register's 4 bytes. -/
def State.regBytes (s : State) (F : Fld) : List Byte := toLE 4 (s.reg F.addr).toNat

/-- The five identity registers (R59). -/
def State.identBytes (s : State) : List Byte :=
  s.regBytes Reg.SYS_ID_PART_PAIR ++ s.regBytes Reg.SYS_ID_LOT_LO ++ s.regBytes Reg.SYS_ID_LOT_HI_WAFER ++ s.regBytes Reg.SYS_ID_UID_LO ++
    s.regBytes Reg.SYS_ID_UID_HI

/-- Whether the device is in SAFE. -/
def State.inSafe (s : State) : Bool := s.boot.phase == .safe

/-- IDENT_GET (R63). -/
def execIdentGet (r : MgReq) (s : State) : Host.Outcome State Fault Refusal :=
  act (fun s => s.mgServe 0x0001 true r (fun s =>
    if r.payload ≠ [] then s.mgAnswer 0x0001 r.seq 4 []
    else
      let run := s.on Reg.IMG_SLOT_STS_RUN_VALID
      let fw := match s.image with | some im => if run then im.hdr 20 4 else 0 | none => 0
      s.mgAnswer 0x0001 r.seq 0 (s.identBytes ++ toLE 4 fw ++ toLE 1 (if run then s.g Reg.IMG_SLOT_STS_RUN_SLOT else 0xFF) ++
        toLE 1 (s.g Reg.PWR_STS_STATE) ++ toLE 1 (b2n s.inSafe) ++ toLE 1 s.fuses.life ++ zeros 4))) s

/-- CERT_GET (R63). -/
def execCertGet (r : MgReq) (s : State) : Host.Outcome State Fault Refusal :=
  act (fun s => s.mgServe 0x0002 true r (fun s =>
    let n := ceilDiv s.fuses.cert.length 1024
    let k := le r.payload 0 2
    if r.payload.length ≠ 4 ∨ zeroRange r.payload 2 2 = false ∨ k ≥ n then s.mgAnswer 0x0002 r.seq 4 []
    else s.mgAnswer 0x0002 r.seq 0 (toLE 2 k ++ toLE 2 n ++ toLE 4 s.fuses.cert.length ++ (s.fuses.cert.drop (1024 * k)).take 1024))) s

/-! ### Slots (R63) -/

/-- IMG_SLOT_STS shows the open slot (R472). -/
def State.showOpen (s : State) : State :=
  match s.openSlot with
  | some o => (s.p Reg.IMG_SLOT_STS_OPEN 1).p Reg.IMG_SLOT_STS_OPEN_SLOT o.slot.val
  | none => (s.p Reg.IMG_SLOT_STS_OPEN 0).p Reg.IMG_SLOT_STS_OPEN_SLOT 0

/-- The running slot; none in SAFE. -/
def State.runSlot (s : State) : Option (Fin 2) :=
  if s.on Reg.IMG_SLOT_STS_RUN_VALID then some (Fin.ofNat 2 (s.g Reg.IMG_SLOT_STS_RUN_SLOT)) else none

/-- SLOT_OPEN (R63): a slot that is not running is set EMPTY and stays open. -/
def execSlotOpen (r : MgReq) (s : State) : Host.Outcome State Fault Refusal :=
  act (fun s => s.mgServe 0x0040 true r (fun s =>
    let c := byteAt r.payload 0
    let k : Fin 2 := if c = 0xFF then (match s.runSlot with | some q => otherSlot q | none => otherSlot s.prefSlot) else Fin.ofNat 2 c
    if r.payload.length ≠ 4 ∨ zeroRange r.payload 1 3 = false ∨ (2 ≤ c ∧ c ≤ 0xFE) then s.mgAnswer 0x0040 r.seq 4 []
    else if s.adopting then s.mgAnswer 0x0040 r.seq 6 []
    else if s.flashSize = 0 then s.mgAnswer 0x0040 r.seq 3 []
    else if s.runSlot = some k then s.mgAnswer 0x0040 r.seq 5 []
    else
      let s := ({ s with openSlot := some ⟨k, []⟩ }).markSlot k 0
      s.showOpen.mgAnswer 0x0040 r.seq 0 (toLE 1 k.val ++ zeros 3 ++ toLE 4 s.slotSize))) s

/-- The bytes of a SLOT_WRITE go to the slot: each 4 KiB sector is erased on its first touch (R63). -/
def State.slotStore (s : State) (o : OpenSlot) (off : Nat) (bs : List Byte) : State :=
  let first := off / 4096
  let secs := (List.range ((off + bs.length - 1) / 4096 + 1 - first)).map (· + first)
  let fresh := secs.filter (fun k => !o.touched.contains k)
  let s := fresh.foldl (fun t k => t.flErase (t.slotBase o.slot + 4096 * k) 4096) s
  { (s.flSt (s.slotBase o.slot + off) bs) with openSlot := some ⟨o.slot, o.touched ++ fresh⟩ }

/-- SLOT_WRITE (R63). -/
def execSlotWrite (r : MgReq) (s : State) : Host.Outcome State Fault Refusal :=
  act (fun s => s.mgServe 0x0041 true r (fun s =>
    let off := le r.payload 0 4
    let n := le r.payload 4 2
    if r.payload.length ≠ 8 + n ∨ n < 1 ∨ n > 1024 ∨ zeroRange r.payload 6 2 = false then s.mgAnswer 0x0041 r.seq 4 []
    else if s.adopting then s.mgAnswer 0x0041 r.seq 6 []
    else match s.openSlot with
      | none => s.mgAnswer 0x0041 r.seq 3 []
      | some o =>
        if off + n > s.slotSize then s.mgAnswer 0x0041 r.seq 4 []
        else (s.slotStore o off (r.payload.drop 8)).mgAnswer 0x0041 r.seq 0 (r.payload.take 8))) s

/-- SLOT_COMMIT (R47, R63): the open slot is checked, marked NEW or BAD, and closed. -/
def execSlotCommit (r : MgReq) (reads : List SecExtra) (s : State) : Host.Outcome State Fault Refusal :=
  act (fun s => s.mgServe 0x0042 true r (fun s =>
    if r.payload ≠ [] then s.mgAnswer 0x0042 r.seq 4 []
    else if s.adopting then s.mgAnswer 0x0042 r.seq 6 []
    else match s.openSlot with
      | none => s.mgAnswer 0x0042 r.seq 3 []
      | some o =>
        let (t, st, code) := match s.checkSlot o.slot reads with
          | .ok _ => (s, 1, 0)
          | .error e => (s.ev e.1 0x02 e.2, 4, e.1)
        let t := (({ t with openSlot := none }).markSlot o.slot st).showOpen
        t.mgAnswer 0x0042 r.seq (if code = 0 then 0 else 7) (toLE 1 o.slot.val ++ toLE 1 st ++ toLE 2 code))) s

/-- SLOT_PREFER (R63). -/
def execSlotPrefer (r : MgReq) (s : State) : Host.Outcome State Fault Refusal :=
  act (fun s => s.mgServe 0x0043 true r (fun s =>
    let c := byteAt r.payload 0
    let k := Fin.ofNat 2 c
    if r.payload.length ≠ 4 ∨ zeroRange r.payload 1 3 = false ∨ c > 1 then s.mgAnswer 0x0043 r.seq 4 []
    else if s.adopting then s.mgAnswer 0x0043 r.seq 6 []
    else if s.flashSize = 0 ∨ (s.slotState k ≠ 1 ∧ s.slotState k ≠ 3) then s.mgAnswer 0x0043 r.seq 3 []
    else (s.preferSlot k).mgAnswer 0x0043 r.seq 0 [])) s

/-- WARM_RESET (R61, R63): answered OK; the reset follows 1 ms later. -/
def execWarmReset (r : MgReq) (s : State) : Host.Outcome State Fault Refusal :=
  act (fun s => s.mgServe 0x0070 true r (fun s =>
    if r.payload ≠ [] then s.mgAnswer 0x0070 r.seq 4 []
    else ({ s with boot := { s.boot with warmDue := true } }).mgAnswer 0x0070 r.seq 0 [])) s

/-- DEFERRED_WARM (R61, R453): the delay of 1 ms is over and the WARM reset occurs; it ends at once when no pin, rail or temperature holds it. -/
def execDeferredWarm (s : State) : Host.Outcome State Fault Refusal :=
  act (fun s => if s.boot.warmDue then s.startWarm.endWarm else s) s

/-! ### Telemetry (R64, R429) -/

/-- SMBus STATUS (R64). -/
def State.statusWord (s : State) : Nat :=
  s.g Reg.PWR_STS_STATE + b2n s.inSafe <<< 3 + s.fuses.life <<< 4 + b2n (s.runSlot == some 1) <<< 7

/-- A register named by TEL_LISTk, read without clearing; 0 for an unused entry. -/
def State.telCounter (s : State) (k : Nat) : Nat :=
  let a := s.g (Reg.TEL_LISTk k)
  if a = 0 ∨ !isReg a then 0 else (s.peek a).toNat

/-- Two jobs' STATE codes in a byte, the lower job in the low nibble. -/
def State.jobNibbles (s : State) (i : Nat) : Nat := s.jst (2 * i) + s.jst (2 * i + 1) <<< 4

/-- The 288 bytes of R429. In SAFE the jobs and counters read 0. -/
def State.telPayload (s : State) : List Byte :=
  let (tdom, t) := s.stamp 0 0xFF
  let safe := s.inSafe
  toLE 8 t.sec.toNat ++ toLE 4 (t.ns.toNat + tdom <<< 30) ++ toLE 2 s.statusWord ++ toLE 2 (s.g Reg.PWR_TEMP_T) ++ toLE 2 (s.g Reg.PWR_POWER) ++
    toLE 2 (s.g Reg.PWR_EFF_CAP) ++ toLE 2 (s.g Reg.PWR_CAP) ++ toLE 1 (s.g Reg.PWR_STS_DUTY) ++ toLE 1 s.smbAlarms.toNat ++
    (List.range 8).flatMap (fun i => toLE 1 (if safe then 0 else s.jobNibbles i)) ++
    (List.range 32).flatMap (fun i => toLE 2 (s.flt.sensors.getD i 0).toNat) ++
    (List.range 48).flatMap (fun k => toLE 4 (if safe then 0 else s.telCounter k))

/-- TELEMETRY (R61, R429): every 100 ms a sample is queued at MG, or dropped and counted. -/
def execTelemetry (s : State) : Host.Outcome State Fault Refusal :=
  act (fun s => if s.mgRoom then s.mgSend 0x0010 s.telPayload else s.inc Reg.TEL_DROP_CNT) s

end Sys2Proof.Machine
end

