-- ==== Sys2Proof/Machine/Jtag.lean ====
section
/-!
DEFINITION. The JTAG port (17 R445 R448, 18 R461 R468): instructions of the TAP and the mailbox register. Debug accesses through the access port are in RegWrite.lean.
-/
namespace Sys2Proof.Machine

open Sys2Proof (Byte Word)

/-- An instruction reaches the TAP outside POR ("served in every state", R448, R468). -/
def actJtag (f : State → State) (s : State) : Host.Outcome State Fault Refusal :=
  actPin (fun s => if s.boot.phase = .por then s else f s) s

/-- The scopes open at the moment (R448): in MAKER all of them, from POR. -/
def State.scopes (s : State) : BitVec 8 :=
  if s.fuses.life = 0 then 0x3F else match s.sec.session with | some x => x.scope | none => 0

/-- The instruction register takes an instruction: 0 BYPASS, 1 IDCODE, 2 SAMPLE/PRELOAD, 3 EXTEST, 4 CLAMP, 5 HIGHZ, 6 DBG_MBOX (numbers of the model). -/
def State.jtagLoad (s : State) (n : Nat) : State := { s with sec := { s.sec with jtagIr := n, tlr := false } }

/-- JTAG_TRST (R461): the TAP is held in Test-Logic-Reset, where IDCODE is the instruction (IEEE 1149.1). -/
def execJtagTrst (s : State) : Host.Outcome State Fault Refusal :=
  actJtag (fun s => { s with sec := { s.sec with jtagIr := 1, tlr := true } }) s

/-- BYPASS (R448). -/
def execBypass (s : State) : Host.Outcome State Fault Refusal := actJtag (fun s => s.jtagLoad 0) s

/-- IDCODE (R468): 0x2716_022B is shifted out. -/
def execIdcode (s : State) : Host.Outcome State Fault Refusal :=
  actJtag (fun s => { (s.jtagLoad 1) with readOut := s.readOut ++ [0x2716022B] }) s

/-- SAMPLE_PRELOAD (R448): the boundary cells are loaded; the pins stay with the device. -/
def execSamplePreload (cells : List Bool) (s : State) : Host.Outcome State Fault Refusal :=
  actJtag (fun s => let t := s.jtagLoad 2; { t with sec := { t.sec with bscan := cells } }) s

/-- EXTEST (R448): served only while BSCAN is open, else BYPASS is loaded. -/
def execExtest (cells : List Bool) (s : State) : Host.Outcome State Fault Refusal :=
  actJtag (fun s =>
    if s.scopes.getLsbD 3 then (let t := s.jtagLoad 3; { t with sec := { t.sec with bscan := cells } }) else s.jtagLoad 0) s

/-- CLAMP (R448): served only while BSCAN is open; the preloaded cells hold the pins. -/
def execClamp (s : State) : Host.Outcome State Fault Refusal :=
  actJtag (fun s => s.jtagLoad (if s.scopes.getLsbD 3 then 4 else 0)) s

/-- HIGHZ (R448): served only while BSCAN is open. -/
def execHighz (s : State) : Host.Outcome State Fault Refusal :=
  actJtag (fun s => s.jtagLoad (if s.scopes.getLsbD 3 then 5 else 0)) s

/-- DBG_MBOX (R445): one update moves a word into the mailbox and a word of the response out of it (0 when there is none). -/
def execDbgMbox (w : Word) (s : State) : Host.Outcome State Fault Refusal :=
  actJtag (fun s =>
    let t := s.jtagLoad 6
    { t with sec := { t.sec with mboxIn := t.sec.mboxIn ++ [w], mboxOut := t.sec.mboxOut.tail }, readOut := t.readOut ++ [t.sec.mboxOut.headD 0] }) s

end Sys2Proof.Machine
end

