-- ==== Sys2Proof/Machine/GroupRed.lean ====
section
/-!
DEFINITION. Group operations (13 R370 to R376): the command queue of each frond, reductions, broadcasts and barriers over the tree of ranks, and their failure.
-/
namespace Sys2Proof.Machine

open Sys2Proof (Byte Word RzFrame)

/-! ### Commands (R373) -/

/-- KIND: 0 REDUCE, 1 BCAST, 2 BARRIER. -/
def opKind (c : List Word) : Nat := cfield c 0 0 2
/-- JOB. -/
def opJob (c : List Word) : Nat := cfield c 0 8 4
/-- RTAG. -/
def opRtag (c : List Word) : Nat := cfield c 0 16 16
/-- SLOTIDX. -/
def opSlot (c : List Word) : Nat := cfield c 1 0 32
/-- LEN. -/
def opLen (c : List Word) : Nat := cfield c 4 0 24
/-- Device address of the region that a word names. -/
def opAddr (c : List Word) (w : Nat) : Nat := grnBase + 32 * cfield c w 0 23

/-- The state with a frond's group queue replaced; RZ_CMDf_STS follows. -/
def State.setGrpQ (s : State) (f : Fin 6) (q : List (List Word)) : State :=
  (s.modFr f (fun x => { x with grp := q })).p (Reg.RZ_CMDf_STS f) (8 - q.length)

/-- RZ_CMD_PUSH (R373): RZ_CMDf_W0 to W7 enter the queue; ignored while it is full. -/
def execRzCmdPush (agent : Byte) (f : Fin 6) (val : Word) (s : State) : Host.Outcome State Fault Refusal :=
  act (fun s => s.push agent.toNat .fw val.toNat (Reg.RZ_CMDf_PUSH f) (fun s =>
    if (s.fr f).grp.length ≥ 8 then s.ignore
    else s.setGrpQ f ((s.fr f).grp ++ [(List.range 8).map (fun w => s.reg ((Reg.RZ_CMDf_W0 f).addr + 4 * w))]))) s

/-- The lowest code of R373 that a command of a frond whose job is `j` breaks, 0 for none. A LEN that its KIND does not allow counts as a reserved code (DESIGN CHOICE, log 28). Its regions must lie in the job's granary space, so a system bank, which it may read, is none of it. -/
def State.grpCheck (s : State) (f j : Nat) (c : List Word) : Nat :=
  let k := opKind c
  let n := opLen c
  let space := fun (w len : Nat) => decide (s.access (unitSrc f 6) j (opAddr c w) len true = .ok)
  if k = 3 ∨ cfield c 0 2 2 = 3 ∨ n % 64 ≠ 0 ∨ (k = 2 ∧ n ≠ 0) then 1
  else if cfield c 0 5 3 ≠ 0 ∨ cfield c 0 12 4 ≠ 0 ∨ cfield c 2 23 9 ≠ 0 ∨ cfield c 3 23 9 ≠ 0 ∨ cfield c 4 24 8 ≠ 0 ∨ cfield c 6 16 16 ≠ 0 ∨ cfield c 7 23 9 ≠ 0 then 2
  else if !space 7 32 || (n != 0 && (!space 2 n || !space 3 n)) then 3
  else if opJob c ≠ j ∨ s.gjobs.testBit j = false then 4
  else if s.semBad j (cfield c 6 0 11) then 5
  else 0

/-! ### Operations at this node (R370, R374) -/

/-- Whether an operation has a job, RTAG and slot. -/
def GrpOp.is (o : GrpOp) (job rtag slot : Nat) : Bool := o.job == job && o.rtag == rtag && o.slot == slot

/-- The operation of a job, RTAG and slot, a new one when none is known yet. -/
def State.opOf (s : State) (job rtag slot : Nat) : GrpOp :=
  (s.grp.ops.find? (fun o => o.is job rtag slot)).getD ⟨job, rtag, slot, none, [], [], [], false, none, false⟩

/-- The state with an operation replaced. -/
def State.putOp (s : State) (o : GrpOp) : State :=
  { s with grp := { s.grp with ops := s.grp.ops.filter (fun x => !x.is o.job o.rtag o.slot) ++ [o] } }

/-- The state without an operation. -/
def State.dropOp (s : State) (o : GrpOp) : State :=
  { s with grp := { s.grp with ops := s.grp.ops.filter (fun x => !x.is o.job o.rtag o.slot) } }

/-- Children of a rank among `m` members (R370). -/
def kids (r m : Nat) : List Nat := (List.range 4).filterMap (fun i => if 4 * r + 1 + i < m then some (4 * r + 1 + i) else none)

/-- One part of an operation, empty when nothing of it is known. -/
def GrpOp.part (o : GrpOp) (k : Nat) : OpPart := (o.parts.find? (fun p => p.part == k)).getD ⟨k, [], false, none⟩

/-- An operation with one part replaced. -/
def GrpOp.setPart (o : GrpOp) (p : OpPart) : GrpOp := { o with parts := o.parts.filter (fun x => x.part != p.part) ++ [p] }

/-- The input of a rank to a part. -/
def OpPart.input (p : OpPart) (r : Nat) : Option (List Byte) := (p.inputs.find? (fun (i : Nat × List Byte) => i.1 == r)).map (fun i => i.2)

/-- Sum of two element strings, 32 bits at a time (R371): INT32 and CI32 modulo 2^32, FP32 with one rounding. -/
def addElems (fmt : Nat) : List Byte → List Byte → List Byte
  | a0 :: a1 :: a2 :: a3 :: a, b0 :: b1 :: b2 :: b3 :: b =>
    let x := leOf [a0, a1, a2, a3]
    let y := leOf [b0, b1, b2, b3]
    toLE 4 (if fmt = 2 then addF32 x y else x + y) ++ addElems fmt a b
  | a, _ => a

/-- TAG of the frames of an operation (log 28): RTAG, JOB, the low 11 bits of SLOTIDX, and bit 31 for a failure. -/
def opTag (job rtag slot : Nat) (fail : Bool) : Nat := rtag + job <<< 16 + (slot % 2048) <<< 20 + b2n fail <<< 31

/-- The slot index nearest to the present slot whose low 11 bits are given. -/
def State.slotNear (s : State) (low : Nat) : Nat :=
  let n := 1024 * spf (s.g Reg.JOB_RX_CFG_SCS)
  let cur := s.groupIdx (s.dom s.groupDom).nanos
  (cur + n + (low + 2048 + 1024 - cur % 2048) % 2048 - 1024) % n

/-- Job, RTAG and slot of a frame. -/
def State.opKey (s : State) (fr : RzFrame) : Nat × (Nat × Nat) :=
  let t := fr.tag.toNat
  (bits t 16 4, bits t 0 16, s.slotNear (bits t 20 11))

/-! ### Ends of an operation (R373, R374) -/

/-- Allocations of the operation's slot on its frond count as not delivered (R374, R237): LATE now. -/
def State.opLate (s : State) (f : Fin 6) (job slot : Nat) : State :=
  if (s.job job).bind.role ≠ 1 then s
  else match s.rx.slots.find? (fun x => x.idx == slot) with
    | none => s
    | some x => (x.allocs.filter (fun a => a.frond == f && !a.done)).foldl (fun t a => t.lateReport slot a 0) s

/-- The status record is written and POST is posted (R373); a post past 65,535 leaves its counter (R138). -/
def State.opStatus (s : State) (f : Fin 6) (c : List Word) (result m rel : Nat) : State :=
  let s := s.store (opAddr c 7) ([BitVec.ofNat 8 result, 0, 0, 0] ++ toLE 4 m ++ toLE 4 rel ++ zeros 20)
  (s.cmdPost f c 6 0).getD s

/-- The operation succeeds at this member. -/
def State.opDone (s : State) (o : GrpOp) (m rel : Nat) : State :=
  match o.frond with
  | some f => (s.dropOp o).opStatus f o.cmd 0 m rel
  | none => s

/-- What a failure does at a member whose command has issued (R374): RESULT FAIL, RZ_RED_FAIL_CNT, EV_GRP_RED_FAIL, the allocations that depend on it. -/
def State.opFailed (s : State) (f : Fin 6) (c : List Word) (m : Nat) : State :=
  let s := (s.opStatus f c 1 m 0).inc Reg.RZ_RED_FAIL_CNT
  (s.raise 0x0905 0x08 (opJob c) (opRtag c + opJob c <<< 16 + opSlot c <<< 32)).opLate f (opJob c) (opSlot c)

/-- The operation fails at this node (R374): the failure goes to its children, and up with the IDs whose contributions were missing when it did not come from above; rank 0 fences those. -/
def State.opFail (s : State) (job rtag slot : Nat) (missing : List Nat) (up : Bool) : State :=
  let o := s.opOf job rtag slot
  let set := s.setOf slot
  let r := set.idxOf s.selfId
  if o.failed || set.isEmpty then s
  else
    let s := s.putOp { o with failed := true, frond := none, cmd := [], parts := [] }
    let tag := opTag job rtag slot true
    let s := (kids r set.length).foldl (fun t c => t.rzSend 0x21 job (set.getD c 0) tag []) s
    let s := if r = 0 then (if s.leads then s.fenceIds (missing.map (fun i => (i, 4))) else s)
      else if up then s.rzSend 0x20 job (set.getD ((r - 1) / 4) 0) tag (missing.flatMap (fun i => toLE 2 i)) else s
    match o.frond with
    | some f => s.opFailed f o.cmd set.length
    | none => s

/-! ### Progress (R370, R374, R376) -/

/-- A part whose inputs are all present is combined in rank order and sent to the parent; at rank 0 it is the result, which with ALL goes down again (R370). -/
def State.combine (s : State) (o : GrpOp) (set : List Nat) (r : Nat) (k : Nat) : GrpOp × State :=
  let p := o.part k
  let ch := kids r set.length
  let tag := opTag o.job o.rtag o.slot false
  match p.input r with
  | none => (o, s)
  | some own =>
    if p.sent || ch.any (fun c => (p.input c).isNone) then (o, s)
    else
      let acc := ch.foldl (fun a c => addElems (cfield o.cmd 0 2 2) a ((p.input c).getD [])) own
      let o' := o.setPart { p with sent := true, result := if r = 0 then some acc else p.result }
      if r = 0 then
        let s := s.store (opAddr o.cmd 3 + 8192 * k) acc
        (o', if cfield o.cmd 0 4 1 = 1 then ch.foldl (fun t c => t.rzSend 0x21 o.job (set.getD c 0) tag acc) s else s)
      else (o', s.rzSend 0x20 o.job (set.getD ((r - 1) / 4) 0) tag acc)

/-- A part of a BCAST at rank 0 goes to its children; rank 0 writes it to its own DST as well (R373; log 28). -/
def State.spread (s : State) (o : GrpOp) (set : List Nat) (r : Nat) (k : Nat) : GrpOp × State :=
  let p := o.part k
  if r ≠ 0 ∨ p.sent = true then (o, s)
  else
    let own := (p.input 0).getD []
    let s := s.store (opAddr o.cmd 3 + 8192 * k) own
    (o.setPart { p with sent := true, result := some own },
      (kids 0 set.length).foldl (fun t c => t.rzSend 0x21 o.job (set.getD c 0) (opTag o.job o.rtag o.slot false) own) s)

/-- Whether the data operation is complete at a rank: rank 0, and every rank of a REDUCE without ALL, once its parts are sent; else once every part's result is here. -/
def GrpOp.complete (o : GrpOp) (r n : Nat) : Bool :=
  (List.range n).all (fun k =>
    if r = 0 ∨ (opKind o.cmd = 0 ∧ cfield o.cmd 0 4 1 = 0) then (o.part k).sent else (o.part k).result.isSome)

/-- A BARRIER whose subtree has arrived goes up; rank 0 releases every member (R376). -/
def State.barrierUp (s : State) (o : GrpOp) (set : List Nat) (r : Nat) : State :=
  if o.upSent || !(kids r set.length).all (fun c => o.arrived.contains c) then s.putOp o
  else
    let tag := opTag o.job o.rtag o.slot false
    if r = 0 then
      let now := s.compact s.groupDom
      (s.putOp { o with upSent := true, release := some ((now + s.g Reg.RZ_GRP_CFG_BUDGET * 1000) % 2 ^ 32) }).rzCast 0x23 tag (zeros 4)
    else (s.putOp { o with upSent := true }).rzSend 0x22 o.job (set.getD ((r - 1) / 4) 0) tag []

/-- The operation goes as far as what is here lets it. -/
def State.opAdvance (s : State) (o : GrpOp) : State :=
  let set := s.setOf o.slot
  let r := set.idxOf s.selfId
  match o.frond with
  | none => s.putOp o
  | some _ =>
    if opKind o.cmd = 2 then s.barrierUp o set r
    else
      let n := ceilDiv (opLen o.cmd) 8192
      let x := (List.range n).foldl (fun (x : GrpOp × State) k =>
        if opKind o.cmd = 0 then x.2.combine x.1 set r k else x.2.spread x.1 set r k) (o, s)
      if x.1.complete r n then x.2.opDone x.1 set.length 0 else x.2.putOp x.1

/-! ### Issue (R369, R373) -/

/-- The contribution in parts of 8,192 bytes, as the inputs of rank `r`. -/
def State.ownParts (s : State) (o : GrpOp) (c : List Word) (r : Nat) : GrpOp :=
  (List.range (ceilDiv (opLen c) 8192)).foldl (fun (o : GrpOp) k =>
    let p := o.part k
    o.setPart { p with inputs := p.inputs ++ [(r, s.ld (opAddr c 2 + 8192 * k) (min 8192 (opLen c - 8192 * k)))] }) o

/-- Results that came before a BCAST was issued here go to its DST. -/
def State.lateResults (s : State) (o : GrpOp) (c : List Word) : State :=
  o.parts.foldl (fun t p => match p.result with | some b => t.store (opAddr c 3 + 8192 * p.part) b | none => t) s

/-- A command that has passed its checks begins. A device outside the group has its own contribution back (R369). -/
def State.grpBegin (s : State) (f : Fin 6) (c : List Word) : State :=
  let set := s.setOf (opSlot c)
  let n := opLen c
  let r := set.idxOf s.selfId
  let reads := n != 0 && (opKind c == 0 || r == 0)
  if reads && s.poisoned (opAddr c 2) n then s.consumePoison f 6
  else
    let s := if reads then s.wakeRange (opAddr c 2) n else s
    if set.isEmpty then
      let s := if n = 0 then s else s.store (opAddr c 3) (s.ld (opAddr c 2) n)
      s.opStatus f c 2 1 (if opKind c = 2 then s.compact s.groupDom else 0)
    else
      let o := s.opOf (opJob c) (opRtag c) (opSlot c)
      if o.failed then s.opFailed f c set.length
      else
        let o := { (if reads then s.ownParts o c r else o) with frond := some f, cmd := c }
        (s.lateResults o c).opAdvance o

/-- The command at the head of a frond's queue issues when its KIND is asked for; one that breaks a rule is not run and its job faults (R373). -/
def State.grpIssue (s : State) (f : Fin 6) (k : Nat → Bool) : State :=
  match (s.fr f).grp, s.jobOf f with
  | c :: q, some j =>
    if !s.frondRuns f || !k (opKind c) then s
    else
      let s := s.setGrpQ f q
      let code := s.grpCheck f j c
      if code = 0 then s.grpBegin f c
      else (s.raise 0x0906 0x08 j (code + opJob c <<< 4 + f.val <<< 8 + opSlot c <<< 32)).frondFault f 0x0906 0x08
  | _, _ => s

/-- REDUCE (R370, R373): the head command contributes to its reduction. A command of the reserved KIND is refused here. -/
def execReduce (f : Fin 6) (s : State) : Host.Outcome State Fault Refusal :=
  act (fun s => s.grpIssue f (fun k => k == 0 || k == 3)) s

/-- BCAST (R373): the head command sends or awaits rank 0's data. -/
def execBcast (f : Fin 6) (s : State) : Host.Outcome State Fault Refusal :=
  act (fun s => s.grpIssue f (fun k => k == 1)) s

/-- GROUP_BARRIER (R376): the head command arrives at its barrier. -/
def execGroupBarrier (f : Fin 6) (s : State) : Host.Outcome State Fault Refusal :=
  act (fun s => s.grpIssue f (fun k => k == 2)) s

/-! ### Frames (R370, R374, R376) -/

/-- RED_UP (R370, R374): a part of a child joins its operation, the next of that child; or the child reports a failure with the IDs that were missing. -/
def execRedUp (fr : RzFrame) (s : State) : Host.Outcome State Fault Refusal :=
  act (fun s => s.rzReceive fr 0x20 (fun s =>
    let k := s.opKey fr
    let set := s.setOf k.2.2
    let r := set.idxOf s.selfId
    let c := set.idxOf fr.src.toNat
    if !(kids r set.length).contains c then s
    else if fr.tag.getLsbD 31 then
      s.opFail k.1 k.2.1 k.2.2 ((List.range (fr.payload.length / 2)).map (fun i => le fr.payload (2 * i) 2)) true
    else
      let o := s.opOf k.1 k.2.1 k.2.2
      if o.failed then s
      else
        let n := o.parts.countP (fun p => (p.input c).isSome)
        let p := o.part n
        s.opAdvance (o.setPart { p with inputs := p.inputs ++ [(c, fr.payload)] }))) s

/-- RED_DOWN (R370, R374): the next part of a result arrives from the parent, is written to DST once the command is known, and goes on to the children; or the failure does. -/
def execRedDown (fr : RzFrame) (s : State) : Host.Outcome State Fault Refusal :=
  act (fun s => s.rzReceive fr 0x21 (fun s =>
    let k := s.opKey fr
    let set := s.setOf k.2.2
    let r := set.idxOf s.selfId
    if r = 0 ∨ set.length ≤ r ∨ set.getD ((r - 1) / 4) 0 ≠ fr.src.toNat then s
    else if fr.tag.getLsbD 31 then s.opFail k.1 k.2.1 k.2.2 [] false
    else
      let o := s.opOf k.1 k.2.1 k.2.2
      if o.failed then s
      else
        let n := o.parts.countP (fun p => p.result.isSome)
        let o := o.setPart { o.part n with result := some fr.payload }
        let s := (kids r set.length).foldl (fun t c => t.rzSend 0x21 o.job (set.getD c 0) (opTag o.job o.rtag o.slot false) fr.payload) s
        let s := if o.frond.isSome then s.store (opAddr o.cmd 3 + 8192 * n) fr.payload else s
        s.opAdvance o)) s

/-- BAR_ARRIVE (R376): a child's subtree has arrived. -/
def execBarArrive (fr : RzFrame) (s : State) : Host.Outcome State Fault Refusal :=
  act (fun s => s.rzReceive fr 0x22 (fun s =>
    let k := s.opKey fr
    let set := s.setOf k.2.2
    let c := set.idxOf fr.src.toNat
    if !(kids (set.idxOf s.selfId) set.length).contains c then s
    else
      let o := s.opOf k.1 k.2.1 k.2.2
      if o.failed then s else s.opAdvance { o with arrived := o.arrived ++ [c] })) s

/-- The barrier releases at this member (R376): status record with the release time, and POST. The release edge in the array islands is a time edge and leaves no state. -/
def State.barrierRelease (s : State) (o : GrpOp) (t : Nat) : State := s.opDone o (s.setOf o.slot).length t

/-- BAR_RELEASE (R376): the member releases BUDGET − CORR after its time of arrival, or at once and late when CORR is above BUDGET. -/
def execBarRelease (fr : RzFrame) (s : State) : Host.Outcome State Fault Refusal :=
  act (fun s => s.rzReceive fr 0x23 (fun s =>
    let k := s.opKey fr
    let o := s.opOf k.1 k.2.1 k.2.2
    let corr := le fr.payload 0 4
    let budget := s.g Reg.RZ_GRP_CFG_BUDGET * 64000
    let now := s.compact s.groupDom
    if o.failed || o.frond.isNone || !o.upSent || o.release.isSome then s
    else if budget < corr then (s.inc Reg.RZ_BAR_LATE_CNT).barrierRelease o now
    else s.putOp { o with release := some ((now + rneDiv (budget - corr) 64) % 2 ^ 32) })) s

/-- Whether a compact time of the group domain has come. -/
def State.groupPast (s : State) (t : Nat) : Bool := decide (0 ≤ ctDiff (s.compact s.groupDom) t)

/-- BARRIER_RELEASE_TIME (R376): the local release time is reached. -/
def execBarrierReleaseTime (f : Fin 6) (rtag : BitVec 16) (slotIdx : Word) (s : State) : Host.Outcome State Fault Refusal :=
  act (fun s =>
    match s.grp.ops.find? (fun o => o.frond == some f && o.rtag == rtag.toNat && o.slot == slotIdx.toNat) with
    | none => s
    | some o => match o.release with
      | some t => if s.groupPast t then s.barrierRelease o t else s
      | none => s) s

/-- The IDs of the children whose contributions an operation lacks at its deadline (R374). -/
def GrpOp.missing (o : GrpOp) (set : List Nat) (r : Nat) : List Nat :=
  ((kids r set.length).filter (fun c =>
    if opKind o.cmd = 2 then !o.arrived.contains c
    else opKind o.cmd == 0 && (List.range (ceilDiv (opLen o.cmd) 8192)).any (fun k => !(o.part k).sent && ((o.part k).input c).isNone))).map (fun c => set.getD c 0)

/-- GROUP_OP_DEADLINE (R374): an operation that still waits at DL fails for every member; a barrier already released does not. -/
def execGroupOpDeadline (f : Fin 6) (rtag : BitVec 16) (slotIdx : Word) (s : State) : Host.Outcome State Fault Refusal :=
  act (fun s =>
    match s.grp.ops.find? (fun o => o.frond == some f && o.rtag == rtag.toNat && o.slot == slotIdx.toNat) with
    | none => s
    | some o =>
      let set := s.setOf o.slot
      if o.release.isSome || !s.groupPast (cfield o.cmd 5 0 32) then s
      else s.opFail o.job o.rtag o.slot (o.missing set (set.idxOf s.selfId)) true) s

end Sys2Proof.Machine
end

