-- ==== Sys2Proof/Machine/Silo.lean ====
section
/-!
DEFINITION. Labels and the silo (09 R268 to R278): which groups are due a record, records written by the label writer, records read back and checked, epochs and their shuffle.
-/
namespace Sys2Proof.Machine

open Sys2Proof (Byte Word LabelRec LabelEnc)

/-! ### What is due (R269, R270) -/

/-- Whether a slot is held out (R270). -/
def State.heldOut (s : State) (idx : Nat) : Bool := let m := s.g Reg.JOB_TRN_CFG_HOLD_MOD; idx % m == m - 1

/-- The groups of a slot that are due a record, by number (R270). -/
def State.dueGroups (s : State) (x : RxSlot) : List Nat :=
  let n := (groupsOf x.allocs).length
  if s.g Reg.JOB_TRN_TRING_NREC = 0 ∨ n = 0 then []
  else if s.heldOut x.idx then [x.idx / s.g Reg.JOB_TRN_CFG_HOLD_MOD % n]
  else if x.idx % s.g Reg.JOB_TRN_CFG_EVERY = 0 then List.range n
  else []

/-- The members of a group by its number. -/
def RxSlot.members (x : RxSlot) (g : Nat) : List Alloc := (groupsOf x.allocs).getD g []

/-- The label ENCODE of an allocation (R242, R268): its ENCODE field and tag, its decoded bits as SRC. -/
def encodeCmd (tag : Nat) (a : Alloc) (w : LabelEnc) : List Word :=
  [1, BitVec.ofNat 32 tag, BitVec.ofNat 32 (a.dec.getD 0), w.dst.zeroExtend 32, w.stat.zeroExtend 32, BitVec.ofNat 32 (a.coded + a.qm <<< 24),
    BitVec.ofNat 32 a.layers, 0] ++ (List.range 4).map (fun i => BitVec.ofNat 32 (le a.decode (4 * i) 4)) ++ [0, 0, 0, 0]

/-- One label ENCODE is pushed (R268, R269): for a passed member of a group that is due a record, while the thresher's queue has room and holds no DECODE. -/
def State.labelPush (s : State) (f : Fin 6) (x : RxSlot) (due : List Nat) (w : LabelEnc) : State :=
  let q := (s.fr f).thr.queue
  match s.alloc x.idx w.index.toNat with
  | none => s
  | some a =>
    if a.frond = f ∧ a.crcOk = true ∧ a.labelled = 0 ∧ due.contains a.index = true ∧ q.length < 32 ∧ q.all (fun c => cfield c 0 0 2 != 0) = true then
      (s.modThr f (fun t => { t with queue := t.queue ++ [encodeCmd (allocTag x.idx (s.g Reg.JOB_RX_CFG_SCS) a.index) a w] })).modAlloc x.idx a.index
        (fun b => { b with labelled := 1 })
    else s

/-- LABEL_WORK_START (R268, R269): once every allocation of the frond's is delivered, the frond controller issues label ENCODEs for passed members of its groups that are due a record. Their places are its choice. -/
def execLabelWorkStart (f : Fin 6) (idx : BitVec 17) (work : List LabelEnc) (s : State) : Host.Outcome State Fault Refusal :=
  act (fun s =>
    match s.rx.slots.find? (fun x => x.idx == idx.toNat && x.edge && !x.ended) with
    | none => s
    | some x =>
      if s.on Reg.JOB_TRN_CTL_PAUSE || s.pastD x || !(x.allocs.filter (fun a => a.frond == f)).all (fun a => a.done) then s
      else
        let due := (s.dueGroups x).flatMap (fun g => (x.members g).map (fun a => a.index))
        work.foldl (fun t w => t.labelPush f x due w) s) s

/-! ### Records (R270 to R274) -/

/-- The window of a record: first PRB and PRBs (R270). -/
def State.window (s : State) (idx : Nat) (g : Nat) (a : Alloc) : Nat × Nat :=
  if s.heldOut idx then (a.prb0, a.nprb)
  else
    let w := s.g Reg.JOB_TRN_LABEL_WPRB
    let w0 := a.prb0 + ((idx / s.g Reg.JOB_TRN_CFG_EVERY + g) % ceilDiv a.nprb w) * w
    (w0, min w (a.prb0 + a.nprb - w0))

/-- Lengths of the regions P, Y, NF, X and B (R274). -/
def regionLens (nport w : Nat) (ms : List Alloc) : List Nat :=
  let a := ms.headD (entryAlloc [])
  let layers := ms.foldl (fun (n : Nat) m => n + m.layers) 0
  let qsum := ms.foldl (fun (n : Nat) m => n + m.layers * m.qm) 0
  let nd := a.nsym - popCount 14 a.pilotMap
  [32 * ms.length, a.nsym * 12 * w * nport * 2, 2 * nport * w, a.nsym * 12 * w * layers * 2, ceilDiv (nd * 12 * w * qsum) 8]

/-- A region padded to whole 64 bytes (R274). -/
def padded (n : Nat) (b : List Byte) : List Byte := let b := (b ++ zeros n).take n; b ++ zeros (64 * ceilDiv n 64 - n)

/-- REC_LEN of region lengths (R275). -/
def recLen (l : List Nat) : Nat := 128 + l.foldl (fun (n : Nat) k => n + 64 * ceilDiv k 64) 0

/-- Region Y (R217, R274): the CI8 copy of the window, an erased RE as 0. -/
def RxSlot.samplesCi8 (x : RxSlot) (nport w0 w : Nat) (a : Alloc) : List Byte :=
  a.syms.flatMap (fun sym => (List.range (12 * w)).flatMap (fun c => (List.range nport).flatMap (fun p => ci8Bytes (x.ci8 sym p (12 * w0 + c)))))

/-- SHIFT of a record (R217, R273): a shift for each symbol of the group, 0xFF for the others. -/
def RxSlot.shifts (x : RxSlot) (a : Alloc) : List Byte :=
  (List.range 14).map (fun sym => if a.syms.contains sym then BitVec.ofNat 8 (x.shiftFor a sym) else 0xFF)

/-- Region X (R268, R274): label symbols in CI8. Layers of members that did not pass hold only pilots (R270); with QM 1, for which R261 gives no symbol, data REs hold free values (log 29). -/
def State.labelSymbols (s : State) (x : RxSlot) (ms : List Alloc) (w0 w : Nat) : List Byte :=
  let sect := s.graphBytes (s.roleJob 1)
  let pats := s.pilotPatterns
  let ls := (groupLayers ms).map (fun e => (e.1, e.2, (lsbBits e.1.bits).toArray))
  let a := ms.headD (entryAlloc [])
  let n := a.nsym * 12 * w * ls.length * 2
  let l := a.syms.flatMap (fun sym => (List.range (12 * w)).flatMap (fun k => ls.flatMap (fun e =>
    let pilot := e.1.pilotMap.testBit sym
    if !pilot && !e.1.crcOk then [some 0, some 0]
    else if !pilot && e.1.qm == 1 then [none, none]
    else
      let v := e.1.reSymbol sect pats x.idx e.2.2 sym (12 * w0 + k) e.2.1
      [some (BitVec.ofInt 8 v.1), some (BitVec.ofInt 8 v.2)])))
  l.zipIdx.map (fun e => e.1.getD ((s.freeBytes n).1.getD e.2 0))

/-- Region B (R274): codeword bits of the data REs in the window, member by member, in the order of R226; of a member that did not pass R274 states no bits: free values (log 29). -/
def State.labelBits (s : State) (ms : List Alloc) (w0 w : Nat) : List Byte :=
  let l : List (Option Bool) := ms.flatMap (fun (m : Alloc) =>
    let bs := (lsbBits m.bits).toArray
    m.dataSyms.flatMap (fun sym => (List.range (12 * w)).flatMap (fun k => (List.range m.layers).flatMap (fun j =>
      let o := m.codePos sym (12 * w0 + k) j
      (List.range m.qm).map (fun i => if m.crcOk then some (bs.getD (o + i) false) else none)))))
  let n := ceilDiv l.length 8
  packLsb n (l.zipIdx.map (fun e => e.1.getD (((s.freeBytes n).1.getD (e.2 / 8) 0).getLsbD (e.2 % 8))))

/-- Region NF (R227, R274): X_NF of each port and PRB under the latest completed noise table, with the shift of the group's first pilot symbol (DEDUCED, log 29), then X_ERS. -/
def State.labelNoise (s : State) (x : RxSlot) (a : Alloc) (nport w0 w : Nat) : List Byte :=
  (List.range nport).flatMap (fun p => (List.range w).map (fun k =>
    xNf (sget 1023 s.rx.codes (s.noiseKey p (12 * (w0 + k)))) (x.shiftFor a a.sym0))) ++
  (List.range nport).flatMap (fun p => (List.range w).map (fun k => x.erased8 a p (w0 + k)))

/-- The bytes of a record (R273, R274) with its CRC. -/
def State.siloRecord (s : State) (x : RxSlot) (w : LabelRec) (rseq : Nat) : List Byte :=
  let ms := x.members w.group
  let a := ms.headD (entryAlloc [])
  let win := s.window x.idx w.group a
  let nport := s.g Reg.JOB_RX_CFG_NPORT
  let lens := regionLens nport win.2 ms
  let held := s.heldOut x.idx
  let pass := maskOf ((List.range ms.length).filter (fun i => (ms[i]?.map (fun m => m.crcOk)).getD false))
  let head := toLE 2 0x4C53 ++ toLE 1 1 ++ toLE 1 (b2n held + b2n (win == (a.prb0, a.nprb)) <<< 1) ++ toLE 4 (recLen lens) ++ toLE 8 rseq ++
    toLE 8 (x.start / 1000000000) ++ toLE 4 (x.start % 1000000000 + domNo s.rxDom <<< 30) ++ toLE 4 x.idx ++ toLE 2 nport ++ toLE 1 ms.length ++
    toLE 1 (ms.foldl (fun (n : Nat) m => n + m.layers) 0) ++ toLE 2 win.1 ++ toLE 2 win.2 ++ toLE 4 pass ++ toLE 4 x.mset ++ zeros 8 ++
    x.shifts a ++ zeros 2 ++ lens.flatMap (fun n => toLE 4 n) ++ zeros 32
  let body := padded (lens.getD 0 0) (ms.flatMap (fun m => m.entry)) ++ padded (lens.getD 1 0) (x.samplesCi8 nport win.1 win.2 a) ++
    padded (lens.getD 2 0) (s.labelNoise x a nport win.1 win.2) ++
    padded (lens.getD 3 0) (s.labelSymbols x ms win.1 win.2) ++ padded (lens.getD 4 0) (s.labelBits ms win.1 win.2)
  head ++ toLE 4 (crc32 (head ++ zeros 4 ++ body)) ++ body

/-! ### Rings (R271, R272, R276) -/

/-- The next training RSEQ (R294). -/
def State.rseq (s : State) : Nat := s.g64 Reg.JOB_TRN_RSEQ_LO Reg.JOB_TRN_RSEQ_HI

/-- Device address of a record slot: of the held-out ring or the training ring (R272). -/
def State.siloAddr (s : State) (held : Bool) (rseq : Nat) : Nat :=
  if held then brnBase + s.g Reg.JOB_TRN_SILO_BASE_HBASE * 0x100000 + rseq % s.g Reg.JOB_TRN_HRING_NHREC * s.g Reg.JOB_TRN_HRING_HSLOT * 4096
  else brnBase + s.g Reg.JOB_TRN_SILO_BASE_TBASE * 0x100000 + rseq % s.g Reg.JOB_TRN_TRING_NREC * s.g Reg.JOB_TRN_TRING_TSLOT * 4096

/-- Bytes of a record slot. -/
def State.siloSlot (s : State) (held : Bool) : Nat := 4096 * (if held then s.g Reg.JOB_TRN_HRING_HSLOT else s.g Reg.JOB_TRN_TRING_TSLOT)

/-- Whether the next training record would overwrite one of the snapshot while an epoch runs (R276). -/
def State.snapHolds (s : State) (rseq : Nat) : Bool :=
  let n := s.g Reg.JOB_TRN_TRING_NREC
  s.trn.running && (match s.trn.snap with | some p => decide (n ≤ rseq ∧ p.1 + n ≤ rseq ∧ rseq < p.1 + p.2 + n) | none => false)

/-- The label bucket's credit now, in quarter bytes (R271): SILO_BW × 0.25 GB/s, capped at 1 ms of it. -/
def State.siloCredit (s : State) : Nat :=
  let bw := s.g Reg.JOB_TRN_LABEL_SILO_BW
  min (1000000 * bw) (s.trn.credit + bw * (s.ticks - s.trn.creditAt))

/-- Members of a group marked as recorded, or as skipped for good. -/
def State.labelDone (s : State) (idx : Nat) (ms : List Alloc) : State :=
  s.modRxSlot idx (fun y => { y with allocs := y.allocs.map (fun a => if ms.any (fun m => m.index == a.index) then { a with labelled := 3 } else a) })

/-- Whether a group gives no record any more: it has one or was skipped, or all its members are reported and none passed (R270, R271). -/
def labelOver (ms : List Alloc) : Bool := ms.any (fun m => m.labelled == 3) || ms.all (fun m => m.done && !m.crcOk)

/-- LABEL_RECORD_WRITE (R270 to R274, R276): in ascending group number within the slot (R271), the record of a group whose passed members all have their codeword bits: too large or without credit it is skipped, over the snapshot it is skipped, else it is written with the next RSEQ of its ring. -/
def execLabelRecordWrite (w : LabelRec) (s : State) : Host.Outcome State Fault Refusal :=
  act (fun s =>
    match s.rx.slots.find? (fun x => x.idx == w.idx.toNat && x.edge && !x.ended) with
    | none => s
    | some x =>
      let ms := x.members w.group
      let ready := !s.on Reg.JOB_TRN_CTL_PAUSE && !s.pastD x && (s.dueGroups x).contains w.group && ms.any (fun m => m.crcOk) &&
        ((s.dueGroups x).filter (fun g => decide (g < w.group))).all (fun g => labelOver (x.members g)) &&
        ms.all (fun m => m.done && (!m.crcOk || m.labelled == 2)) && !ms.any (fun m => m.labelled == 3)
      if !ready then s
      else
        let held := s.heldOut x.idx
        let rseq := if held then s.trn.heldSeq else s.rseq
        let r := s.siloRecord x w rseq
        let s := (s.labelDone x.idx ms).freeBytes 0 |>.2
        if s.siloSlot held < r.length ∨ (held = true ∧ s.g Reg.JOB_TRN_HRING_NHREC = 0) then s.inc Reg.JOB_TRN_LABEL_SKIP_CNT
        else if !held && s.snapHolds rseq then s.inc Reg.JOB_TRN_SILO_FULL_CNT
        else
          let c := s.siloCredit
          if c < 4 * r.length then s.inc Reg.JOB_TRN_LABEL_SKIP_CNT
          else
            let s := { s with trn := { s.trn with credit := c - 4 * r.length, creditAt := s.ticks, heldSeq := s.trn.heldSeq + b2n held } }
            let s := (s.loftStore (s.roleJob 1) (s.siloAddr held rseq) r).inc Reg.JOB_TRN_LABEL_CNT
            if held then s else (s.p Reg.JOB_TRN_RSEQ_LO ((rseq + 1) % 2 ^ 32)).p Reg.JOB_TRN_RSEQ_HI ((rseq + 1) / 2 ^ 32)) s

/-- LABEL_CANCEL (R269): at D(n) a group that is due a record and has a passed member, but no record, loses its label work: THR_CANCEL for each of its tags, one count for the group. -/
def State.labelCancel (s : State) (x : RxSlot) : State :=
  (s.dueGroups x).foldl (fun t g =>
    let ms := x.members g
    if ms.any (fun m => m.labelled == 1 || m.labelled == 2) && !ms.any (fun m => m.labelled == 3) then
      (((ms.filter (fun m => m.labelled == 1)).foldl (fun t m => t.thrCancel m.frond (allocTag x.idx (t.g Reg.JOB_RX_CFG_SCS) m.index)) t).labelDone x.idx ms).inc Reg.JOB_TRN_LABEL_DROP_CNT
    else t) s

/-! ### Reading a record back (R275) -/

/-- Whether the fields of a header and its members are in order (reason 4). -/
def State.recFields (s : State) (h : List Byte) (p : List Byte) (held : Bool) : Bool :=
  let nmem := byteAt h 34 % 64
  let es := (List.range nmem).map (fun i => (p.drop (32 * i)).take 32)
  let ms := es.map entryAlloc
  let a := ms.headD (entryAlloc [])
  let c := { s.rxPlanCfg with nport := le h 32 2 }
  decide (le h 24 4 % 2 ^ 30 < 1000000000 ∧ bits (le h 24 4) 30 2 ≤ 1 ∧ le h 28 4 < 1024 * c.spf) && bit (byteAt h 3) 0 == held &&
    decide (1 ≤ le h 32 2 ∧ le h 32 2 ≤ 256 ∧ 1 ≤ nmem ∧ nmem ≤ 32 ∧ 1 ≤ byteAt h 35 ∧ byteAt h 35 ≤ 32 ∧ 1 ≤ le h 38 2 ∧ le h 38 2 ≤ 275) &&
    decide (byteAt h 35 = ms.foldl (fun (n : Nat) m => n + m.layers) 0) && ms.all (fun m => m.sameShape a) &&
    es.all (fun e => !c.entryBad e (entryAlloc e)) && ms.all (fun m => !c.rangeBad m) && (firstBad (fun a b => c.layerBad a b) ms).isNone &&
    decide (a.prb0 ≤ le h 36 2 ∧ le h 36 2 + le h 38 2 ≤ a.prb0 + a.nprb)

/-- The reason of R275 for which a record fails, 0 for a good one. -/
def State.recBad (s : State) (held : Bool) (rseq : Nat) : Nat :=
  let addr := s.siloAddr held rseq
  let h := s.ld addr 128
  let nmem := byteAt h 34 % 64
  let p := s.ld (addr + 128) (32 * nmem)
  let lens := regionLens (le h 32 2) (le h 38 2) ((List.range nmem).map (fun i => entryAlloc ((p.drop (32 * i)).take 32)))
  let n := le h 4 4
  if s.poisoned addr 128 then 1
  else if le h 0 2 ≠ 0x4C53 ∨ byteAt h 2 ≠ 1 ∨ byteAt h 3 / 4 ≠ 0 ∨ le h 28 4 / 2 ^ 17 ≠ 0 ∨ le h 32 2 / 512 ≠ 0 ∨ byteAt h 34 / 64 ≠ 0 ∨ byteAt h 35 / 64 ≠ 0 ∨
      le h 36 2 / 512 ≠ 0 ∨ le h 38 2 / 512 ≠ 0 ∨ zeroRange h 48 8 = false ∨ zeroRange h 70 2 = false ∨ zeroRange h 92 32 = false then 2
  else if le h 8 8 ≠ rseq then 3
  else if !s.recFields h p held then 4
  else if lens ≠ (List.range 5).map (fun i => le h (72 + 4 * i) 4) ∨ n ≠ recLen lens ∨ s.siloSlot held < n then 5
  else if s.poisoned addr n then 1
  else if crc32 (h.take 124 ++ zeros 4 ++ (s.ld addr n).drop 128) ≠ le h 124 4 then 6
  else 0

/-- What reading a record for a reason takes from the barn, through the loft cache (R275, R312): the header; its members when the header's own fields pass; the body when its lengths do. -/
def State.recTouch (s : State) (held : Bool) (rseq reason : Nat) : State :=
  let a := s.siloAddr held rseq
  let h := s.ld a 128
  let n := if reason = 0 ∨ reason = 6 ∨ (reason = 1 ∧ s.poisoned a 128 = false) then le h 4 4
    else if reason = 4 ∨ reason = 5 then 128 + 32 * (byteAt h 34 % 64) else 128
  s.loftRange (s.roleJob 3) a n

/-- A corrupt sample (R275, R278): EV_SILO_SAMPLE_BAD, JOB_TRN_SILO_BAD_CNT. -/
def State.sampleBad (s : State) (i epoch reason : Nat) (held : Bool) : State :=
  (s.inc Reg.JOB_TRN_SILO_BAD_CNT).raise 0x0501 0x06 (jobByte (s.roleJob 3)) (i % 2 ^ 32 + (epoch % 65536) <<< 32 + reason <<< 48 + b2n held <<< 56)

/-! ### Shuffle (R277) -/

/-- mix32. -/
def mix32 (x : Nat) : Nat :=
  let x := (x ^^^ (x >>> 16)) * 0x85EBCA6B % 2 ^ 32
  let x := (x ^^^ (x >>> 13)) * 0xC2B2AE35 % 2 ^ 32
  x ^^^ (x >>> 16)

/-- Four rounds over the halves of a number of 2 h bits. -/
def feistel (h seed e : Nat) (x : Nat) : Nat :=
  let mask := 2 ^ h - 1
  let lr := (List.range 4).foldl (fun (p : Nat × Nat) rnd =>
    let k := mix32 (seed ^^^ mix32 e ^^^ (rnd * 0x9E3779B9 % 2 ^ 32))
    (p.2, p.1 ^^^ (mix32 (p.2 ^^^ k) &&& mask))) (x >>> h, x &&& mask)
  lr.1 <<< h ||| lr.2

/-- Cycle walking until a value below n. -/
def permWalk (h n seed e : Nat) : Nat → Nat → Nat
  | 0, x => x
  | fuel + 1, x => let y := feistel h seed e x; if y < n then y else permWalk h n seed e fuel y

/-- perm(i). -/
def perm (i n seed e : Nat) : Nat :=
  let len := if n ≤ 1 then 0 else Nat.log2 (n - 1) + 1
  let h := max 1 ((len + 1) / 2)
  permWalk h n seed e (4 ^ h) i

end Sys2Proof.Machine
end

