-- ==== Sys2Proof/Machine/Gate.lean ====
section
/-!
DEFINITION. The promotion gate's figures (09 R284, R285): which held-out records it runs over, what both learned paths decode from each, and the test on the sums.
-/
namespace Sys2Proof.Machine

open Sys2Proof (Byte Word Layer CandSub)

/-! ### Mutual information (R284) -/

/-- e^(k/4) times 2^128, for k of 0 or more, by its series and repeated squaring of e^(1/4). -/
def expQuarter : Nat → Nat
  | 0 => 2 ^ 128
  | k + 1 => expQuarter k * expSeries 40 0 (2 ^ 126) (2 ^ 128) / 2 ^ 128

/-- lut(t) (R284): 1 − log2(1 + e^(−t/4)) in units of 2^-12, rounded to nearest, at least −65,536. -/
def miLut (t : Int) : Int :=
  -- 1 + e^(-t/4) as a ratio to 2^128, or to e^(t/4)
  let k := expQuarter t.natAbs
  let l := if t ≤ 0 then (log2Num (2 ^ 128 + k) (-128)).1 else (log2Num (2 ^ 128 + k) 0).1 - (log2Num k 0).1
  max (-65536) (4096 - (l + 2 ^ 77) / (2 ^ 78 : Nat))

/-! ### Records (R284) -/

/-- The newest good held-out records, going back from a number (R284); bad ones are reported. -/
def State.goodHeld (s : State) : Nat → Nat → Nat → List Nat → List Nat × State
  | 0, _, _, l => (l, s)
  | fuel + 1, next, need, l =>
    if need = 0 ∨ next = 0 then (l, s)
    else
      let r := s.recBad true (next - 1)
      let s := s.recTouch true (next - 1) r
      if r = 0 then s.goodHeld fuel (next - 1) (need - 1) ((next - 1) :: l)
      else (s.sampleBad (next - 1) s.trn.epoch r true).goodHeld fuel (next - 1) need l

/-- The layers of the models of roles 0 and 1 in use, as numbers. -/
def State.modelCode (s : State) : List Byte :=
  ([0, 1].flatMap (fun r => (s.slotLayers (s.activeSlot r)).getD [])).flatMap (fun l => (putLayer l).flatMap num8)

/-- The figures of one learned path over a record (R284): every member that passed is decoded with its PARAM from that path's LLRs; the mutual information sums lut over them against the codeword bits of region B. -/
def State.gateFigures (s : State) (f : Fin 6) (r : List Byte) (models : List (List Byte)) (et : EdgeTable) : GateFigures :=
  let ms := (List.range (byteAt r 34 % 64)).map (fun i => entryAlloc ((r.drop (128 + 32 * i)).take 32))
  let lens := regionLens (le r 32 2) (le r 38 2) ms
  let b := r.drop (recLen (lens.take 4))
  let w := 12 * le r 38 2
  (ms.zipIdx.foldl (fun (o : GateFigures × Nat) e =>
    let bits := e.1.dataSyms.length * w * e.1.layers * e.1.qm
    if !(le r 40 4).testBit e.2 then (o.1, o.2 + bits)
    else
      let l := (List.range e.1.coded).map (fun n => llr8 (Config.learnedLlr models r e.2 n))
      let d := s.decodeLlr f (codeParam e.1.decode) et e.1.qm e.1.layers l
      let mi := l.zipIdx.foldl (fun (m : Int) x => m + miLut (if (byteAt b ((o.2 + x.2) / 8)).testBit ((o.2 + x.2) % 8) then -x.1 else x.1)) 0
      (⟨o.1.s + b2n d.pass, o.1.nl + l.length, o.1.mi + mi, o.1.it + d.iterSum⟩, o.2 + bits)) (⟨0, 0, 0, 0⟩, 0)).1

/-- What the gate computes over the records chosen (R284): on the training job's lowest frond, with the scale records as they stand at its start. -/
def State.gateRecs (s : State) (l : List Nat) : List GateRec :=
  let f := (s.firstFrond (s.roleJob 3)).getD 0
  let scl := s.ld (s.sclAt f 0) 4096
  let edge := s.edgeActive
  let (roles, et) : BitVec 2 × EdgeTable := match s.trn.cand with
    | some (.models r) => (r, edge)
    | some (.edge t) => (0, t.map (fun e => (e.1.toNat, e.2.toNat)))
    | none => (0, edge)
  let inc := [s.modelCode, s.trnBuild, scl]
  let cand := [({ s with trn := { s.trn with active := s.trn.active ^^^ roles } }).modelCode, s.trnBuild, scl]
  l.map (fun n =>
    let a := s.siloAddr true n
    let r := s.ld a (le (s.ld (a + 4) 4) 0 4)
    ⟨n, s.gateFigures f r inc edge, s.gateFigures f r cand et⟩)

/-- Sum of the figures of one model. -/
def sumFigures (l : List GateFigures) : GateFigures :=
  l.foldl (fun (a : GateFigures) g => ⟨a.s + g.s, a.nl + g.nl, a.mi + g.mi, a.it + g.it⟩) ⟨0, 0, 0, 0⟩

/-- Why a set fails the gate (R285, R294): bit 0 S below, bit 1 MI margin short, bit 2 IT above. -/
def gateWhy (edge : Bool) (i c : GateFigures) : Nat :=
  b2n (decide (c.s < i.s)) + b2n (!edge && decide (50 * (c.mi - i.mi) < 4096 * (i.nl : Int))) <<< 1 + b2n (edge && decide (i.it < c.it)) <<< 2

end Sys2Proof.Machine
end

