-- ==== Sys2Proof/Machine/Training.lean ====
section
/-!
DEFINITION. The training job and its promotions (09 R276, R278, R280 to R292): epochs, steps, checkpoints, candidates, the gate, promotion, watch, rollback and persisting.
-/
namespace Sys2Proof.Machine

open Sys2Proof (Byte Word Layer LayerFmt CandSub)

/-- Whether the training job runs (R282); a standby does not run it (R379). -/
def State.trains (s : State) : Bool :=
  match s.roleJob 3 with
  | some j => s.inRun && s.jst j == 1 && !s.standby
  | none => false

/-- Whether a step or a gate may start: the training job runs and JOB_TRN_CTL.PAUSE is 0 (R294). -/
def State.trainsOn (s : State) : Bool := s.trains && !s.on Reg.JOB_TRN_CTL_PAUSE

/-- The state with training state changed; JOB_TRN_STS follows. -/
def State.modTrn (s : State) (g : Trn → Trn) : State := ({ s with trn := g s.trn }).showTrn

/-! ### Epochs and steps (R276 to R280) -/

/-- EPOCH_START (R276): a snapshot of the newest N records; with N below BATCH the epoch does not start. -/
def execEpochStart (s : State) : Host.Outcome State Fault Refusal :=
  act (fun s =>
    let n := min s.rseq (s.g Reg.JOB_TRN_TRING_NREC - s.g Reg.JOB_TRN_RES)
    if !s.trains || s.trn.running || decide (n < s.g Reg.JOB_TRN_CFG_BATCH) then s
    else s.modTrn (fun t => { t with snap := some (s.rseq - n, n), running := true, draw := 0, epoch := t.epoch + 1 })) s

/-- Draws from a draw on until enough good records (R278): bad ones are reported and skipped; the next draw, how many are still missing, and the numbers drawn. -/
def State.drawBatch (s : State) (lo n : Nat) : Nat → Nat → Nat → State × (Nat × Nat × List Nat)
  | 0, i, need => (s, i, need, [])
  | fuel + 1, i, need =>
    if need = 0 then (s, i, 0, [])
    else
      let k := lo + perm i n (s.g Reg.JOB_TRN_SEED) s.trn.epoch
      let r := s.recBad false k
      let s := s.recTouch false k r
      if r = 0 then (let (t, i, m, l) := s.drawBatch lo n fuel (i + 1) (need - 1); (t, i, m, k :: l))
      else (s.sampleBad i s.trn.epoch r false).drawBatch lo n fuel (i + 1) need

/-- FP32 product of two codes. -/
def mulF32 (a b : Nat) : Nat := toF32 ((ofF32 a).mul (ofF32 b))

/-- FP32 difference of two codes. -/
def subF32 (a b : Nat) : Nat := toF32 ((ofF32 a).add (ofF32 b).neg)

/-- Exact quotient cut to 90 bits with a last bit that says whether anything was cut; a zero divisor gives the largest finite value (R180's RCP of zero; log 29). -/
def divF32 (a b : Nat) : Nat :=
  match ofF32 a, ofF32 b with
  | .fin an am ae, .fin bn bm be =>
    if bm = 0 then fp32.maxCode (an != bn)
    else toF32 (.fin (an != bn) (2 * (am <<< 90 / bm) + (if am <<< 90 % bm = 0 then 0 else 1)) (ae - be - 91))
  | _, _ => fp32.nanCode

/-- An exact power of an FP32 code, rounded once (log 29). -/
def powF32 (a t : Nat) : Nat :=
  match ofF32 a with
  | .fin n m e => toF32 (.fin (n && t % 2 == 1) (m ^ t) (e * t))
  | _ => fp32.nanCode

/-- The model section with the hyperparameters: of the active role 0, else of role 1 (R280; log 8). -/
def State.trnSect (s : State) : Option Section := (s.modelSect (s.activeSlot 0)).or (s.modelSect (s.activeSlot 1))

/-- The hyperparameters β1, β2, ε and λ as FP32 codes (R280; log 8). -/
def State.hyper (s : State) (i : Nat) : Nat :=
  match s.trnSect with
  | some x => (match x.extra with | .model m => (m.hyper.getD i 0).toNat | _ => 0)
  | none => 0

/-- lr(t) (R280): by the section's schedule. -/
def State.rate (s : State) (t : Nat) : Nat := match s.trnSect with | some x => (Config.learnRate x.bytes t).toNat | none => 0

/-- The gradient of a batch of records, weight by weight, and the state that has used it: with DET = 1 a function of the records, the working copies and the models and programs alone; with DET = 0 a free number goes into it (R124, R293). -/
def State.gradOf (s : State) (recs : List Nat) : List Word × State :=
  let bs := recs.map (fun k => let a := s.siloAddr false k; s.ld a (le (s.ld (a + 4) 4) 0 4))
  let ms := [s.modelCode, s.trnBuild]
  let (c, s) := if s.det then ([], s) else ([s.freeCtr], { s with freeCtr := s.freeCtr + 1 })
  ((List.range s.trn.w.length).map (fun i => Config.gradient bs s.trn.wb ms c i), s)

/-- Drain scale records of the training job's models (R280): those that their layers name. -/
def State.trnRecords (s : State) : List Nat :=
  (([0, 1].flatMap (fun r => (s.slotLayers (s.activeSlot r)).getD [])).flatMap (fun l => l.scale.map (fun e => e.1 % 256))).eraseDups

/-- Those records adapt, once for the step, on the fronds that work for the training job (R122, R280; DEDUCED, log 29). -/
def State.trnAdapt (s : State) : State :=
  match s.roleJob 3 with
  | none => s
  | some j => (s.heldFronds j).foldl (fun (t : State) (f : Fin 6) => s.trnRecords.foldl (fun (u : State) k => u.adaptRange f k k) t) s

/-- One weight's update (R280), each operation rounded to FP32 in the order written: master, moments, gradient. -/
def State.adam (s : State) (t lr w m v g : Nat) : Nat × (Nat × Nat) :=
  let one := 0x3F800000
  let b1 := s.hyper 0
  let b2 := s.hyper 1
  let eps := s.hyper 2
  let m := addF32 (mulF32 b1 m) (mulF32 (subF32 one b1) g)
  let v := addF32 (mulF32 b2 v) (mulF32 (mulF32 (subF32 one b2) g) g)
  let mh := divF32 m (subF32 one (powF32 b1 t))
  let vh := divF32 v (subF32 one (powF32 b2 t))
  let r := specialFn fp32 0x1A 5 (addF32 vh (mulF32 eps eps))
  (subF32 w (mulF32 lr (addF32 (mulF32 mh r) (mulF32 (s.hyper 3) w))), m, v)

/-- The update of every weight. -/
def State.adamAll (s : State) (t lr : Nat) : List Word → List Word → List Word → List Word → List (Nat × (Nat × Nat))
  | w :: ws, m :: ms, v :: vs, gs => s.adam t lr w.toNat m.toNat v.toNat (gs.headD 0).toNat :: s.adamAll t lr ws ms vs gs.tail
  | _, _, _, _ => []

/-- TRAINING_STEP (R277 to R280): the next BATCH good records are drawn, the masters and moments updated from the batch's gradient at the rate lr(t), the working copies made anew, the drain scale records adapted; when too few draws are left the epoch ends. -/
def execTrainingStep (s : State) : Host.Outcome State Fault Refusal :=
  act (fun s =>
    match s.trainsOn && s.trn.running, s.trn.snap with
    | true, some (lo, n) =>
      let (s, i, missing, recs) := s.drawBatch lo n (n - s.trn.draw) s.trn.draw (s.g Reg.JOB_TRN_CFG_BATCH)
      if missing ≠ 0 then s.modTrn (fun t => { t with running := false, snap := none, draw := n })
      else
        let t := s.g Reg.JOB_TRN_STEP
        let (grad, s) := s.gradOf recs
        let u := s.adamAll t (s.rate t) s.trn.w s.trn.mom1 s.trn.mom2 grad
        let w := u.map (fun e => BitVec.ofNat 32 e.1)
        let s := s.trnAdapt.modTrn (fun x => { x with w := w, wb := workCopies w, mom1 := u.map (fun e => BitVec.ofNat 32 e.2.1), mom2 := u.map (fun e => BitVec.ofNat 32 e.2.2), draw := i, since := x.since + 1 })
        s.p Reg.JOB_TRN_STEP (t + 1)
    | _, _ => s) s

/-- CHECKPOINT_WRITE (R281): every CKPT_STEPS steps the older area is overwritten. -/
def execCheckpointWrite (s : State) : Host.Outcome State Fault Refusal :=
  act (fun s =>
    if !s.trains || decide (s.trn.since < s.g Reg.JOB_TRN_CKPT_CKPT_STEPS) then s
    else
      let b := s.ckptBody
      (s.loftStore (s.roleJob 3) (s.ckptArea (s.trn.ckpt % 2)) (b ++ (Config.sha384 b ++ zeros 48).take 48)).modTrn (fun t => { t with ckpt := t.ckpt + 1, since := 0 })) s

/-! ### Candidates (R283) -/

/-- Codes of weights under one integer shift. -/
def intCodes (w : Nat) (s_w : Int) (l : List Num) : List Int := l.map (fun x => satS w (((x.scale (-s_w)).toIntRne).getD 0))

/-- The smallest shift at which every weight rounds into the format (R283), from −128 to 127. -/
def intShift (w : Nat) (l : List Num) : Int :=
  match (List.range 256).find? (fun (i : Nat) => l.all (fun x => match (x.scale (128 - (i : Int))).toIntRne with | some u => satS w u == u | none => true)) with
  | some i => (i : Int) - 128
  | none => 127

/-- The current SHIFT of a drain scale record (R283): as the receive job's lowest frond holds it (log 29), or the layer's own where no frond does. -/
def State.curShift (s : State) (e : Nat × Int) : Int :=
  match s.firstFrond (s.roleJob 1) with
  | some f => sclShift (s.scl f (e.1 % 256))
  | none => e.2

/-- A TRAIN layer quantised from its masters (R283); `cur` gives the current SHIFT of its drain scale records. -/
def requantLayer (cur : Nat × Int → Int) (l : Layer) (ws : List Word) : Layer :=
  let xs := ws.map (fun w => ofF32 w.toNat)
  let l' : Layer := match l.fmt with
    | .int8 | .int4 =>
      let w := if l.fmt = .int8 then 8 else 4
      let sh := intShift w xs
      { l with shifts := [sh], codes := intCodes w sh xs, scale := l.scale.map (fun e => (e.1, cur e - (sh - l.shifts.headD 0))) }
    | .bs8 | .bs4 =>
      let w := if l.fmt = .bs8 then 8 else 4
      let bl := (List.range (ceilDiv xs.length 32)).map (fun i => (xs.drop (32 * i)).take 32)
      let sh := bl.map (blockShift w (-128))
      { l with scale := l.scale.map (fun e => (e.1, cur e)), shifts := sh, codes := (bl.zip sh).flatMap (fun (e : List Num × Int) => intCodes w e.2 e.1) }
    | .bf16 => { l with scale := l.scale.map (fun e => (e.1, cur e)), codes := xs.map (fun x => ((bf16.encode x).1 : Int)) }
    | .fp16 => { l with scale := l.scale.map (fun e => (e.1, cur e)), codes := xs.map (fun x => ((fp16.encode x).1 : Int)) }
  match l.fmt with
  | .bf16 | .fp16 => l'
  | _ =>
    let n := l'.codes.length / max 1 l.cols
    { l' with colsums := (List.range l.cols).map (fun c => ((l'.codes.drop (n * c)).take n).foldl (· + ·) 0) }

/-- TRAIN layers quantised from masters in order; the masters left over. -/
def requantAll (cur : Nat × Int → Int) : List Layer → List Word → List Layer × List Word
  | [], w => ([], w)
  | l :: ls, w =>
    let n := l.codes.length
    let (r, w') := requantAll cur ls (w.drop n)
    (requantLayer cur l (w.take n) :: r, w')

/-- The candidate slot of a role takes the active model with new TRAIN layers. -/
def State.fillCand (s : State) (role : Nat) (ls : List Layer) : State :=
  let n := s.candSlot role
  (s.setLayers n (overlay ((s.slotLayers (s.activeSlot role)).getD []) ls)).freeSlotBytes (s.roleJob 3) n

/-- A candidate set is written into its slots (R283). -/
def State.takeCand (s : State) (c : CandSub) : State :=
  let s := match c with
    | .models roles =>
      let a := requantAll s.curShift (s.trainLayers 0) s.trn.w
      let b := requantAll s.curShift (s.trainLayers 1) a.2
      let s := if roles.getLsbD 0 then s.fillCand 0 a.1 else s
      if roles.getLsbD 1 then s.fillCand 1 b.1 else s
    | .edge table => { s with trn := { s.trn with edgeCand := some table } }
  s.modTrn (fun t => { t with cand := some c })

/-- CANDIDATE_SUBMIT (R283, R287): not while a gate, a promotion or a watch has the candidate slots. -/
def execCandidateSubmit (cand : CandSub) (s : State) : Host.Outcome State Fault Refusal :=
  act (fun s =>
    if !s.trains || s.trn.gate.isSome || s.trn.pending.isSome || s.trn.watch.isSome || s.pair.waiting then s
    else s.takeCand cand) s

/-! ### The gate (R284, R285) -/

/-- PROMOTION_GATE (R275, R284): with 2,000 held-out records newer than the last IMG reset, the gate runs over the 2,000 newest good ones. -/
def execPromotionGate (s : State) : Host.Outcome State Fault Refusal :=
  act (fun s =>
    let newest := s.trn.heldSeq
    let have_ := min (newest - s.trn.heldBase) (s.g Reg.JOB_TRN_HRING_NHREC)
    if !s.trainsOn || s.trn.cand.isNone || s.trn.gate.isSome || s.trn.pending.isSome || s.trn.watch.isSome || s.pair.waiting || decide (have_ < 2000) then s
    else
      let (l, s) := s.goodHeld have_ newest 2000 []
      if l.length < 2000 then s else s.modTrn (fun t => { t with gate := some (s.gateRecs l) })) s

/-- Whether the other device of a pair stands by and its link is up (R379). -/
def State.hasStandby (s : State) : Bool :=
  s.pairByte.testBit 1 && s.on Reg.RZ_PAIR_STS_ACTIVE && (List.finRange 4).any (fun p => s.rzRole p == 3 && s.rzUp p)

/-- The first slot start edge at least two slot lengths ahead (R286). -/
def State.promoteEdge (s : State) : Nat :=
  let d := s.rxDom
  let scs := s.g Reg.JOB_RX_CFG_SCS
  let t := (s.dom d).nanos + 2 * slotNs scs
  if s.isEdge d scs t then t else s.edgeAfter d scs t

/-- The body of the candidate set as it would be persisted: the set in force once the pointers have moved. -/
def State.candBody (s : State) (c : CandSub) : List Byte :=
  match c with
  | .models roles => ({ s with trn := { s.trn with active := s.trn.active ^^^ roles } }).setBody
  | .edge t => ({ s with trn := { s.trn with edge := some t } }).setBody

/-- Roles of a set, and bit 2 for an edge-class table (R294). -/
def candCode : CandSub → Nat
  | .models roles => roles.toNat
  | .edge _ => 4

/-- The whole set goes to the standby in PAIR_MODEL frames (R379; log 28): 0 a part, 1 the last part. -/
def State.sendModel (s : State) (c : CandSub) : State :=
  let ps := pieces 8000 ((s.candBody c).length + 1) (s.candBody c)
  ps.zipIdx.foldl (fun t e => t.pairSend 0x32 0 ([BitVec.ofNat 8 (b2n (e.2 + 1 == ps.length)), BitVec.ofNat 8 (candCode c)] ++ e.1)) s

/-- GATE_COMPLETE (R285, R286, R379): while the training job runs, a passing set waits for slot p, or in a pair for the standby's acknowledgement; a failing one is rejected. -/
def execGateComplete (s : State) : Host.Outcome State Fault Refusal :=
  act (fun s =>
    match s.trn.gate, s.trn.cand, s.trains with
    | some figs, some c, true =>
      let i := sumFigures (figs.map (fun g => g.inc))
      let k := sumFigures (figs.map (fun g => g.cand))
      let why := gateWhy (candCode c == 4) i k
      if why = 0 then
        if s.hasStandby then ({ s with pair := { s.pair with waiting := true } }.sendModel c).modTrn (fun t => { t with gate := none })
        else s.modTrn (fun t => { t with gate := none, pending := some (.promote s.promoteEdge c) })
      else
        let (fv, s) := if i.nl = 0 then s.free else (BitVec.ofInt 32 (rneDivI ((k.mi - i.mi) * 16) i.nl), s)
        let ds := toBits 16 (clampI (-32767) 32767 ((k.s : Int) - i.s))
        let s := (s.inc Reg.JOB_TRN_REJECT_CNT).raise 0x0503 0x06 (jobByte (s.roleJob 3)) (why + ds <<< 16 + fv.toNat <<< 32)
        s.modTrn (fun t => { t with gate := none, cand := none })
    | _, _, _ => s) s

/-! ### Promotion, watch and rollback (R286 to R288) -/

/-- Thresher banks at a promotion or rollback of an edge-class table (R252, R286): each frond of the receive job has the table in force in the bank that was inactive, and that bank becomes active. -/
def State.flipEdges (s : State) : State :=
  match s.roleJob 1 with
  | none => s
  | some j => (s.jobFronds j).foldl (fun (t : State) (f : Fin 6) =>
      let b := 1 - t.g (Reg.THR_CFG_ACTIVE f)
      let t := ((t.edgeTable f).zipIdx).foldl (fun u e =>
        let w := BitVec.ofNat 32 (e.1.1 + e.1.2 <<< 8)
        u.setReg (if b = 0 then Reg.THR_ETBL0_c_OFFSET f e.2 else Reg.THR_ETBL1_c_OFFSET f e.2).addr w) t
      t.p (Reg.THR_CFG_ACTIVE f) b) s

/-- PROMOTION_EDGE (R286): the slot that starts at `t` is slot p. The pointers move, MSET advances, EV_MODEL_PROMOTED; the watch begins. -/
def State.promotionEdge (s : State) (t : Nat) (c : CandSub) : State :=
  let old := s.g Reg.JOB_TRN_MSET
  let m := s.trn.maxMset + 1
  let w : Watch := ⟨t, (match c with | .models r => r | .edge _ => 0), (match c with | .models _ => none | .edge _ => some s.trn.edge), old⟩
  let s := s.p Reg.JOB_TRN_MSET m
  let s := match c with
    | .models r => { s with trn := { s.trn with active := s.trn.active ^^^ r } }
    | .edge tab => ({ s with trn := { s.trn with edge := some tab } }).flipEdges
  let s := (s.inc Reg.JOB_TRN_PROMO_CNT).raise 0x0502 0x06 (jobByte (s.roleJob 3)) (candCode c + m <<< 32)
  s.modTrn (fun x => { x with maxMset := m, pending := none, cand := none, watch := some w, promoSec := t / 1000000000 })

/-- ROLLBACK_EDGE (R288): the pointers, MSET and the thresher bank go back, the watch ends, EV_MODEL_ROLLBACK. A rollback that R287 fired goes to the standby (R379). -/
def State.rollbackEdge (s : State) (requested crc : Bool) : State :=
  match s.trn.watch with
  | none => s.modTrn (fun x => { x with pending := none })
  | some w =>
    let s := s.p Reg.JOB_TRN_MSET w.mset
    let s := { s with trn := { s.trn with active := s.trn.active ^^^ w.roles, watch := none, pending := none } }
    let s := match w.edge with
      | some e => ({ s with trn := { s.trn with edge := e } }).flipEdges
      | none => s
    let s := (s.inc Reg.JOB_TRN_ROLLBACK_CNT).raise 0x0504 0x06 (jobByte (s.roleJob 3)) (b2n requested + b2n crc <<< 1 + w.mset <<< 32)
    (if !requested && s.hasStandby then s.pairSend 0x32 0 [4, 0] else s).showTrn

/-- What waits for a slot start edge of the receive job takes effect (R286, R288): a promotion once its time has come, the device is in RUN and the receive job runs; a rollback at once. -/
def State.modelEdge (s : State) (t : Nat) : State :=
  let runs := s.inRun && (match s.roleJob 1 with | some j => s.jst j == 1 | none => false)
  match s.trn.pending with
  | some (.promote at_ c) => if runs && decide (at_ ≤ t) then s.promotionEdge t c else s
  | some (.rollback r c) => s.rollbackEdge r c
  | none => s

/-- WATCH_END (R287, R288): WATCH slots from slot p on, the test is applied once more; a set that it leaves in place is settled. -/
def execWatchEnd (s : State) : Host.Outcome State Fault Refusal :=
  act (fun s =>
    match s.trn.watch, s.trn.pending with
    | some w, none =>
      if s.rxNow < w.start + s.watchNs then s
      else
      let s := s.watchTest
      if s.trn.pending.isSome then s.showTrn
      else s.modTrn (fun t => { t with watch := none, settled := some (s.g Reg.JOB_TRN_MSET, t.promoSec) })
    | _, _ => s) s

/-- ROLLBACK (R286, R288): during a watch a rollback waits for the next slot edge; before slot p it cancels the promotion; else it is ignored. -/
def State.rollbackAsk (s : State) : State :=
  match s.trn.watch, s.trn.pending with
  | some _, none =>
    (if s.hasStandby then s.pairSend 0x32 0 [4, 0] else s).modTrn (fun t => { t with pending := some (.rollback true false) })
  | some _, some _ => s
  | none, some _ => s.modTrn (fun t => { t with pending := none, cand := none })
  | none, none => if s.pair.waiting then ({ s with pair := { s.pair with waiting := false } }).modTrn (fun t => { t with cand := none }) else s.ignore

/-- ROLLBACK_REQUEST (R288, R294): a write of JOB_TRN_CTL, whose PAUSE takes the value written. -/
def execRollbackRequest (agent : Byte) (val : Word) (s : State) : Host.Outcome State Fault Refusal :=
  act (fun s => (s.push agent.toNat .fwmg val.toNat Reg.JOB_TRN_CTL_ROLLBACK State.rollbackAsk).showTrn) s

/-! ### Persisting (R289, R290) -/

/-- The newest settled set as a body: during a watch the pointers are those from before the promotion. -/
def State.settledBody (s : State) : List Byte :=
  match s.trn.watch with
  | some w => ({ s with trn := { s.trn with active := s.trn.active ^^^ w.roles, edge := (match w.edge with | some e => e | none => s.trn.edge) } }).setBody
  | none => s.setBody

/-- The half that a persist writes (R290): the one that does not hold the newest valid set. -/
def State.persistHalf (s : State) : Nat :=
  let ok := fun (h : Nat) => s.halfHas h && (s.halfOpen h).isSome
  let gen := fun (h : Nat) => le (s.halfHdr h) 4 4
  if ok 0 && (!ok 1 || decide (gen 1 < gen 0)) then 1 else 0

/-- MODEL_PERSIST (R289, R290): a settled set that is not yet persisted is written into its half; the header's MAGIC comes last, when the write is done. -/
def execModelPersist (s : State) : Host.Outcome State Fault Refusal :=
  act (fun s =>
    match s.trn.settled, s.image, s.boot.flashOk with
    | some (m, sec), some im, true =>
      if !s.on Reg.JOB_TRN_PERSIST_EN || s.trn.writing.isSome || s.trn.persisted == some m ||
          decide (s.ticks - s.trn.persistAt < s.g Reg.JOB_TRN_PERSIST_MIN_INT * 60000000000) then s
      else
        let body := s.settledBody
        let h := s.persistHalf
        let gens := ([0, 1].filter s.halfHas).map (fun h => le (s.halfHdr h) 4 4)
        let gen := (gens.foldl max 0 + 1) % 2 ^ 32
        let head := toLE 4 0x53444C4D ++ toLE 4 gen ++ toLE 4 m ++ toLE 4 body.length ++ (im.header.drop 24).take 8 ++ im.mdig ++ toLE 8 sec
        if s.ckptSize < body.length + 64 then
          s.raise 0x0506 0x06 (jobByte (s.roleJob 3)) (4 + m <<< 32)
        else
          let c := Config.gcmSeal s.storageKey (toLE 4 gen ++ zeros 8) head body
          let b := s.ckptBase h
          let s := ((s.flErase b (4096 * ceilDiv (body.length + 64) 4096)).flSt (b + 4) ((head.drop 4) ++ (c.drop body.length).take 16)).flSt (b + 64) (c.take body.length)
          s.modTrn (fun t => { t with writing := some (h, m) })
    | _, _, _ => s) s

/-- MODEL_PERSIST_DONE (R290): the write is complete: EV_MODEL_PERSISTED. -/
def execModelPersistDone (s : State) : Host.Outcome State Fault Refusal :=
  act (fun s =>
    match s.trn.writing with
    | none => s
    | some (h, m) =>
      let s := s.flSt (s.ckptBase h) (toLE 4 0x53444C4D)
      let s := (s.inc Reg.JOB_TRN_PERSIST_CNT).raise 0x0505 0x06 (jobByte (s.roleJob 3)) (h + m <<< 32)
      s.modTrn (fun t => { t with writing := none, persisted := if t.settled.isSome then some m else none, persistAt := s.ticks })) s

end Sys2Proof.Machine
end

