-- ==== Sys2Proof/Machine/Pair.lean ====
section
/-!
DEFINITION. Lock-step pairs and pair standby (13 R378 to R380): digests, blocks, model sets, takeover. Payload layouts are the model's (log 28).
-/
namespace Sys2Proof.Machine

open Sys2Proof (Byte Word RzFrame CandSub)

/-! ### Digests (R378) -/

/-- A block put in its place by key. -/
def insBlock (b : PairBlock) : List PairBlock → List PairBlock
  | [] => [b]
  | c :: l => if b.key < c.key then b :: c :: l else c :: insBlock b l

/-- The output blocks of a job's slot in the order of R378. -/
def State.blocksOf (s : State) (job idx : Nat) : List PairBlock :=
  (s.pair.blocks.filter (fun (b : PairBlock) => b.job == job && b.idx == idx)).foldl (fun l b => insBlock b l) []

/-- SD of a job's slot (R378). -/
def State.slotDigest (s : State) (job idx : Nat) : List Byte := (Config.sha384 ((s.blocksOf job idx).flatMap (fun b => b.bytes)) ++ zeros 8).take 8

/-- The real-time jobs whose slots a pair compares: the receive job and the transmit job. -/
def State.pairJobs (s : State) : List Nat := [1, 2].filterMap (fun r => s.roleJob r)

/-- Length of the run of matching slots of a job. -/
def State.runOf (s : State) (job : Nat) : Nat := match s.pair.runs.find? (fun (e : Nat × Nat) => e.1 == job) with | some e => e.2 | none => 0

/-- The run of a job set; RZ_PAIR_STS.INSTEP follows: IN_STEP after 16 matching slots in a row (R378). -/
def State.setRun (s : State) (job n : Nat) : State :=
  ({ s with pair := { s.pair with runs := s.pair.runs.filter (fun (e : Nat × Nat) => e.1 != job) ++ [(job, n)] } }).p Reg.RZ_PAIR_STS_INSTEP
    (setBits (s.g Reg.RZ_PAIR_STS_INSTEP) job 1 (b2n (decide (16 ≤ n))))

/-- The CRCs of a slot's blocks go to the peer in pieces: job, first block, slot index, blocks in all, CRCs. -/
def State.sendBlocks (s : State) (job idx : Nat) : State :=
  let l := (s.blocksOf job idx).map (fun b => b.crc)
  (pieces 2000 (l.length + 1) l).zipIdx.foldl (fun t e =>
    t.pairSend 0x31 0 (toLE 1 job ++ zeros 1 ++ toLE 2 (2000 * e.2) ++ toLE 4 idx ++ toLE 4 l.length ++ e.1.flatMap (fun c => toLE 4 c))) s

/-- One job's digests of a slot compared (R378). -/
def State.pairCompare (s : State) (job idx : Nat) (own peer : List Byte) : State :=
  if own = peer then s.setRun job (s.runOf job + 1) else (s.setRun job 0).sendBlocks job idx

/-- What the device tells of itself in PAIR_SYNC (R380; log 28): a FAILED real-time job, a WARM reset that is due, active as primary, active before link-up. -/
def State.pairFlags (s : State) : Nat :=
  b2n (s.pairJobs.any (fun j => s.jst j == 5)) + b2n s.boot.warmDue <<< 1 + b2n (s.on Reg.RZ_PAIR_STS_ACTIVE) <<< 2 + b2n s.pair.was <<< 3

/-- Whether the digests of a slot are still to be made: D(n) lies at the start of the receive job's present slot (R203, R378). -/
def State.digestDue (s : State) (idx : Nat) : Bool :=
  let scs := s.g Reg.JOB_RX_CFG_SCS
  (s.roleJob 1).isSome && decide (s.slotIdxAt s.slotDom scs (s.dom s.slotDom).nanos = (idx + s.g Reg.JOB_RX_CFG_K + 1) % (1024 * spf scs)) &&
    !s.pair.sds.any (fun (e : Nat × Nat × List Byte) => e.2.1 == idx)

/-- Digests of a slot at D(n) (R378): kept, sent in PAIR_SYNC, and compared with the peer's when those are here already. Blocks are kept for 4 slots. -/
def State.pairDigest (s : State) (idx : Nat) : State :=
  if !s.pairByte.testBit 0 then s
  else
    let ds := s.pairJobs.map (fun j => (j, s.slotDigest j idx))
    let s := s.pairSend 0x30 0 (zeros 14 ++ toLE 4 idx ++ toLE 1 (s.g Reg.PWR_STS_STATE) ++ toLE 1 s.pairFlags ++ toLE 1 ds.length ++ zeros 1 ++
      ds.flatMap (fun (d : Nat × List Byte) => toLE 1 d.1 ++ d.2))
    let keep := ((s.pair.sds.map (fun (e : Nat × Nat × List Byte) => e.2.1)).eraseDups ++ [idx]).reverse.take 4
    let s := { s with pair := { s.pair with
      sds := (s.pair.sds ++ ds.map (fun (d : Nat × List Byte) => (d.1, idx, d.2))).filter (fun (e : Nat × Nat × List Byte) => keep.contains e.2.1),
      blocks := s.pair.blocks.filter (fun (b : PairBlock) => keep.contains b.idx || decide (b.idx > idx) || decide (b.idx + 1000 < idx)) } }
    let here := s.pair.peer.filter (fun (e : Nat × Nat × List Byte) => e.2.1 == idx)
    let s := { s with pair := { s.pair with peer := s.pair.peer.filter (fun (e : Nat × Nat × List Byte) => e.2.1 != idx) } }
    here.foldl (fun t (e : Nat × Nat × List Byte) => match ds.find? (fun d => d.1 == e.1) with
      | some d => t.pairCompare e.1 idx d.2 e.2.2
      | none => t) s

/-! ### Frames (R378 to R380) -/

/-- Start of a slot within the 10.24 s after which slot indexes repeat. -/
def cycleNs (idx scs : Nat) : Nat := idx * slotNs scs % 10240000000

/-- Whether an instant of that cycle does not lie after another one. -/
def notAfter (a b : Nat) : Bool := decide ((b + 10240000000 - a) % 10240000000 < 5120000000)

/-- Start in the cycle of the slot that a control frame of the device's own names. -/
def State.ctlSlot (s : State) (c : CtlOut) : Nat :=
  let tx := byteAt c.body 0 == 0x13 || (byteAt c.body 0 == 0x11 && byteAt c.body 12 == 1)
  let scs := s.g (if tx then Reg.JOB_TX_CFG_SCS else Reg.JOB_RX_CFG_SCS)
  cycleNs (le c.body 4 2 % 1024 * spf scs + byteAt c.body 6 % 128) scs

/-- A standby drops the outputs that the primary has sent: those of slots up to the one a PAIR_SYNC names (R380; log 28). -/
def State.dropSent (s : State) (idx : Nat) : State :=
  let t := cycleNs idx (s.g Reg.JOB_RX_CFG_SCS)
  (List.finRange 4).foldl (fun u p => u.modFhp p (fun x => { x with
    ctl := x.ctl.filter (fun c => !(c.typ == 2 && notAfter (s.ctlSlot c) t)),
    launch := x.launch.filter (fun l => !notAfter (cycleNs l.idx (s.g Reg.JOB_TX_CFG_SCS)) t) })) s

/-- PAIR_SYNC (R378 to R380): the partner's digests are compared with the own ones; of two active devices the one that was not active before link-up, else the one whose ROLE is standby, yields; a standby takes its time from the primary and takes over when the primary reports HOLD, KEEP, SAFE, a FAILED real-time job or a WARM reset. -/
def execPairSync (fr : RzFrame) (s : State) : Host.Outcome State Fault Refusal :=
  act (fun s => s.rzReceive fr 0x30 (fun s =>
    let p := fr.payload
    let idx := le p 14 4
    let flags := byteAt p 19
    let ds := (List.range (byteAt p 20)).map (fun i => (byteAt p (22 + 9 * i), (p.drop (23 + 9 * i)).take 8))
    let s := { s with pair := { s.pair with silent := 0 } }
    let s := ds.foldl (fun t d =>
      match t.pair.sds.find? (fun (e : Nat × Nat × List Byte) => e.1 == d.1 && e.2.1 == idx) with
      | some e => t.pairCompare d.1 idx e.2.2 d.2
      | none => { t with pair := { t.pair with peer := t.pair.peer ++ [(d.1, idx, d.2)] } }) s
    let yields := s.on Reg.RZ_PAIR_STS_ACTIVE && flags.testBit 2 &&
      ((flags.testBit 3 && !s.pair.was) || (flags.testBit 3 == s.pair.was && s.pairByte.testBit 2))
    let s := if yields then s.p Reg.RZ_PAIR_STS_ACTIVE 0 else s
    if !s.standby then s
    else
      let s := (s.p Reg.RZ_GRP_OFS (toBits 32 (satS 32 (rneDivI (fullUnits (s.dom s.groupDom).full - timeUnits p 0) 4096)))).dropSent idx
      if byteAt p 18 ≠ 0 ∨ flags % 4 ≠ 0 then { s with pair := { s.pair with due := some (s.pair.due.getD 2) } } else s)) s

/-- The first position from an offset at which two lists of CRCs differ; a list that ends before the other differs there. -/
def firstDiff (own : List Nat) (off total : Nat) (l : List Nat) : Option Nat :=
  match (List.range l.length).find? (fun i => own[off + i]? != l[i]?) with
  | some i => some (off + i)
  | none => if off + l.length = total ∧ total < own.length then some total else none

/-- PAIR_BLOCKS (R378): the first block that differs is found and reported, once for a job's slot. -/
def execPairBlocks (fr : RzFrame) (s : State) : Host.Outcome State Fault Refusal :=
  act (fun s => s.rzReceive fr 0x31 (fun s =>
    let p := fr.payload
    let job := byteAt p 0
    let idx := le p 4 4
    let l := (List.range ((p.length - 12) / 4)).map (fun i => le p (12 + 4 * i) 4)
    if !s.pair.sds.any (fun (e : Nat × Nat × List Byte) => e.1 == job && e.2.1 == idx) then s
    else match firstDiff ((s.blocksOf job idx).map (fun b => b.crc)) (le p 2 2) (le p 8 4) l with
      | none => s
      | some n =>
        let s := { s with pair := { s.pair with sds := s.pair.sds.filter (fun (e : Nat × Nat × List Byte) => !(e.1 == job && e.2.1 == idx)) } }
        (s.inc Reg.RZ_PAIR_DIV_CNT).ev 0x0908 0x08 (job + (n % 65536) <<< 16 + idx <<< 32))) s

/-- The candidate set that bytes of PAIR_MODEL frames hold, written into the candidate slots of the standby (R379). -/
def State.takeModel (s : State) (code : Nat) (body : List Byte) : State :=
  let l := nums8 body.length body
  let (l0, l) := getLayers (l.getD 0 0).toNat (l.drop 1)
  let (l1, l) := getLayers (l.getD 0 0).toNat (l.drop 1)
  let (e, _) := getList l
  if code = 4 then ({ s with trn := { s.trn with edgeCand := some (pairsOf e), cand := some (.edge (pairsOf e)) } }).showTrn
  else
    let s := if code.testBit 0 then s.fillCand 0 l0 else s
    let s := if code.testBit 1 then s.fillCand 1 l1 else s
    s.modTrn (fun t => { t with cand := some (.models (BitVec.ofNat 2 code)) })

/-- The promotion slot p is chosen (R286) and told to the standby (R379). -/
def State.pairPromote (s : State) (tell : Bool) : State :=
  let s := { s with pair := { s.pair with waiting := false } }
  match s.trn.cand with
  | none => s
  | some c =>
    let t := s.promoteEdge
    let s := if tell then s.pairSend 0x32 0 ([3, 0] ++ toLE 8 (t / 1000000000) ++ toLE 4 (t % 1000000000)) else s
    s.modTrn (fun x => { x with pending := some (.promote t c) })

/-- PAIR_MODEL (R379; log 28): 0 a part of a set, 1 its last part, which is acknowledged, 2 the acknowledgement, 3 slot p, 4 a rollback. -/
def execPairModel (fr : RzFrame) (s : State) : Host.Outcome State Fault Refusal :=
  act (fun s => s.rzReceive fr 0x32 (fun s =>
    let p := fr.payload
    match byteAt p 0 with
    | 0 => { s with pair := { s.pair with rxModel := s.pair.rxModel ++ p.drop 2 } }
    | 1 =>
      let body := s.pair.rxModel ++ p.drop 2
      (({ s with pair := { s.pair with rxModel := [] } }).takeModel (byteAt p 1) body).pairSend 0x32 0 [2, 0]
    | 2 => if s.pair.waiting then s.pairPromote true else s
    | 3 => (match s.trn.cand with
      | some c => s.modTrn (fun x => { x with pending := some (.promote (le p 2 8 * 1000000000 + le p 10 4) c) })
      | none => s)
    | 4 => if s.trn.watch.isSome && s.trn.pending.isNone then s.modTrn (fun x => { x with pending := some (.rollback true false) }) else s
    | _ => s)) s

/-! ### Takeover (R380) -/

/-- PAIR_TAKEOVER (R380): the standby becomes the primary at this edge, sends what waits on its ports, and EV_PAIR_TAKEOVER is raised. Its training job runs from here on. -/
def State.takeover (s : State) (cause idx : Nat) : State :=
  let s := ({ s with pair := { s.pair with due := none, silent := 0 } }).p Reg.RZ_PAIR_STS_ACTIVE 1
  let s := s.ev 0x0909 0x08 (cause + idx <<< 32)
  (List.finRange 4).foldl (fun t p => t.fhServe p) s

/-- What a slot start edge does in a pair (R379, R380): the standby counts slots without PAIR_SYNC while the link is up, and takes over when it is due; a primary whose standby is gone waits for no acknowledgement (log 28). -/
def State.pairEdge (s : State) (idx : Nat) : State :=
  let up := (List.finRange 4).any (fun p => s.rzRole p == 3 && s.rzUp p)
  let s := if s.pair.waiting && !s.hasStandby then s.pairPromote false else s
  if !s.pairByte.testBit 1 || s.on Reg.RZ_PAIR_STS_ACTIVE then s
  else
    let n := if up then s.pair.silent + 1 else s.pair.silent
    let due := match s.pair.due with | some c => some c | none => if up && decide (4 ≤ n) then some 1 else none
    let s := { s with pair := { s.pair with silent := n } }
    match due with
    | some c => s.takeover c idx
    | none => s

end Sys2Proof.Machine
end

