-- ==== Sys2Proof/Machine/Pins.lean ====
section
/-!
DEFINITION. Pins, supplies and straps (18, R455 to R468): the commands that come from the board.
-/
namespace Sys2Proof.Machine

open Sys2Proof (Byte Word)

/-- POR_ASSERT (R460): POR_N goes low, or the always-on supply is lost; the device is in POR whatever any other input does. -/
def execPorAssert (s : State) : Host.Outcome State Fault Refusal := actPin State.enterPor s

/-- POR_RELEASE (R55, R456, R460, R461): straps are sampled, the fuse shadow is loaded, and the start sequence runs, waiting at its second step while WARM_N is low. -/
def execPorRelease (testMode : Bool) (smbAddr : BitVec 3) (s : State) : Host.Outcome State Fault Refusal :=
  actPin (fun s =>
    if s.boot.phase = .por then
      let s := { s with boot := { s.boot with porN := true, testMode := testMode, smbAddr := smbAddr, phase := (if s.boot.warmN then .starting else .warm) } }
      (s.finishBlowing.fuseRegs.pinRegs).dbgIdle
    else s) s

/-- WARM_N_ASSERT (R460): WARM_N low for 1 µs or more. -/
def execWarmNAssert (s : State) : Host.Outcome State Fault Refusal :=
  actPin (fun s =>
    let s := { s with boot := { s.boot with warmN := false } }
    if s.boot.phase = .por then s else (s.p Reg.SYS_PIN_STS_WARM_N 0).startWarm) s

/-- WARM_N_RELEASE (R460): the sequence of R55 runs from its second step unless another cause of the WARM remains. -/
def execWarmNRelease (s : State) : Host.Outcome State Fault Refusal :=
  actPin (fun s =>
    let s := { s with boot := { s.boot with warmN := true } }
    if s.boot.phase = .por then s else (s.p Reg.SYS_PIN_STS_WARM_N 1).endWarm) s

/-- RAIL_LOW (R459): a rail other than VDD_AON below tolerance for more than 2 µs while POR_N is high. -/
def execRailLow (rail : Fin 8) (s : State) : Host.Outcome State Fault Refusal :=
  actPin (fun s =>
    let s := { s with boot := { s.boot with railLow := s.boot.railLow ||| BitVec.ofNat 8 (1 <<< rail.val) } }
    if s.boot.phase = .por then s
    else
      let s := ({ s with boot := { s.boot with warmCause := true } }).startWarm
      let s := s.p Reg.SYS_RAIL_STS_LOW_STK (s.g Reg.SYS_RAIL_STS_LOW_STK ||| 1 <<< rail.val)
      s.p Reg.SYS_RAIL_STS_OK (255 - s.boot.railLow.toNat)) s

/-- RAIL_RECOVERED (R459): every rail within tolerance for 2 ms. -/
def execRailRecovered (s : State) : Host.Outcome State Fault Refusal :=
  actPin (fun s =>
    let s := { s with boot := { s.boot with railLow := 0, warmCause := false } }
    if s.boot.phase = .por then s else (s.p Reg.SYS_RAIL_STS_OK 255).endWarm) s

/-- XO_IN_LOSS (R461): the always-on island runs from its on-die oscillator, and XO_OK is 0. -/
def execXoInLoss (s : State) : Host.Outcome State Fault Refusal :=
  actPin (fun s =>
    let s := { s with boot := { s.boot with xoOk := false } }
    if s.boot.phase = .por then s else s.p Reg.SYS_PIN_STS_XO_OK 0) s

/-- XO_IN_REGAIN (R461): XO_IN good for 1 ms is taken again. -/
def execXoInRegain (s : State) : Host.Outcome State Fault Refusal :=
  actPin (fun s =>
    let s := { s with boot := { s.boot with xoOk := true } }
    if s.boot.phase = .por then s else s.p Reg.SYS_PIN_STS_XO_OK 1) s

/-- CAPLIM_N_CHANGE (R406, R461): a level stable for 10 µs is taken; a shorter change is counted. -/
def execCaplimNChange (low stable : Bool) (s : State) : Host.Outcome State Fault Refusal :=
  actPin (fun s =>
    if !stable then (if s.boot.phase = .por then s else s.inc Reg.SYS_CAPLIM_GLITCH_CNT)
    else
      let s := { s with boot := { s.boot with caplimN := !low, caplimAt := (if low && s.boot.caplimN then s.ticks else s.boot.caplimAt), longRaised := s.boot.longRaised && low } }
      if s.boot.phase = .por then s else (s.p Reg.SYS_PIN_STS_CAPLIM_N (b2n (!low))).setCap) s

/-- CAPLIM_LONG (R406): asserted for more than 10 s: EV_CAPLIM_LONG once; the limit stays applied. -/
def execCaplimLong (s : State) : Host.Outcome State Fault Refusal :=
  act (fun s =>
    if s.boot.caplimN || s.boot.longRaised || decide (s.ticks - s.boot.caplimAt ≤ 10000000000) then s
    else ({ s with boot := { s.boot with longRaised := true } }).ev 0x0B07 0x03 (s.g Reg.PWR_CAP_CFG_LIM)) s

/-! ### REF_IN (R382) -/

/-- REF_IN_LOSS (R382): the PLL changes to the local oscillator without a phase step. -/
def execRefInLoss (s : State) : Host.Outcome State Fault Refusal :=
  actPin (fun s =>
    let s := { s with boot := { s.boot with refOk := false } }
    if s.held then s
    else
      let was := s.on Reg.TIME_STS_REF
      let s := (s.p Reg.SYS_PIN_STS_REF_PRESENT 0).p Reg.TIME_STS_REF 0
      if was then s.ev 0x0A04 0x04 0 else s) s

/-- REF_IN_REGAIN (R382): REF_IN within ±100 ppm for 1 s: the PLL changes to it. -/
def execRefInRegain (s : State) : Host.Outcome State Fault Refusal :=
  actPin (fun s =>
    let s := { s with boot := { s.boot with refOk := true } }
    if s.held then s
    else
      let was := s.on Reg.TIME_STS_REF
      let s := (s.p Reg.SYS_PIN_STS_REF_PRESENT 1).p Reg.TIME_STS_REF 1
      if was then s else s.ev 0x0A04 0x04 1) s

/-! ### Lanes and links -/

/-- The state with one lane changed. -/
def State.modLane (s : State) (i : Fin 33) (g : Lane → Lane) : State := { s with lanes := s.lanes.set i (g (s.lanes.get i)) }

/-- LANE_SIGNAL_DETECT_CHANGE (R463): a raw change held for 10 ms changes the filtered detect, and its loss takes the link down; one that reverts is counted. -/
def execLaneSignalDetectChange (lane : Fin 33) (level held : Bool) (s : State) : Host.Outcome State Fault Refusal :=
  actPin (fun s =>
    if !held then (if s.boot.phase = .por then s else s.inc Reg.SYS_SD_FLAP_CNT)
    else
      let s := s.modLane lane (fun l => { l with detect := level })
      if s.held || level then s else s.setLink (s.laneLink lane) false) s

/-- LANE_ALIGNMENT_LOSS (R463): the link of the lane goes down; the loss waits for its judgement. -/
def execLaneAlignmentLoss (lane : Fin 33) (s : State) : Host.Outcome State Fault Refusal :=
  act (fun s => (s.modLane lane (fun l => { l with lossAt := some s.ticks })).setLink (s.laneLink lane) false) s

/-- LANE_FAULT_JUDGE (R417, R418, R463): 10 ms after a loss of alignment, a lane whose filtered detect is still asserted is charged a fault. A lane of MG has no location (R416) and is charged none. -/
def execLaneFaultJudge (lane : Fin 33) (s : State) : Host.Outcome State Fault Refusal :=
  act (fun s =>
    match (s.lanes.get lane).lossAt with
    | none => s
    | some t =>
      if s.ticks - t < 10000000 then s
      else
      let s := s.modLane lane (fun l => { l with lossAt := none })
      if (s.lanes.get lane).detect && decide (lane.val < 32) then s.classify (locCode 5 15 lane) 5 true else s) s

/-- LINK_TRAINING_COMPLETE (R339, R356, R463): a link comes up when all of its lanes' filtered detects are asserted, none of them is retired, and its port is powered. -/
def execLinkTrainingComplete (link : LinkRef) (s : State) : Host.Outcome State Fault Refusal :=
  act (fun s =>
    let powered := match link with
      | .mg => s.g Reg.PWR_STS_STATE != 2
      | .fh _ => decide (s.boot.phase ≠ .safe) && s.g Reg.PWR_STS_STATE != 2
      | .rz p => decide (s.boot.phase ≠ .safe) && s.g Reg.PWR_STS_STATE != 2 && s.g (Reg.RZ_Pp_STS_ROLE p) != 0
    if powered && (s.linkLanes link).all (fun i => (s.lanes.get i).detect) && s.linkInUse link &&
        !(s.linkLanes link).isEmpty then s.setLink link true else s) s

end Sys2Proof.Machine
end

