-- ==== Sys2Proof/Machine/Power.lean ====
section
/-!
DEFINITION. Power, capping and thermal control (15): the commands.
-/
namespace Sys2Proof.Machine

open Sys2Proof (Byte Word)

/-! ### The cap (R65, R406) -/

/-- PWR_CAP takes a value in 0.5 W, and C follows at once (R406, R411). -/
def State.capTake (s : State) (v : Nat) : State := (((s.p Reg.PWR_CAP v).setCap).alarmTest).restoreTest

/-- CAP_SET (R406): outside 240 to 720, or with a non-zero reserved byte, RANGE and nothing changed. -/
def execCapSet (r : MgReq) (s : State) : Host.Outcome State Fault Refusal :=
  act (fun s => s.mgServe 0x0020 false r (fun s =>
    let v := le r.payload 0 2
    if r.payload.length ≠ 4 ∨ v < 240 ∨ v > 720 ∨ zeroRange r.payload 2 2 = false then s.mgAnswer 0x0020 r.seq 4 []
    else (s.capTake v).mgAnswer 0x0020 r.seq 0 [])) s

/-- A write of PWR_CAP by an agent (R406): ignored and counted outside 240 to 720. -/
def State.pwrCapWrite (s : State) (agent v : Nat) : State :=
  if s.mayWrite agent .fwmg && (bits v 0 10 < 240 || bits v 0 10 > 720) then s.ignore
  else
    let s' := s.writeFields agent Reg.PWR_CAP.addr v
    ((s'.setCap).alarmTest).restoreTest

/-- PWR_CAP_WRITE (R406). -/
def execPwrCapWrite (agent : Byte) (val : Word) (s : State) : Host.Outcome State Fault Refusal :=
  act (fun s => s.pwrCapWrite agent.toNat val.toNat) s

/-! ### Operating points (R402 to R405) -/

/-- One island's point. -/
def State.isl (s : State) (i : Fin 13) : IslandPt := s.pwr.isl.get i

/-- The state with one island's point changed. -/
def State.modIsl (s : State) (i : Fin 13) (g : IslandPt → IslandPt) : State :=
  { s with pwr := { s.pwr with isl := s.pwr.isl.set i (g (s.isl i)) } }

/-- Whether a running real-time job binds a frond (R403). -/
def State.rtFrond (s : State) (f : Nat) : Bool := s.jobNums.any (fun j => !(s.job j).bind.kind && s.jst j == 1 && s.binds j f)

/-- The floor of an island (R403). -/
def State.islFloor (s : State) (i : Fin 13) : Nat :=
  if i.val < 6 then (if s.rtFrond i then s.g Reg.PWR_ISL_CFG_AR_MIN else 0)
  else if i.val < 12 then (if s.rtFrond (i.val - 6) then s.g Reg.PWR_ISL_CFG_LN_MIN else 0)
  else if (List.range 6).any (fun f => s.rtFrond f) then s.g Reg.PWR_ISL_CFG_FB_MIN else 0

/-- The ceiling of an island (R403, R407). -/
def State.islCeil (s : State) (i : Fin 13) : Nat :=
  if i.val < 6 then s.g Reg.PWR_CEIL_AR_CEIL
  else if i.val < 12 then s.g Reg.PWR_CEIL_LN_CEIL
  else s.g Reg.PWR_CEIL_FB_CEIL

/-- A change of point starts, or waits while droop is present (R404, R405). -/
def State.startChange (s : State) (i : Fin 13) (p : Nat) : State :=
  s.modIsl i (fun x => if x.point = p then { x with target := none, waitAt := none }
                       else { x with target := some p, waitAt := if x.droop then some (x.waitAt.getD s.ticks) else none })

/-- OP_POINT_DECISION (R403): every 10 µs, from the average occupancy of the input queues against their depth. -/
def execOpPointDecision (isl : Fin 13) (occ depth : Nat) (s : State) : Host.Outcome State Fault Refusal :=
  act (fun s =>
    let x := s.isl isl
    if x.target.isSome then s
    else
      let fl := s.islFloor isl
      let ce := s.islCeil isl
      let p := if 4 * occ ≥ 3 * depth then x.point + 1
               else if 4 * occ ≤ depth ∧ x.point > fl then x.point - 1 else x.point
      s.startChange isl (min p ce)) s

/-- OP_POINT_CHANGE_DONE (R404): the change under way, not stopped by droop, is complete. -/
def execOpPointChangeDone (isl : Fin 13) (s : State) : Host.Outcome State Fault Refusal :=
  act (fun s => s.modIsl isl (fun x => match x.target, x.waitAt with
    | some p, none => { x with point := p, target := none }
    | _, _ => x)) s

/-- DROOP_DETECT (R405): counted; a change under way stops at its present step and waits. -/
def execDroopDetect (isl : Fin 13) (s : State) : Host.Outcome State Fault Refusal :=
  act (fun s => (s.modIsl isl (fun x =>
    { x with droop := true, waitAt := if x.target.isSome then some (x.waitAt.getD s.ticks) else none })).inc Reg.PWR_DROOP_CNT) s

/-- DROOP_CLEAR (R405): clear for 10 µs; a waiting change goes on. -/
def execDroopClear (isl : Fin 13) (s : State) : Host.Outcome State Fault Refusal :=
  act (fun s => s.modIsl isl (fun x => { x with droop := false, waitAt := none })) s

/-- OP_CHANGE_ABANDON (R405): a change that has waited 1 ms is abandoned; the island keeps its old point. -/
def execOpChangeAbandon (isl : Fin 13) (s : State) : Host.Outcome State Fault Refusal :=
  act (fun s =>
    match (s.isl isl).waitAt with
    | none => s
    | some t =>
      if s.ticks - t < 1000000 then s
      else
      let s := s.modIsl isl (fun x => { x with target := none, waitAt := none })
      let src := if isl.val < 12 then 16 * (isl.val % 6 + 1) else 3
      (s.inc Reg.PWR_OP_ABANDON_CNT).ev 0x0B08 0x03 (src + (isl.val / 6) <<< 8)) s

/-! ### The cap controller (R407 to R411) -/

/-- The ceilings take values; PWR_STS and PWR_CEIL show them, and an island above its ceiling moves down to it (R403). -/
def State.setCeils (s : State) (ar ln fb : Nat) : State :=
  let s := ((s.p Reg.PWR_CEIL_AR_CEIL ar).p Reg.PWR_CEIL_LN_CEIL ln).p Reg.PWR_CEIL_FB_CEIL fb
  let s := (s.p Reg.PWR_STS_CMP_CEIL (max ar ln)).p Reg.PWR_STS_FB_CEIL fb
  (List.finRange 13).foldl (fun t i =>
    if (t.isl i).point > t.islCeil i ∨ (t.isl i).target.getD 0 > t.islCeil i then t.startChange i (min (t.isl i).point (t.islCeil i)) else t) s

/-- Bubble cycles added by one decision (R407): ceil(64 (P - C) / Pc); with Pc 0 the spec states no number, so a free value (log 5). -/
def State.dutyStep (s : State) (p c pc : Nat) : Nat × State :=
  if pc = 0 then ((s.free).1.toNat, (s.free).2) else (ceilDiv (64 * (p - c)) pc, s)

/-- One tightening decision: the lowest stage not yet at its limit (R407). -/
def State.tighten (s : State) (p c pc : Nat) : State :=
  let ar := s.g Reg.PWR_CEIL_AR_CEIL
  let ln := s.g Reg.PWR_CEIL_LN_CEIL
  let fb := s.g Reg.PWR_CEIL_FB_CEIL
  let n := s.g Reg.PWR_STS_DUTY
  if ar > 0 ∨ ln > 0 then s.setCeils (ar - 1) (ln - 1) fb
  else if n < 56 then
    let (d, s) := s.dutyStep p c pc
    s.p Reg.PWR_STS_DUTY (min 56 (n + d))
  else if fb > 0 then s.setCeils ar ln (fb - 1)
  else s

/-- Whether stages 1 to 3 are all at their limits (R409). -/
def State.atFloor (s : State) : Bool :=
  s.g Reg.PWR_CEIL_AR_CEIL == 0 && s.g Reg.PWR_CEIL_LN_CEIL == 0 && s.g Reg.PWR_CEIL_FB_CEIL == 0 && s.g Reg.PWR_STS_DUTY == 56

/-- One relaxing step of stages 3, 2 and 1, in this order (R407). -/
def State.relax (s : State) : State :=
  let ar := s.g Reg.PWR_CEIL_AR_CEIL
  let ln := s.g Reg.PWR_CEIL_LN_CEIL
  let fb := s.g Reg.PWR_CEIL_FB_CEIL
  let n := s.g Reg.PWR_STS_DUTY
  if fb < s.g Reg.PWR_ISL_CFG_FB_MAX then s.setCeils ar ln (fb + 1)
  else if n > 0 then s.p Reg.PWR_STS_DUTY (n - 1)
  else s.setCeils (min (ar + 1) (max ar (s.g Reg.PWR_ISL_CFG_AR_MAX))) (min (ln + 1) (max ln (s.g Reg.PWR_ISL_CFG_LN_MAX))) fb

/-- CAP_CONTROL_TICK (R406 to R411): every 10 µs, with the powers measured. -/
def execCapControlTick (rep : PowerRep) (s : State) : Host.Outcome State Fault Refusal :=
  act (fun s =>
    let s := { s with pwr := { s.pwr with p := rep.p, avg := rep.avg, clock := s.pwr.clock + 1 } }
    let s := s.p Reg.PWR_POWER rep.avg
    if s.g Reg.PWR_STS_STATE ≠ 0 ∨ s.boot.phase ≠ .started then s
    else
      let c := s.effCap
      let s := if s.g Reg.PWR_STS_DUTY > 0 then s.inc Reg.PWR_BUBBLE_CNT else s
      let s :=
        if rep.p > c then
          let s := { (s.tighten rep.p c rep.pc) with pwr := { (s.tighten rep.p c rep.pc).pwr with relax := 0 } }
          if s.atFloor then
            match s.pwr.floorAt with
            | none => { s with pwr := { s.pwr with floorAt := some s.pwr.clock } }
            | some t => if s.pwr.clock - t ≥ 20 then s.floorDecision else s
          else s
        else
          let s := { s with pwr := { s.pwr with floorAt := none } }
          if 50 * rep.p < 49 * c ∧ s.pwr.sheds = [] then
            if s.pwr.relax + 1 ≥ 10 then ({ s with pwr := { s.pwr with relax := 0 } }).relax
            else { s with pwr := { s.pwr with relax := s.pwr.relax + 1 } }
          else { s with pwr := { s.pwr with relax := 0 } }
      (s.alarmTest).restoreTest) s

/-- SHED_SAVING_MEASURE (R410): 100 µs after a shed, the fall in P is the job's saving, and EV_CAP_SHED carries it. -/
def execShedSavingMeasure (p : Nat) (s : State) : Host.Outcome State Fault Refusal :=
  act (fun s =>
    match s.pwr.measure with
    | none => s
    | some (j, p0) =>
      let sv := p0 - p
      let s := { s with pwr := { s.pwr with measure := none, sheds := s.pwr.sheds.map (fun (x : Nat × Nat) => if x.1 = j then (j, sv) else x) } }
      s.ev 0x0B02 0x03 (j + sv <<< 16)) s

/-! ### Power states (R412, R413) -/

/-- A full time in nanoseconds. -/
def fullNs (sec ns : Nat) : Nat := sec * 1000000000 + ns

/-- POWER_STATE (R413, R449, R451). -/
def execPowerState (r : MgReq) (s : State) : Host.Outcome State Fault Refusal :=
  act (fun s => s.mgServe 0x0071 false r (fun s =>
    let t := byteAt r.payload 0
    let sec := le r.payload 4 8
    let ns := le r.payload 12 4
    let wake := decide (sec ≠ 0 ∨ ns ≠ 0)
    let cur := s.g Reg.PWR_STS_STATE
    if r.payload.length ≠ 16 ∨ t > 2 ∨ zeroRange r.payload 1 3 = false ∨ (wake = true ∧ t ≠ 2) ∨ ns ≥ 1000000000 ∨
        (wake = true ∧ fullNs sec ns < s.domA.nanos) then s.mgAnswer 0x0071 r.seq 4 []
    else if s.adopting then s.mgAnswer 0x0071 r.seq 6 []
    else if s.rebind.isSome ∨ t = cur ∨ s.pwr.trans.isSome ∨ s.pwr.tripped = true ∨ (wake = true ∧ s.valid .a = false) ∨
        s.sec.zero.isSome ∨ s.sec.zeroised = true ∨ s.boot.phase ≠ .started then s.mgAnswer 0x0071 r.seq 3 []
    else
      let s := { s with pwr := { s.pwr with wake := if wake then some (sec, ns) else none } }
      (s.beginTrans t 0).mgAnswer 0x0071 r.seq 0 [])) s

/-- The wake time, reached or passed on the counter of domain A while the device is in KEEP, leaves KEEP (R413). -/
def State.wakeTest (s : State) : State :=
  match s.pwr.wake with
  | some (sec, ns) =>
    if s.g Reg.PWR_STS_STATE = 2 ∧ s.pwr.trans = none ∧ s.pwr.tripped = false ∧ fullNs sec ns ≤ s.domA.nanos then s.beginTrans 0 1 else s
  | none => s

/-- POWER_TRANSITION_COMPLETE (R412): leaving RUN waits until background jobs stand at a unit boundary. -/
def execPowerTransitionComplete (s : State) : Host.Outcome State Fault Refusal :=
  act (fun s =>
    match s.pwr.trans with
    | none => s
    | some t =>
      if t.target ≠ 0 ∧ s.g Reg.PWR_STS_STATE = 0 ∧ s.bgBusy = true then s
      else match t.target with
      | 0 => s.enterRun t.cause
      | 1 => s.enterHold t.cause
      | _ => (s.enterKeep t.cause).wakeTest) s

/-- WAKE_N_EDGE (R413, R461): a filtered falling edge leaves KEEP or HOLD; a tripped device stays (R414). -/
def execWakeNEdge (s : State) : Host.Outcome State Fault Refusal :=
  actPin (fun s =>
    let s := { s with boot := { s.boot with wakeN := false } }
    if s.boot.phase = .por then s
    else
      let s := s.p Reg.SYS_PIN_STS_WAKE_N 0
      if s.g Reg.PWR_STS_STATE = 0 ∨ s.pwr.trans ≠ none ∨ s.pwr.tripped = true ∨ s.boot.phase ≠ .started then s
      else s.beginTrans 0 2) s

/-- KEEP_WAKE_TIME (R413): domain A reaches the wake time. -/
def execKeepWakeTime (s : State) : Host.Outcome State Fault Refusal := act State.wakeTest s

/-! ### Temperature (R414) -/

/-- The hottest of the readings and the first sensor that has it. -/
def hottest : List (BitVec 16) → Int × Nat
  | [] => (-32768, 0)
  | t :: ts =>
    let r := hottest ts
    if t.toInt ≥ r.1 then (t.toInt, 0) else (r.1, r.2 + 1)

/-- The thermal cap falls each 1 ms from the reading that reached 100 °C, rises each 1 ms after 10 ms below 97 °C, or is removed (R414). -/
def State.thermStep (s : State) (hot : Int) : State :=
  match s.pwr.therm with
  | none => s
  | some cap =>
    if hot ≥ 800 then
      if s.pwr.coolAt.isSome ∨ s.pwr.thermAt = 0 then { s with pwr := { s.pwr with coolAt := none, thermAt := s.pwr.tclock + 10 } }
      else if s.pwr.tclock ≥ s.pwr.thermAt then
        { s with pwr := { s.pwr with therm := some (max 960 (rneDiv (cap * 95) 100)), thermAt := s.pwr.tclock + 10 } }
      else s
    else if hot < 776 then
      match s.pwr.coolAt with
      | none => { s with pwr := { s.pwr with coolAt := some s.pwr.tclock, thermAt := s.pwr.tclock + 100 } }
      | some _ =>
        if s.pwr.tclock < s.pwr.thermAt then s
        else if rneDiv (cap * 105) 100 > 4 * s.g Reg.PWR_CAP then
          ({ s with pwr := { s.pwr with therm := none, coolAt := none } }).p Reg.PWR_STS_THROTTLE 0
        else { s with pwr := { s.pwr with therm := some (rneDiv (cap * 105) 100), thermAt := s.pwr.tclock + 10 } }
    else { s with pwr := { s.pwr with coolAt := none, thermAt := 0 } }

/-- Entry into the throttle in RUN (R414). -/
def State.thermEnter (s : State) (hot : Int) (sensor : Nat) : State :=
  let s := { s with pwr := { s.pwr with therm := some (max 960 (rneDiv (s.pwr.p * 95) 100)), thermAt := s.pwr.tclock + 10, coolAt := none } }
  let s := ((s.p Reg.PWR_STS_THROTTLE 1).inc Reg.PWR_THROTTLE_CNT).alarm 1
  s.ev 0x0B04 0x03 (toBits 16 hot + sensor <<< 16)

/-- THERMAL_SAMPLE (R414, R460): every 100 µs the junction sensors are read. -/
def execThermalSample (temps : List (BitVec 16)) (s : State) : Host.Outcome State Fault Refusal :=
  actPin (fun s =>
    if s.boot.phase = .por ∨ temps = [] then s
    else
      let (hot, sensor) := hottest temps
      let s := { s with flt := { s.flt with sensors := temps }, pwr := { s.pwr with tclock := s.pwr.tclock + 1 } }
      let s := (s.p Reg.PWR_TEMP_T (toBits 16 hot)).p Reg.PWR_TEMP_SENSOR sensor
      if s.boot.phase = .warm then
        (if hot < 800 then ({ s with boot := { s.boot with hotWait := false } }).endWarm else s)
      else if hot ≥ 920 then (if s.pwr.tripped then s else s.trip (toBits 16 hot) sensor)
      else if s.pwr.therm.isSome then ((s.thermStep hot).setCap).restoreTest
      else if hot ≥ 800 ∧ s.g Reg.PWR_STS_STATE = 0 then (s.thermEnter hot sensor).setCap
      else s) s

end Sys2Proof.Machine
end

