-- ==== Sys2Proof/Machine/Transmit.lean ====
section
/-!
DEFINITION. The transmit job (08 R259 to R264): downlink plans, their transport blocks and precoders, the cut-off, compression and launch; and the rest of a fronthaul port's messages and frames (12 R341, R348, R350 to R353, 14 R400, 01 R32).
-/
namespace Sys2Proof.Machine

open Sys2Proof (Byte Word FhMsg TxSection LaunchRef OwdMsg FhIn)

/-! ### Plans (R259) -/

/-- What a downlink plan is checked against (R259). -/
def State.txPlanCfg (s : State) : PlanCfg :=
  let j := s.roleJob 2
  let f := match j with | some k => (s.jobFronds k).head? | none => none
  { tx := true, nport := s.g Reg.JOB_TX_CFG_NPORT, nprb := s.g Reg.JOB_TX_CFG_NPRB, spf := spf (s.g Reg.JOB_TX_CFG_SCS),
    tab := match f with | some x => s.thrTables x | none => [],
    pats := s.pilotPatterns }

/-- An allocation of an accepted downlink plan, with no data received. -/
def txAlloc (a : Alloc) : TxAlloc :=
  { index := a.index, layers := a.layers, pmode := a.path, ueid := a.ueid, prb0 := a.prb0, nprb := a.nprb, sym0 := a.sym0, nsym := a.nsym,
    qm := a.qm, pilotMap := a.pilotMap, ppat := a.ppat, layer0 := a.layer0, seqId := a.seqId, encode := a.decode, tb := [], prec := [],
    dropped := false, started := false, missed := false }

/-- A downlink plan's reason and entry number (R208 with the limits of R259), for a start edge. -/
def State.dlReason (s : State) (p : List Byte) (idx edge : Nat) : Nat × Nat :=
  let scs := s.g Reg.JOB_TX_CFG_SCS
  let now := (s.dom s.txDom).nanos
  match s.txPlanCfg.reason p with
  | some r => r
  | none =>
    if edge < now + 1000 * s.g Reg.JOB_TX_TIME_TB_LEAD then (7, 0xFF)
    else if now + 4 * slotNs scs < edge ∨ s.tx.any (fun x => x.idx == idx && x.start == edge) = true then (8, 0xFF)
    else if !s.planOn (s.roleJob 2) (s.g Reg.JOB_TX_CFG_NPORT) (s.g Reg.JOB_TX_CFG_TDOM) then (9, 0xFF)
    else (0, 0xFF)

/-- A downlink plan, checked whole and answered (R259, R347). A rejected plan's slot transmits nothing but zeros: it has no allocation. -/
def State.dlPlan (s : State) (p : List Byte) : State :=
  let scs := s.g Reg.JOB_TX_CFG_SCS
  let job := s.roleJob 2
  let sfn := le p 0 2 % 1024
  let slot := byteAt p 2 % 128
  let idx := sfn * spf scs + slot
  let edge := s.edgeOf s.txDom scs (s.dom s.txDom).nanos idx
  let r := s.dlReason p idx edge
  let s :=
    if r.1 = 0 then
      { s with tx := s.tx ++ [(⟨idx, edge, (planEntries p).map (fun e => txAlloc (entryAlloc e)), false, [], []⟩ : TxSlot)], boot := { s.boot with planned := true } }
    else
      let shown := if p.length < 16 ∨ spf scs ≤ slot then 0xFFFFFFFF else idx
      (s.inc Reg.JOB_TX_PLAN_REJ_CNT).raise 0x0403 0x00 (jobByte job) (r.1 + r.2 <<< 8 + shown <<< 32)
  s.planRsp (job.getD 16) 1 r.1 r.2 sfn slot

/-- DL_PLAN (R259, R347). -/
def execDlPlan (m : FhMsg) (s : State) : Host.Outcome State Fault Refusal :=
  act (fun s => s.control m 2 (fun s => s.dlPlan (m.body.drop 4))) s

/-! ### Data (R260, R348) -/

/-- Bytes of an allocation's transport block (R346). -/
def TxAlloc.tbLen (a : TxAlloc) : Nat := ceilDiv (codeParam a.encode).tbs 8

/-- Bytes of its precoder: none with PMODE 1 (R346). -/
def TxAlloc.precLen (a : TxAlloc) (gran nport : Nat) : Nat := if a.pmode = 0 then ceilDiv a.nprb (2 ^ gran) * nport * a.layers * 2 else 0

/-- Whether every byte of an allocation's data has arrived (R348, R260). -/
def TxAlloc.complete (a : TxAlloc) (gran nport : Nat) : Bool := a.tb.length == a.tbLen && (a.pmode == 1 || a.prec.length == a.precLen gran nport)

/-- Bytes placed at an offset; a byte already received keeps its first value (R348). -/
def placeBytes (m : List (Nat × Option Byte)) (off : Nat) : List Byte → List (Nat × Option Byte)
  | [] => m
  | b :: bs => placeBytes (if (sget none m off).isSome then m else sset none m off (some b)) (off + 1) bs

/-- An allocation with a part placed; it starts once its data is complete (R260). -/
def TxAlloc.place (a : TxAlloc) (prec : Bool) (off : Nat) (bs : List Byte) (gran nport : Nat) : TxAlloc :=
  let a := if prec then { a with prec := placeBytes a.prec off bs } else { a with tb := placeBytes a.tb off bs }
  { a with started := a.started || a.complete gran nport }

/-- The slot and allocation that a part names (R346, R475). -/
def State.partOf (s : State) (m : FhMsg) : Option (TxSlot × TxAlloc) :=
  let scs := s.g Reg.JOB_TX_CFG_SCS
  let idx := le m.body 4 2 % 1024 * spf scs + byteAt m.body 6 % 128
  let edge := s.edgeOf s.txDom scs (s.dom s.txDom).nanos idx
  if spf scs ≤ byteAt m.body 6 % 128 then none
  else match s.tx.find? (fun x => x.idx == idx && x.start == edge) with
    | none => none
    | some x => (x.allocs.find? (fun a => a.index == byteAt m.body 7)).map (fun a => (x, a))

/-- The state with one downlink allocation changed. -/
def State.modTxAlloc (s : State) (idx index : Nat) (g : TxAlloc → TxAlloc) : State :=
  { s with tx := s.tx.map (fun (x : TxSlot) =>
    if x.idx = idx then { x with allocs := x.allocs.map (fun (a : TxAlloc) => if a.index = index then g a else a) } else x) }

/-- Whether a part breaks R348, other than by arriving after the cut-off. -/
def State.partBad (s : State) (m : FhMsg) : Bool :=
  let gran := s.g Reg.JOB_TX_CFG_GRAN
  let nport := s.g Reg.JOB_TX_CFG_NPORT
  let prec := ctlKind m == 4
  match s.partOf m with
  | none => true
  | some (_, a) => (prec && a.pmode != 0) || decide ((if prec then a.precLen gran nport else a.tbLen) < le m.body 8 4 + (m.body.length - 12))

/-- Whether a slot's cut-off time has come (R260): its start over the air less JOB_TX_TIME.TB_LEAD. -/
def State.cutDue (s : State) (x : TxSlot) : Bool := x.cut || decide (x.start ≤ (s.dom s.txDom).nanos + 1000 * s.g Reg.JOB_TX_TIME_TB_LEAD)

/-- A part of a transport block or precoder (R348): placed by OFFSET, or dropped and counted once the cut-off time has come. -/
def State.txPart (s : State) (m : FhMsg) : State :=
  if s.partBad m then s.ctlBad m 3
  else match s.partOf m with
    | none => s
    | some (x, a) =>
      if s.cutDue x then s.inc (Reg.FH_P_CTL_BAD_CNT (linkPort m.link.val))
      else
        let gran := s.g Reg.JOB_TX_CFG_GRAN
        let nport := s.g Reg.JOB_TX_CFG_NPORT
        s.modTxAlloc x.idx a.index (fun b => b.place (ctlKind m == 4) (le m.body 8 4) (m.body.drop 12) gran nport)

/-- DL_TB (R348). -/
def execDlTb (m : FhMsg) (s : State) : Host.Outcome State Fault Refusal := act (fun s => s.control m 3 (fun s => s.txPart m)) s

/-- PRECODER (R348). -/
def execPrecoder (m : FhMsg) (s : State) : Host.Outcome State Fault Refusal := act (fun s => s.control m 4 (fun s => s.txPart m)) s

/-- FH_CTL_BAD (R350): a control message that fails. -/
def execFhCtlBad (m : FhMsg) (s : State) : Host.Outcome State Fault Refusal :=
  act (fun s =>
    if !s.fhLive m then s
    else
      let w := s.ctlWhy m
      if w ≠ 0 then (s.fhAccepted m true).ctlBad m w
      else if (ctlKind m = 3 ∨ ctlKind m = 4) ∧ s.partBad m = true then (s.fhAccepted m true).ctlBad m 3
      else s) s

/-- The cut-off of a downlink slot (R260, R346): allocations with missing data are dropped, counted and reported; the others are transmitted; the transmit report goes to the MAC. -/
def State.txCutoff (s : State) (x : TxSlot) : State :=
  let scs := s.g Reg.JOB_TX_CFG_SCS
  let job := s.roleJob 2
  let s := { s with tx := s.tx.map (fun (y : TxSlot) => if y.idx = x.idx then { y with cut := true } else y) }
  let s := x.allocs.foldl (fun t a =>
    if a.started && !a.dropped then t.inc Reg.JOB_TX_ALLOC_CNT
    else
      let t := (t.modTxAlloc x.idx a.index (fun b => { b with dropped := true })).inc Reg.JOB_TX_TB_LATE_CNT
      t.raise 0x0302 0x06 (jobByte job) (allocTag x.idx scs a.index + 1 <<< 16 + x.idx <<< 32)) s
  let body := x.allocs.flatMap (fun a => [BitVec.ofNat 8 a.index, if a.started && !a.dropped then (0 : Byte) else 2])
  s.fhSend (job.getD 16) 0x13 x.idx scs 0xFF body

/-- TB_LEAD_CUTOFF (R260, R346): the cut-off of a slot, once, when its time has come. -/
def execTbLeadCutoff (idx : BitVec 17) (s : State) : Host.Outcome State Fault Refusal :=
  act (fun s =>
    match s.tx.find? (fun x => x.idx == idx.toNat && !x.cut) with
    | none => s
    | some x => if s.cutDue x then s.txCutoff x else s) s

/-! ### Compression and launch (R263, R264, R344) -/

/-- A component rounded after division by 2^e. -/
def txRound (v : Int) (e : Nat) : Int := rneInt v e

/-- The exponent of a block of components (R263): the smallest at which all fit W bits, 15 when none does. -/
def blockExp (w : Nat) (l : List Int) : Nat :=
  ((List.range 16).find? (fun e => l.all (fun v => decide (satS w (txRound v e) = txRound v e)))).getD 15

/-- The components of CI16 samples in order, real before imaginary. -/
def components (l : List Word) : List Int := l.flatMap (fun w => [(ci16 w).1, (ci16 w).2])

/-- The PRBs of a section's samples. -/
def prbBlocks : Nat → List Int → List (List Int)
  | 0, _ => []
  | n + 1, l => l.take 24 :: prbBlocks n (l.drop 24)

/-- Exponent and mantissa fields of a section, and how many components saturated (R263, R344). -/
def compress (w nprb : Nat) (l : List Word) : List Byte × Nat :=
  let bs := (prbBlocks nprb (components l)).map (fun b => let e := blockExp w b; (e, b.map (fun v => txRound v e)))
  let es := bs.map (fun b => b.1)
  let ms := bs.flatMap (fun b => b.2)
  let expField := (List.range (ceilDiv nprb 2)).map (fun i => BitVec.ofNat 8 (es.getD (2 * i) 0 + es.getD (2 * i + 1) 0 * 16))
  let man : Nat := ms.zipIdx.foldl (fun (n : Nat) m => n + toBits w (satS w m.1) <<< (w * m.2)) 0
  (expField ++ toLE (3 * w * nprb) man, ms.countP (fun m => decide (satS w m ≠ m)))

/-- Start of a symbol over the air, less the launch advance (R264, R399). -/
def launchNs (start scs sym lead : Nat) : Nat := start + sym * slotNs scs / 14 - 1000 * lead

/-- Where an antenna port's sections leave (R354): link and radio head address. -/
def State.txLink (s : State) (antenna : Nat) : Option (Nat × BitVec 48) :=
  match s.roleJob 2 with
  | none => none
  | some j => match s.graph j with
    | none => none
    | some g => (g.txLinks.find? (fun e => e.1 == antenna)).map (fun e => (e.2.1.val, e.2.2))

/-- The slot of the transmit job that a section names (R475). -/
def State.txSlotOf (s : State) (idx : Nat) : Option TxSlot :=
  let edge := s.edgeOf s.txDom (s.g Reg.JOB_TX_CFG_SCS) (s.dom s.txDom).nanos idx
  s.tx.find? (fun x => x.idx == idx && x.start == edge)

/-- The state with a downlink slot changed. -/
def State.modTxSlot (s : State) (idx : Nat) (g : TxSlot → TxSlot) : State :=
  { s with tx := s.tx.map (fun (x : TxSlot) => if x.idx = idx then g x else x) }

/-- Whether some PRB of a section is in none of the sections listed. -/
def TxRange.open_ (t : TxRange) (l : List TxRange) : Bool :=
  (List.range t.nprb).any (fun i => !(l.any (fun q => q.port == t.port && q.sym == t.sym && decide (q.prb0 ≤ t.prb0 + i ∧ t.prb0 + i < q.prb0 + q.nprb))))

/-- What a launch entry carries. -/
def Launch.range (l : Launch) : TxRange := ⟨l.port, l.sym, l.prb0, l.nprb⟩

/-- A section is late (R32): counted and reported unless every PRB of it was handled as late before. -/
def State.sectionLate (s : State) (p : Fin 4) (job idx : Nat) (t : TxRange) (allocs : List Nat) : State :=
  match s.txSlotOf idx with
  | none => s.lateLaunch p job idx allocs
  | some x =>
    if t.open_ x.late then (s.modTxSlot idx (fun y => { y with late := y.late ++ [t] })).lateLaunch p job idx allocs else s

/-- INDEXes of the allocations that a section belongs to: those transmitted on its port, its symbol and a PRB of it. -/
def TxSlot.covering (x : TxSlot) (t : TxRange) : List Nat :=
  (x.allocs.filter (fun a => !a.dropped && decide (a.sym0 ≤ t.sym ∧ t.sym < a.sym0 + a.nsym) && decide (a.prb0 < t.prb0 + t.nprb ∧ t.prb0 < a.prb0 + a.nprb) &&
    (a.pmode == 0 || decide (a.layer0 ≤ t.port ∧ t.port < a.layer0 + a.layers)))).map (fun a => a.index)

/-- The plan fields of a downlink allocation in the common layout (R205, R259). -/
def TxAlloc.shape (a : TxAlloc) : Alloc :=
  { entryAlloc [] with
    index := a.index, layers := a.layers, path := a.pmode, ueid := a.ueid, prb0 := a.prb0, nprb := a.nprb, sym0 := a.sym0, nsym := a.nsym,
    qm := a.qm, pilotMap := a.pilotMap, ppat := a.ppat, layer0 := a.layer0, seqId := a.seqId, decode := a.encode }

/-- A received byte; one that has not arrived counts as 0. -/
def gotByte (m : List (Nat × Option Byte)) (i : Nat) : Byte := (sget none m i).getD 0

/-- The coded bits of an allocation that transmits (R258, R260). -/
def TxAlloc.coded (a : TxAlloc) (tab : List Byte) : Array Bool :=
  let tb := (lsbBits ((List.range a.tbLen).map (gotByte a.tb))).take (codeParam a.encode).tbs
  (codeBits tab a.encode a.shape.coded a.qm a.layers tb).toArray

/-- The precoder's element for a port and layer on a PRB (R262, R346): granule of the allocation, port, layer. -/
def TxAlloc.weight (a : TxAlloc) (gran nport port prb l : Nat) : Int × Int :=
  let o := (((prb - a.prb0) / 2 ^ gran * nport + port) * a.layers + l) * 2
  (sx 8 (gotByte a.prec o).toNat, sx 8 (gotByte a.prec (o + 1)).toNat)

/-- What an allocation adds to a port on an RE (R262): the precoded layers with PMODE 0, its own port's layer with PMODE 1. -/
def TxAlloc.portRe (a : TxAlloc) (sect : List Byte) (pats : List Sys2Proof.PilotPattern) (idx gran nport : Nat) (coded : Array Bool) (port sym sc : Nat) : Int × Int :=
  let x := fun (l : Nat) => a.shape.reSymbol sect pats idx coded sym sc l
  if !a.shape.covers sym (sc / 12) then (0, 0)
  else if a.pmode = 0 then
    (List.range a.layers).foldl (fun (v : Int × Int) l =>
      let y := cmulI false (a.weight gran nport port (sc / 12) l) (x l)
      (v.1 + y.1, v.2 + y.2)) (0, 0)
  else if a.layer0 ≤ port ∧ port < a.layer0 + a.layers then x (port - a.layer0)
  else (0, 0)

/-- The CI16 samples of a section (R261, R262): the CI32 sums over the slot's allocations, drained with SHIFT equal to PSHIFT, and how many of them saturate; REs that no transmitted allocation reaches carry 0. -/
def State.txSamples (s : State) (x : TxSlot) (t : TxRange) : List Word × Nat :=
  let c := s.txPlanCfg
  let sect := s.graphBytes (s.roleJob 1)
  let gran := s.g Reg.JOB_TX_CFG_GRAN
  let sh := s.g Reg.JOB_TX_TIME_PSHIFT
  let live := (x.allocs.filter (fun a => a.started && !a.dropped)).map (fun a => (a, a.coded c.tab))
  let sums := (List.range (12 * t.nprb)).map (fun k =>
    let v := live.foldl (fun (v : Int × Int) e =>
      let y := e.1.portRe sect c.pats x.idx gran c.nport e.2 t.port t.sym (12 * t.prb0 + k)
      (v.1 + y.1, v.2 + y.2)) (0, 0)
    (rneInt v.1 sh, rneInt v.2 sh))
  (sums.map (fun v => packCi v.1 v.2), sums.countP (fun v => decide (satS 16 v.1 ≠ v.1 ∨ satS 16 v.2 ≠ v.2)))

/-- What a section named by a command carries. -/
def txRange (t : TxSection) : TxRange := ⟨t.antenna.toNat, t.sym.toNat, t.prb0.toNat, t.nprb.toNat⟩

/-- The launch entry of a section for its link and radio head, how many components its compression saturated, and how many samples its drain did (R261 to R264, R344). -/
def State.launchOf (s : State) (t : TxSection) (job link : Nat) (addr : BitVec 48) : Launch × Nat × Nat :=
  let scs := s.g Reg.JOB_TX_CFG_SCS
  let idx := t.sfn.toNat * spf scs + t.slot.toNat
  let start := s.edgeOf s.txDom scs (s.dom s.txDom).nanos idx
  let mw := s.g (Reg.FH_Pp_CFG_TXMW (linkPort link))
  let (samples, allocs) := match s.txSlotOf idx with
    | some x => (s.txSamples x (txRange t), x.covering (txRange t))
    | none => ((List.replicate (12 * t.nprb.toNat) 0, 0), [])
  let (data, sat) := compress (mantissaWidth mw) t.nprb.toNat samples.1
  let body := toLE 2 t.sfn.toNat ++ toLE 1 t.slot.toNat ++ toLE 1 (t.sym.toNat + mw <<< 4) ++ toLE 2 t.prb0.toNat ++
    toLE 2 t.nprb.toNat ++ zeros 8 ++ data
  let time := launchNs start scs t.sym.toNat (s.g Reg.JOB_TX_TIME_LEAD) % 2 ^ 32
  (⟨link, addr, job, time, idx, t.antenna.toNat, t.sym.toNat, t.prb0.toNat, t.nprb.toNat, allocs, body⟩, sat, samples.2)

/-- The frond whose drain forms the transmit job's samples: the lowest that it holds (DESIGN CHOICE, log 34). -/
def State.txFrond (s : State) (job : Nat) : Fin 6 := Fin.ofNat 6 ((s.jobFronds job).headD 0)

/-- EGRESS_SECTION_ENQUEUE (R261 to R264, R352, R354, R32): a section is formed from its slot's plan and data, its saturations counted, compressed, and enters the launch queue of the port its antenna port leaves on; a full queue refuses it; one whose launch time is past is late. -/
def execEgressSectionEnqueue (t : TxSection) (s : State) : Host.Outcome State Fault Refusal :=
  act (fun s =>
    match s.roleJob 2, s.txLink t.antenna.toNat with
    | some job, some (link, addr) =>
      let p := linkPort link
      let (l, sat, clipped) := s.launchOf t job link addr
      let s := s.addc (Reg.LEAF_SAT_CNT (s.txFrond job)) clipped
      let s := (s.addc Reg.JOB_TX_COMP_SAT_CNT sat).keepBlock job l.idx (l.port <<< 16 + l.sym <<< 12 + t.prb0.toNat) l.body
      if s.toLaunch l < 0 then s.sectionLate p job l.idx l.range l.allocs
      else if (s.fhp p).launch.length ≥ 4096 then s.inc (Reg.FH_P_EGQ_FULL_CNT p)
      else
        let s := s.modTxSlot l.idx (fun x => { x with queued := x.queued ++ [l.range] })
        (s.modFhp p (fun x => { x with launch := x.launch ++ [l] })).fhServe p
    | _, _ => s) s

/-- LAUNCH_TIME_REACHED (R400, R32): the entry's frame starts, or the missing section is late. A standby neither sends nor misses (R379). -/
def execLaunchTimeReached (l : LaunchRef) (s : State) : Host.Outcome State Fault Refusal :=
  act (fun s =>
    let s := s.fhServe l.port
    match s.roleJob 2, s.txSlotOf l.idx.toNat with
    | some job, some x =>
      let start := launchNs x.start (s.g Reg.JOB_TX_CFG_SCS) l.sym.val (s.g Reg.JOB_TX_TIME_LEAD)
      let r : TxRange := ⟨l.antenna.toNat, l.sym.val, l.prb0.toNat, l.nprb.toNat⟩
      if s.standby || !r.open_ x.queued || decide ((s.dom s.txDom).nanos < start) then s
      else s.sectionLate l.port job x.idx r (x.covering r)
    | _, _ => s) s

/-- FH_EGRESS_FRAME_END (R352): the frame on the line ends, and the port picks the next. -/
def execFhEgressFrameEnd (p : Fin 4) (s : State) : Host.Outcome State Fault Refusal :=
  act (fun s => (s.modFhp p (fun x => { x with busy := false })).fhServe p) s

/-! ### Frames dropped, one-way delay (R341, R351) -/

/-- The tag that a port expects (R341): one with its VID, or none. -/
def State.tagOk (s : State) (p : Fin 4) (vids : List (BitVec 12)) : Bool :=
  if s.on (Reg.FH_Pp_CFG_VLAN_EN p) then vids.map (·.toNat) == [s.g (Reg.FH_Pp_CFG_VID p)] else vids.isEmpty

/-- The reason for which a frame is dropped (R341): the first check it fails; 0 for an accepted one, and for a PTP frame, which goes to the time island ahead of the checks (R392). -/
def State.dropWhy (s : State) (x : FhIn) : Nat :=
  let p := linkPort x.link.val
  if x.fcsOk = true ∧ x.etherType = 0x88F7 ∧ ptpAddr x.dst = true ∧ (x.vids = [] ∨ s.tagOk p x.vids = true) then 0
  else if !x.fcsOk then 1
  else if x.dst ≠ BitVec.ofNat 48 (s.g64 Reg.FH_BASE_ADDR_LO Reg.FH_BASE_ADDR_HI + x.link.val) then 2
  else if !s.tagOk p x.vids then 3
  else if x.etherType ≠ 0xAEFE then 4
  else if x.first ≠ 0x10 then 5
  else if x.typ ≠ 0 ∧ x.typ ≠ 2 ∧ x.typ ≠ 5 then 6
  else if x.size ≠ x.rest then 7
  else if 9216 < x.len then 8
  else 0

/-- FH_FRAME_DROP (R341): a frame that fails a check is dropped and counted, with its reason shown. -/
def execFhFrameDrop (x : FhIn) (s : State) : Host.Outcome State Fault Refusal :=
  act (fun s =>
    let p := linkPort x.link.val
    let r := s.dropWhy x
    if decide (s.boot.phase ≠ .started) || !(s.g (Reg.FH_Pp_STS_LINK_UP p)).testBit (x.link.val % 4) || r == 0 then s
    else
      let s := (s.inc (Reg.FH_P_RX_DROP_CNT p)).p (Reg.FH_Pp_STS_DROP_WHY p) r
      if r = 1 then s.inc (Reg.FH_P_FCS_ERR_CNT p) else s) s

/-- A one-way delay message as it stands in a frame (PRESUMED from eCPRI 2.0, log 27): measurement ID, action type, ten bytes of time stamp, eight of compensation, 0 here. -/
def owdBody (id act_ : Nat) (t : FullTime) : List Byte := toBE 1 id ++ toBE 1 act_ ++ toBE 6 t.sec.toNat ++ toBE 4 t.ns.toNat ++ zeros 8

/-- A type 5 frame waits at its port; it draws from no bucket (R353). -/
def State.owdSend (s : State) (link : Nat) (addr : BitVec 48) (body : List Byte) : State :=
  (s.modFhp (linkPort link) (fun p => { p with ctl := p.ctl ++ [(⟨link, addr, 16, 5, body⟩ : CtlOut)] })).fhServe (linkPort link)

/-- A type 5 message of an action type is accepted and served. -/
def State.owd (s : State) (o : OwdMsg) (act_ : Nat) (f : State → State) : State :=
  let p := linkPort o.link.val
  if decide (s.boot.phase ≠ .started) || !(s.g (Reg.FH_Pp_STS_LINK_UP p)).testBit (o.link.val % 4) || o.act.toNat != act_ then s
  else f (s.inc (Reg.FH_P_RX_FRAME_CNT p))

/-- ECPRI_OWD_REQUEST (R351): answered with the time of reception in domain A. -/
def execEcpriOwdRequest (o : OwdMsg) (s : State) : Host.Outcome State Fault Refusal :=
  act (fun s => s.owd o 0 (fun s => s.owdSend o.link.val o.src (owdBody o.id.toNat 2 s.domA.full))) s

/-- ECPRI_OWD_REQUEST_FOLLOW_UP (R351): the time of reception waits for the follow-up. -/
def execEcpriOwdRequestFollowUp (o : OwdMsg) (s : State) : Host.Outcome State Fault Refusal :=
  act (fun s => s.owd o 1 (fun s =>
    let rest := s.fh.owd.filter (fun (w : Owd) => !(w.link == o.link.val && w.addr == o.src && w.id == o.id.toNat))
    { s with fh := { s.fh with owd := rest ++ [(⟨o.link.val, o.src, o.id.toNat, s.domA.full⟩ : Owd)] } })) s

/-- ECPRI_OWD_FOLLOW_UP (R351): the measurement that it completes is answered. -/
def execEcpriOwdFollowUp (o : OwdMsg) (s : State) : Host.Outcome State Fault Refusal :=
  act (fun s => s.owd o 5 (fun s =>
    match s.fh.owd.find? (fun (w : Owd) => w.link == o.link.val && w.addr == o.src && w.id == o.id.toNat) with
    | none => s
    | some w => ({ s with fh := { s.fh with owd := s.fh.owd.erase w } }).owdSend o.link.val o.src (owdBody o.id.toNat 2 w.stamp))) s

/-- ECPRI_OWD_REMOTE_REQUEST (R351): the device sends a request. -/
def execEcpriOwdRemoteRequest (o : OwdMsg) (s : State) : Host.Outcome State Fault Refusal :=
  act (fun s => s.owd o 3 (fun s => s.owdSend o.link.val o.src (owdBody o.id.toNat 0 s.domA.full))) s

/-- ECPRI_OWD_REMOTE_REQUEST_FOLLOW_UP (R351): the device sends a request with follow-up, then the follow-up with its time. -/
def execEcpriOwdRemoteRequestFollowUp (o : OwdMsg) (s : State) : Host.Outcome State Fault Refusal :=
  act (fun s => s.owd o 4 (fun s =>
    (s.owdSend o.link.val o.src (owdBody o.id.toNat 1 ⟨0, 0, 0⟩)).owdSend o.link.val o.src (owdBody o.id.toNat 5 s.domA.full))) s

/-- ECPRI_OWD_OTHER (R351): a response needs no answer; an action type above 0x05 is dropped and counted. -/
def execEcpriOwdOther (o : OwdMsg) (s : State) : Host.Outcome State Fault Refusal :=
  act (fun s => s.owd o o.act.toNat (fun s => if o.act.toNat ≤ 5 then s else s.inc (Reg.FH_P_CTL_BAD_CNT (linkPort o.link.val)))) s

end Sys2Proof.Machine
end

