-- ==== Sys2Proof/Machine/SlotEdge.lean ====
section
/-!
DEFINITION. What a slot start edge and a slot's deadline bring about (14 R399; 07 R203, R212, R221, R234, R237, R238; 09 R269, R286, R288; 13 R367, R378, R380).
-/
namespace Sys2Proof.Machine

open Sys2Proof (Byte Word Dom)

/-- Whether the receive job carries slots: it is RUNNING and the device is in RUN (R238). -/
def State.rxRuns (s : State) : Bool := s.inRun && (match s.roleJob 1 with | some j => s.jst j == 1 | none => false)

/-- An uplink slot starts (R212, R213, R238): its grid opens and it uses the models in force; while the receive job does not run its allocations are DISCARDED. -/
def State.rxSlotStart (s : State) (x : RxSlot) : State :=
  let runs := s.rxRuns
  let models := (s.slotLayers (s.activeSlot 0)).isSome && (s.slotLayers (s.activeSlot 1)).isSome
  let s := s.modRxSlot x.idx (fun y => if y.start = x.start then
    { y with edge := true, ended := !runs, mset := s.g Reg.JOB_TRN_MSET, allocs := y.allocs.map (fun a => { a with models := models }) } else y)
  if runs then s else x.allocs.foldl (fun t a => if a.done then t else t.deliver x.idx a 3 []) s

/-- User loops that have been unseen for RESET_SLOTS slots restart (R221). -/
def State.staleUsers (s : State) (now : Nat) : State :=
  { s with rx := { s.rx with users := s.rx.users.map (fun l => l.stale now (s.g Reg.JOB_RX_TRACK_RESET_SLOTS)) } }

/-- Records of slots that can no longer be named, and outcome counts that no watch can need, are dropped (R287, R475). -/
def State.pruneSlots (s : State) (t : Nat) : State :=
  let far := t - 5120000000
  let span := 2 * 65535 * 500000
  { s with rx := { s.rx with slots := s.rx.slots.filter (fun x => decide (far ≤ x.start)) },
           tx := s.tx.filter (fun x => decide (far ≤ x.start)),
           trn := { s.trn with past := s.trn.past.filter (fun (e : Nat × (Nat × Nat × Nat)) => decide (t - span ≤ e.1)) } }

/-- The slot with an index and a start edge begins for the receive job (R202, R212, R221, R234, R286, R288). -/
def State.rxEdge (s : State) (idx t : Nat) (frame : Bool) : State :=
  let s := s.modelEdge t
  let s := match s.rx.slots.find? (fun x => x.idx == idx && x.start == t && !x.edge) with
    | some x => s.rxSlotStart x
    | none => s
  let s := s.staleUsers (s.slotNo t)
  let s := if frame && s.rxRuns then s.noisePeriod idx else s
  s.pruneSlots t

/-- The slot begins for the transmit job: a cut-off that has not come yet comes now (R260, R346). -/
def State.txEdge (s : State) (idx t : Nat) : State :=
  match s.tx.find? (fun x => x.idx == idx && x.start == t && !x.cut) with
  | some x => s.txCutoff x
  | none => s

/-- The slot edge at an instant of a domain at the receive job's spacing: the membership change of the group (R367) and the pair's takeover (R380) come first, then the receive job's slot-bound acts. An edge that has fired does not fire again (R388). -/
def State.rxSlotEdge (s : State) (d : Dom) (t : Nat) : State :=
  if (s.dom d).edgeAt = t + 1 then s
  else
  let s := s.setDom d { s.dom d with edgeAt := t + 1 }
  let scs := s.g Reg.JOB_RX_CFG_SCS
  let idx := s.slotIdxAt d scs t
  let s := if s.groupSect.isSome && d == s.groupDom then (s.memberEdges t).pairEdge idx else s
  if (s.roleJob 1).isSome && d == s.rxDom then s.rxEdge idx t (idx % spf scs == 0) else s

/-- The slot edge at an instant of a domain at the transmit job's spacing. -/
def State.txSlotEdge (s : State) (d : Dom) (t : Nat) : State :=
  if (s.roleJob 2).isSome && d == s.txDom then s.txEdge (s.slotIdxAt d (s.g Reg.JOB_TX_CFG_SCS) t) t else s

/-- SLOT_START_EDGE (R399): a domain has reached the start of the slot SFN, SLOT; the acts of the jobs that use the domain and whose slot it is happen. -/
def execSlotStartEdge (dom : Dom) (sfn : BitVec 10) (slot : BitVec 7) (s : State) : Host.Outcome State Fault Refusal :=
  act (fun s =>
    let now := (s.dom dom).nanos
    let rxScs := s.g Reg.JOB_RX_CFG_SCS
    let txScs := s.g Reg.JOB_TX_CFG_SCS
    let here := fun (scs : Nat) => decide (slot.toNat < spf scs) && s.slotIdxAt dom scs now == sfn.toNat * spf scs + slot.toNat
    let rx := here rxScs
    let tx := here txScs
    let rt := s.edgeBefore dom rxScs now
    let tt := s.edgeBefore dom txScs now
    let s := if rx then s.rxSlotEdge dom rt else s
    if tx then s.txSlotEdge dom tt else s) s

/-- What D(n) leaves of an open slot (R203, R237, R269): what is not delivered is LATE, unfinished label work is cancelled, the slot's buffers pass on. -/
def State.closeSlot (s : State) (x : RxSlot) : State :=
  let s := x.allocs.foldl (fun (t : State) a => t.lateReport x.idx a 0) s
  let s := (s.rx.slots.filter (fun y => y.idx == x.idx && y.edge && !y.ended)).foldl (fun (t : State) y => t.labelCancel y) s
  s.modRxSlot x.idx (fun y => if y.edge then { y with ended := true, grid := [], copies := [], est := [], turns := [] } else y)

/-- DEADLINE_EDGE (R203, R237, R269, R378): D(n) has come. What is undecided is decided, the slot is closed, and the pair's digests are made, those of a slot that has carried nothing as well. -/
def execDeadlineEdge (idx : BitVec 17) (s : State) : Host.Outcome State Fault Refusal :=
  act (fun s =>
    let n := idx.toNat
    let due := s.rx.slots.any (fun y => y.idx == n && y.edge && !y.ended && s.pastD y)
    if due then
      let s := s.guardExpiry n
      ((s.rx.slots.filter (fun y => y.idx == n && y.edge && !y.ended)).foldl (fun (t : State) y => t.closeSlot y) s).pairDigest n
    else if s.digestDue n then s.pairDigest n
    else s) s

end Sys2Proof.Machine
end

