-- ==== Sys2Proof/Machine/Time.lean ====
section
/-!
DEFINITION. The two time domains (14 R384 to R390): what a servo may write, states, who uses a domain, acts that a change of time passes over, hand-over (R397, R398) and the management message TIME_SERVO (R394).
-/
namespace Sys2Proof.Machine

open Sys2Proof (Byte Word Dom MgReq CoreRef)

/-! ### Who uses a domain (R385) -/

/-- Whether a job uses a domain: the receive or transmit job by its TDOM, or a group-bound job while the group domain is that one. -/
def State.usesDom (s : State) (d : Dom) (j : Nat) : Bool :=
  let r := (s.job j).bind.role
  (s.job j).bind.valid && ((r == 1 && s.rxDom == d) || (r == 2 && s.txDom == d) || (s.gjobs.testBit j && s.groupDom == d))

/-- The running real-time jobs that use a domain. -/
def State.domUsers (s : State) (d : Dom) : List Nat := s.jobNums.filter (fun j => !(s.job j).bind.kind && s.jst j == 1 && s.usesDom d j)

/-- Whether a running real-time job or the group identity uses a domain. -/
def State.domInUse (s : State) (d : Dom) : Bool := !(s.domUsers d).isEmpty || (s.groupSect.isSome && s.groupDom == d)

/-- The real-time jobs that use a domain restart, with EV_JOB_FAULT of the given code and SOURCE TIME, never counting as faults (R385, R386). -/
def State.restartUsers (s : State) (d : Dom) (code : Nat) : State :=
  (s.domUsers d).foldl (fun t j => t.askRestart j (some (code, 4)) false false) s

/-! ### States of a domain (R389, R397) -/

/-- A domain shows a state; a change raises EV_TIME_STATE. HOLDOVER starts its timer. -/
def State.showState (s : State) (d : Dom) (new : Nat) : State :=
  let n := domNo d
  let old := s.g (Reg.TIME_d_STS_STATE n)
  let s := (s.p (Reg.TIME_d_STS_STATE n) new).p (Reg.TIME_d_STS_VALID n) (b2n (new == 2 || new == 3))
  let s := if new = 3 ∧ old ≠ 3 then s.setDom d { s.dom d with holdAt := s.ticks } else s
  let s := if new = 2 then s.setDom d { s.dom d with reached := true } else s
  if old = new then s else s.ev 0x0A01 0x04 (n + old <<< 4 + new <<< 8)

/-- A domain enters a state; a follower shows its leader's state too (R397), and a group leader that loses valid time fences itself (R364). -/
def State.timeState (s : State) (d : Dom) (new : Nat) : State :=
  let s := s.showState d new
  let s := if s.follows (other d) then s.showState (other d) new else s
  s.leaderTimeLost

/-- A write of the servo restarts the domain's 2 s timer (R389). -/
def State.servoFed (s : State) (d : Dom) : State := s.setDom d { s.dom d with servoAt := s.ticks }

/-- A write or a step refused counts (R384 to R389). -/
def State.rej (s : State) (d : Dom) : State := s.inc (Reg.TIME_d_REJ_CNT (domNo d))

/-! ### Acts passed over (R388; log 30) -/

/-- The domain at a time in 2^-40 ns. -/
def Domain.at (d : Domain) (u : Nat) : Domain :=
  { d with sec := BitVec.ofNat 64 (u >>> 40 / 1000000000), ns := BitVec.ofNat 30 (u >>> 40 % 1000000000), frac := BitVec.ofNat 40 u }

/-- Slot edges of a spacing strictly between two instants that can leave something behind: those of the slots in `starts`, the first frame boundary and the last sixteen. -/
def State.edgesPassed (s : State) (d : Dom) (scs t0 t1 : Nat) (starts : List Nat) : List Nat :=
  let last := s.edgeBefore d scs (t1 - 1)
  let recent := (List.range 16).map (fun k => last - k * slotNs scs)
  let frame := t0 + 10000000 - s.tPrime d t0 % 10000000
  sortBy id ((frame :: (starts ++ recent)).eraseDups.filter (fun t => decide (t0 < t ∧ t < t1)))

/-- The slot edges passed over fire in time order. -/
def State.fireEdges (s : State) (d : Dom) (t0 t1 : Nat) : State :=
  let rxScs := s.g Reg.JOB_RX_CFG_SCS
  let rx := s.edgesPassed d rxScs t0 t1 ((s.rx.slots.filter (fun x => !x.edge)).map (fun x => x.start))
  let tx := s.edgesPassed d (s.g Reg.JOB_TX_CFG_SCS) t0 t1 ((s.tx.filter (fun x => !x.cut)).map (fun x => x.start))
  (sortBy id (rx ++ tx).eraseDups).foldl (fun (s : State) t =>
    let s := if rx.contains t then s.rxSlotEdge d t else s
    if tx.contains t then s.txSlotEdge d t else s) s

/-- Launch entries passed over are not sent and are late (R32, R388). -/
def State.skipLaunches (s : State) (passed : Int) : State :=
  (List.finRange 4).foldl (fun (s : State) p =>
    let gone := (s.fhp p).launch.filter (fun l => decide (s.toLaunch l < 0 ∧ 0 < s.toLaunch l + passed))
    let s := s.modFhp p (fun x => { x with launch := x.launch.filter (fun l => !gone.contains l) })
    gone.foldl (fun t l => t.sectionLate p l.job l.idx l.range l.allocs) s) s

/-- Barrier releases passed over fire at once (R388). -/
def State.skipBarriers (s : State) (passed : Int) : State :=
  (s.grp.ops.filter (fun o => match o.release with
    | some t => decide (ctDiff t (s.compact s.groupDom) < 0 ∧ 0 < ctDiff t (s.compact s.groupDom) + passed)
    | none => false)).foldl (fun (t : State) o => match o.release with | some r => t.barrierRelease o r | none => t) s

/-- Every core. -/
def allCores : List CoreRef := (List.finRange 6).flatMap (fun f => (List.finRange 8).map (fun c => ⟨f, c⟩))

/-- A domain's counter takes a new time at once, in every copy (R388): forward, the acts passed over fire; back, a slot edge that lies ahead again fires when it is reached again. -/
def State.moveTime (s : State) (d : Dom) (u : Nat) : State :=
  let t0 := (s.dom d).nanos
  let s := s.setDom d ((s.dom d).at u)
  let t1 := (s.dom d).nanos
  if t1 ≤ t0 then (if t1 + 1 < (s.dom d).edgeAt then s.setDom d { s.dom d with edgeAt := 0 } else s)
  else
    let s := s.fireEdges d t0 t1
    let s := if d = s.txDom then s.skipLaunches ((t1 : Int) - t0) else s
    let s := if d = s.groupDom then s.skipBarriers ((t1 : Int) - t0) else s
    allCores.foldl (fun t k => if domOf (t.g (Reg.SIG_Cc_TCFG_TDOM k.f.val k.c.val)) = d then t.timeSource k else t) s

/-! ### Following (R397) -/

/-- A signed number of nanoseconds as EV_TIME_STEP and EV_TIME_HANDOVER carry it: 32 bits, rounded to nearest even and saturating (R103, R401). -/
def nsArg (u : Int) : Nat := toBits 32 (satS 32 (rneDivI u (2 ^ 40)))

/-- The follower closes δ (R397): above HO_MAX it is stepped by δ with FORCE, whatever the size; else it slews, and it is coupled once δ is below 1 ns. Answers whether it stepped. -/
def State.closeGap (s : State) (f : Dom) : State × Bool :=
  let gap := s.gap f
  let n := domNo f
  if s.g Reg.TIME_HO_CFG_HO_MAX * 1000 * 2 ^ 40 < gap.natAbs then
    let beyond := decide (s.g (Reg.TIME_d_CFG2_STEP_MAX n) * 2 ^ 40 < gap.natAbs)
    let s := s.moveTime f (s.dom (other f)).units
    let s := (s.p (Reg.TIME_d_STS_COUPLED n) 1).ev 0x0A02 0x04 (n + b2n beyond <<< 9 + nsArg gap <<< 32)
    (if beyond then s.restartUsers f 0x0A02 else s, true)
  else (s.p (Reg.TIME_d_STS_COUPLED n) (b2n (closed gap)), false)

/-- After a change of a domain's time, the other one closes the gap if it follows (R397). -/
def State.recouple (s : State) (d : Dom) : State := if s.follows (other d) then (s.closeGap (other d)).1 else s

/-! ### What a servo writes (R384 to R387, R389) -/

/-- The least and the greatest TIME_d_INCR (R384). -/
def incrOk (v : Nat) : Bool := decide (0x00FFE0000000 ≤ v ∧ v ≤ 0x010020000000)

/-- An increment (R384): applied, or refused and counted outside its range. -/
def State.writeIncr (s : State) (d : Dom) (v : Nat) : State × Bool :=
  if incrOk v then
    let n := domNo d
    let s := (s.p (Reg.TIME_d_INCR_LO n) (v % 2 ^ 32)).p (Reg.TIME_d_INCR_HI n) (v / 2 ^ 32)
    ((s.setDom d { s.dom d with incr := BitVec.ofNat 48 v }).servoFed d, true)
  else (s.rej d, false)

/-- An offset of a step in 2^-40 ns: signed nanoseconds and a fraction. -/
def stepUnits (ns : Int) (fr : Nat) : Int := ns * (2 ^ 40 : Nat) + (fr <<< 24 : Nat)

/-- A step (R385, R387): refused above 999,999,999 ns, below time 0, or above STEP_MAX without FORCE while the domain is in use; discarded when a SET came at the same tick. A step above STEP_MAX with FORCE restarts the real-time jobs that use the domain. -/
def State.stepTime (s : State) (d : Dom) (ns : Int) (fr : Nat) (force : Bool) : State × Bool :=
  let n := domNo d
  let off := stepUnits ns fr
  let beyond := decide (s.g (Reg.TIME_d_CFG2_STEP_MAX n) * 2 ^ 40 < off.natAbs)
  let arg := n + toBits 32 ns <<< 32
  if (s.dom d).setAt = s.ticks + 1 then (s.rej d, true)
  else if decide (999999999 < ns.natAbs) || decide (((s.dom d).units : Int) + off < 0) || (beyond && !force && s.domInUse d) then
    ((s.ev 0x0A02 0x04 (arg + 1 <<< 8)).rej d, false)
  else
    let s := s.moveTime d (((s.dom d).units : Int) + off).toNat
    let s := (s.setDom d { s.dom d with stepAt := s.ticks + 1 }).servoFed d
    let s := s.ev 0x0A02 0x04 (arg + b2n (beyond && force) <<< 9)
    let s := if beyond && force then s.restartUsers d 0x0A02 else s
    (s.recouple d, true)

/-- A SET (R386, R387): refused and counted with 1,000,000,000 ns or more; else the counter is loaded with fraction 0, the domain is ACQUIRING, the real-time jobs that use it restart, and a step of the same tick counts as discarded. -/
def State.setTime (s : State) (d : Dom) (sec ns : Nat) : State × Bool :=
  if 1000000000 ≤ ns then (s.rej d, false)
  else
    let s := if (s.dom d).stepAt = s.ticks + 1 then s.rej d else s
    let users := s.domUsers d
    let s := s.moveTime d ((sec * 1000000000 + ns) <<< 40)
    let s := (s.setDom d { s.dom d with setAt := s.ticks + 1 }).timeState d 1
    let s := users.foldl (fun t j => t.askRestart j (some (0x0A01, 4)) false false) s
    (s.recouple d, true)

/-- LOCK (R389): LOCKED from ACQUIRING, HOLDOVER or EXPIRED, and the servo's timer restarts; refused in UNSET. -/
def State.lockTime (s : State) (d : Dom) : State × Bool :=
  if s.g (Reg.TIME_d_STS_STATE (domNo d)) = 0 then (s.rej d, false) else ((s.timeState d 2).servoFed d, true)

/-- UNLOCK (R389): ACQUIRING from LOCKED, HOLDOVER or EXPIRED; refused in UNSET or ACQUIRING. -/
def State.unlockTime (s : State) (d : Dom) : State × Bool :=
  if s.g (Reg.TIME_d_STS_STATE (domNo d)) ≤ 1 then (s.rej d, false) else (s.timeState d 1, true)

/-! ### Registers (R384 to R389, R397) -/

/-- A write to a register of a domain by an agent that may write it; a follower's is ignored and counted (R397). -/
def State.timeReg (s : State) (agent : Nat) (d : Dom) (a v : Nat) (g : State → State) : State :=
  s.guard agent a true (fun s =>
    if !s.mayWrite agent .fwmg then s.writeSeen (s.peek a).toNat agent a v
    else if s.follows d then s.ignore
    else g s)

/-- TIME_d_INCR_LO: the value waits for INCR_HI (R384). -/
def State.incrLoWrite (s : State) (agent : Nat) (d : Dom) (v : Nat) : State :=
  s.timeReg agent d (Reg.TIME_d_INCR_LO (domNo d)).addr v (fun s => s.writeFields agent (Reg.TIME_d_INCR_LO (domNo d)).addr v)

/-- TIME_d_INCR_HI: the 48-bit value is applied (R384). -/
def State.incrWrite (s : State) (agent : Nat) (d : Dom) (v : Nat) : State :=
  let n := domNo d
  s.timeReg agent d (Reg.TIME_d_INCR_HI n).addr v (fun s =>
    let x := s.g (Reg.TIME_d_INCR_LO n) + (v % 2 ^ 16) <<< 32
    if incrOk x then ((s.writeFields agent (Reg.TIME_d_INCR_HI n).addr v).writeIncr d x).1 else (s.writeIncr d x).1)

/-- TIME_d_STEP_CTL: GO steps the domain, or refuses the step, and then nothing else changes (R385). -/
def State.stepWrite (s : State) (agent : Nat) (d : Dom) (v : Nat) : State :=
  let n := domNo d
  let F := Reg.TIME_d_STEP_CTL_GO n
  if !v.testBit 16 then s.guard agent F.addr true (fun s => s.writeFields agent F.addr v)
  else s.timeReg agent d F.addr v (fun s =>
    let (t, ok) := s.stepTime d (sx 32 (s.g (Reg.TIME_d_STEP_NS n))) (v % 2 ^ 16) (v.testBit 17)
    if ok then (t.writeFields agent F.addr v).p F 0 else t)

/-- TIME_d_SET_NS: GO loads the counter (R386). -/
def State.setWrite (s : State) (agent : Nat) (d : Dom) (v : Nat) : State :=
  let n := domNo d
  let F := Reg.TIME_d_SET_NS_GO n
  if !v.testBit 31 then s.guard agent F.addr true (fun s => s.writeFields agent F.addr v)
  else s.timeReg agent d F.addr v (fun s =>
    let (t, ok) := s.setTime d (s.g64 (Reg.TIME_d_SET_SEC_LO n) (Reg.TIME_d_SET_SEC_HI n)) (v % 2 ^ 30)
    if ok then (t.writeFields agent F.addr v).p F 0 else t)

/-- TIME_d_CTL: LOCK or UNLOCK; both at once change nothing and count (R389). Both fields read 0. -/
def State.ctlWrite (s : State) (agent : Nat) (d : Dom) (v : Nat) : State :=
  let n := domNo d
  let F := Reg.TIME_d_CTL_LOCK n
  if v % 4 = 0 then s.guard agent F.addr true (fun s => s.writeFields agent F.addr v)
  else s.timeReg agent d F.addr v (fun s =>
    let s := ((s.writeFields agent F.addr v).p F 0).p (Reg.TIME_d_CTL_UNLOCK n) 0
    match v % 4 with
    | 1 => (s.lockTime d).1
    | 2 => (s.unlockTime d).1
    | _ => s.rej d)

/-- TIME_INCR_WRITE (R384): a write of TIME_d_INCR_HI. -/
def execTimeIncrWrite (agent : Byte) (dom : Dom) (val : Word) (s : State) : Host.Outcome State Fault Refusal :=
  act (fun s => s.incrWrite agent.toNat dom val.toNat) s

/-- TIME_STEP (R385, R388): a write of TIME_d_STEP_CTL. -/
def execTimeStep (agent : Byte) (dom : Dom) (val : Word) (s : State) : Host.Outcome State Fault Refusal :=
  act (fun s => s.stepWrite agent.toNat dom val.toNat) s

/-- TIME_SET (R386, R388): a write of TIME_d_SET_NS. -/
def execTimeSet (agent : Byte) (dom : Dom) (val : Word) (s : State) : Host.Outcome State Fault Refusal :=
  act (fun s => s.setWrite agent.toNat dom val.toNat) s

/-- TIME_LOCK (R389): a write of TIME_d_CTL, as its bits say. -/
def execTimeLock (agent : Byte) (dom : Dom) (val : Word) (s : State) : Host.Outcome State Fault Refusal :=
  act (fun s => s.ctlWrite agent.toNat dom val.toNat) s

/-- TIME_UNLOCK (R389): a write of TIME_d_CTL, as its bits say. -/
def execTimeUnlock (agent : Byte) (dom : Dom) (val : Word) (s : State) : Host.Outcome State Fault Refusal :=
  act (fun s => s.ctlWrite agent.toNat dom val.toNat) s

/-! ### TIME_SERVO (R394) -/

/-- Whether the payload is in order but for what its OP asks: LEN 20, OP 1 to 5, reserved bytes and bits 0, VALUE and NS within their bits. -/
def servoForm (p : List Byte) : Bool :=
  let op := byteAt p 1
  let v := le p 8 8
  let ns := le p 16 4
  decide (p.length = 20 ∧ byteAt p 0 ≤ 1 ∧ 1 ≤ op ∧ op ≤ 5 ∧ ns < 2 ^ 30) && zeroRange p 2 6 && (op == 3 || ns == 0) &&
    (match op with
     | 1 => decide (v < 2 ^ 48)
     | 2 => bits v 48 15 == 0
     | 3 => true
     | _ => v == 0)

/-- A TIME_SERVO message: its form, then whether the domain follows, then its OP; the registers take what it writes (R387, R394). Status 0 OK, 3 STATE, 4 RANGE. -/
def State.servoMsg (s : State) (r : MgReq) : State :=
  s.mgServe 0x0030 false r (fun s =>
    let p := r.payload
    let d := domOf (byteAt p 0)
    let n := domNo d
    let v := le p 8 8
    if !servoForm p then s.mgAnswer 0x0030 r.seq 4 []
    else if s.follows d then s.mgAnswer 0x0030 r.seq 3 []
    else
      let ans := fun (x : State × Bool) (bad : Nat) => x.1.mgAnswer 0x0030 r.seq (if x.2 then 0 else bad) []
      match byteAt p 1 with
      | 1 => ans (s.writeIncr d v) 4
      | 2 =>
        let (t, ok) := s.stepTime d (sx 32 (v % 2 ^ 32)) (bits v 32 16) (v.testBit 63)
        let t := if ok then ((t.p (Reg.TIME_d_STEP_NS n) (v % 2 ^ 32)).p (Reg.TIME_d_STEP_CTL_FR n) (bits v 32 16)).p
          (Reg.TIME_d_STEP_CTL_FORCE n) (bits v 63 1) else t
        ans (t, ok) 4
      | 3 =>
        let (t, ok) := s.setTime d v (le p 16 4)
        let t := if ok then ((t.p (Reg.TIME_d_SET_SEC_LO n) (v % 2 ^ 32)).p (Reg.TIME_d_SET_SEC_HI n) (v / 2 ^ 32)).p
          (Reg.TIME_d_SET_NS_SET_NS n) (le p 16 4) else t
        ans (t, ok) 4
      | 4 => ans (s.lockTime d) 3
      | _ => ans (s.unlockTime d) 3)

/-- TIME_SERVO_INCR (R394). -/
def execTimeServoIncr (r : MgReq) (s : State) : Host.Outcome State Fault Refusal := act (fun s => s.servoMsg r) s
/-- TIME_SERVO_STEP (R394). -/
def execTimeServoStep (r : MgReq) (s : State) : Host.Outcome State Fault Refusal := act (fun s => s.servoMsg r) s
/-- TIME_SERVO_SET (R394). -/
def execTimeServoSet (r : MgReq) (s : State) : Host.Outcome State Fault Refusal := act (fun s => s.servoMsg r) s
/-- TIME_SERVO_LOCK (R394). -/
def execTimeServoLock (r : MgReq) (s : State) : Host.Outcome State Fault Refusal := act (fun s => s.servoMsg r) s
/-- TIME_SERVO_UNLOCK (R394). -/
def execTimeServoUnlock (r : MgReq) (s : State) : Host.Outcome State Fault Refusal := act (fun s => s.servoMsg r) s

/-! ### Hand-over (R397, R398) -/

/-- FOLLOW 1 or 2 starts (R397): the follower closes δ and shows its leader's state; EV_TIME_HANDOVER. -/
def State.startFollow (s : State) (k : Nat) : State :=
  let f : Dom := if k = 1 then .a else .b
  let gap := s.gap f
  let (s, stepped) := (s.p Reg.TIME_HO_CTL k).closeGap f
  let s := s.showState f (s.g (Reg.TIME_d_STS_STATE (domNo (other f))))
  (s.ev 0x0A05 0x04 (k + b2n stepped <<< 2 + nsArg gap <<< 32)).leaderTimeLost

/-- FOLLOW 0 releases the follower (R397): its time stays, its INCR is the leader's without the slew, and it enters HOLDOVER; EV_TIME_HANDOVER. -/
def State.endFollow (s : State) (f : Dom) : State :=
  let n := domNo f
  let v := (s.dom (other f)).incr
  let gap := s.gap f
  let s := ((s.p Reg.TIME_HO_CTL 0).p (Reg.TIME_d_STS_COUPLED n) 0).p (Reg.TIME_d_INCR_LO n) (v.toNat % 2 ^ 32)
  let s := s.p (Reg.TIME_d_INCR_HI n) (v.toNat / 2 ^ 32)
  let s := s.setDom f { s.dom f with incr := v }
  (s.ev 0x0A05 0x04 (nsArg gap <<< 32)).timeState f 3

/-- A write to TIME_HO_CTL (R397): FOLLOW 3, and a change from one follower to the other without a release, are ignored and counted. -/
def State.followWrite (s : State) (agent v : Nat) : State :=
  let a := Reg.TIME_HO_CTL.addr
  s.guard agent a true (fun s =>
    let now := s.g Reg.TIME_HO_CTL
    let k := v % 4
    if !s.mayWrite agent .fwmg then s.writeFields agent a v
    else if k = 3 ∨ (now ≠ 0 ∧ k ≠ 0 ∧ k ≠ now) then s.ignore
    else if k = now then s.writeFields agent a v
    else match s.follower with
      | some f => (s.writeFields agent a v).endFollow f
      | none => (s.writeFields agent a v).startFollow k)

/-- HANDOVER_FOLLOW (R397): a write of TIME_HO_CTL. -/
def execHandoverFollow (agent : Byte) (val : Word) (s : State) : Host.Outcome State Fault Refusal :=
  act (fun s => s.followWrite agent.toNat val.toNat) s

/-- HANDOVER_RELEASE (R397): a write of TIME_HO_CTL. -/
def execHandoverRelease (agent : Byte) (val : Word) (s : State) : Host.Outcome State Fault Refusal :=
  act (fun s => s.followWrite agent.toNat val.toNat) s

/-- HANDOVER_COUPLED (R397): the follower that slews has closed its gap to below 1 ns: what is left of the slew is made up in whole ticks of it, COUPLED is set, and it adds the leader's INCR alone (log 30). -/
def execHandoverCoupled (dom : Dom) (s : State) : Host.Outcome State Fault Refusal :=
  act (fun s =>
    let n := domNo dom
    if !s.follows dom || s.on (Reg.TIME_d_STS_COUPLED n) then s
    else
      let gap := s.gap dom
      let k := if closed gap then 0 else ceilDiv (gap.natAbs - 2 ^ 40 + 1) s.slew
      let turn : Int := (k * s.slew : Nat)
      let u : Int := (s.dom dom).units + (if 0 < gap then turn else -turn)
      (s.setDom dom ((s.dom dom).at u.toNat)).p (Reg.TIME_d_STS_COUPLED n) 1) s

/-- HANDOVER_AUTO (R398): a domain in use that has become EXPIRED follows the other, LOCKED one when AUTO is 1 and nothing follows. -/
def State.autoFollow (s : State) (d : Dom) : State :=
  if s.on Reg.TIME_HO_CFG_AUTO && s.domInUse d && s.g (Reg.TIME_d_STS_STATE (domNo (other d))) == 2 && s.follower.isNone then
    s.startFollow (domNo d + 1)
  else s

/-- TIME_HOLDOVER_ENTRY (R389): 2 s without a write of the servo: HOLDOVER from LOCKED. -/
def execTimeHoldoverEntry (dom : Dom) (s : State) : Host.Outcome State Fault Refusal :=
  act (fun s => if s.g (Reg.TIME_d_STS_STATE (domNo dom)) = 2 ∧ s.follows dom = false ∧ (s.dom dom).servoAt + 2000000000 ≤ s.ticks then s.timeState dom 3 else s) s

/-- TIME_HOLDOVER_EXPIRY (R389, R398, R364): HOLD_S seconds in HOLDOVER: EXPIRED; a domain in use may follow the other, and a group leader without valid time gives way. -/
def execTimeHoldoverExpiry (dom : Dom) (s : State) : Host.Outcome State Fault Refusal :=
  act (fun s =>
    if s.g (Reg.TIME_d_STS_STATE (domNo dom)) = 3 ∧ s.follows dom = false ∧
        (s.dom dom).holdAt + s.g (Reg.TIME_d_CFG3 (domNo dom)) * 1000000000 ≤ s.ticks then
      let s := s.showState dom 4
      let s := if s.follows (other dom) then s.showState (other dom) 4 else s
      (s.autoFollow dom).leaderTimeLost
    else s) s

/-! ### The internal servo (R476) -/

/-- An increment in the range of R384 that the servo chooses: a free value (log 5). -/
def freeIncr (w : Word) : Nat := 0x00FFE0000000 + w.toNat % (2 ^ 30 + 1)

/-- The internal servo corrects a domain in HOLDOVER or EXPIRED by its offset θ from a source regained, in ns (R476): a step by −θ, steering by INCR, or a SET, and LOCK once θ is within STEP_MAX. -/
def State.servoRegain (s : State) (d : Dom) (ofs : Int) : State :=
  let n := domNo d
  let st := s.g (Reg.TIME_d_STS_STATE n)
  if s.on (Reg.TIME_d_CFG_SERVO n) || s.follows d || !(st == 3 || st == 4) then s
  else if ofs.natAbs ≤ s.g (Reg.TIME_d_CFG2_STEP_MAX n) then ((s.stepTime d (-ofs) 0 false).1.lockTime d).1
  else if ofs.natAbs ≤ s.g Reg.TIME_HO_CFG_HO_MAX * 1000 then
    let (w, s) := s.free
    (s.writeIncr d (freeIncr w)).1
  else
    let t := ((s.dom d).nanos - ofs).toNat
    ((s.setTime d (t / 1000000000) (t % 1000000000)).1.lockTime d).1

/-- SERVO_SOURCE_REGAINED (R476). -/
def execServoSourceRegained (dom : Dom) (ofs : Int) (s : State) : Host.Outcome State Fault Refusal := act (fun s => s.servoRegain dom ofs) s

end Sys2Proof.Machine
end

