-- ==== Sys2Proof/Machine/Ptp.lean ====
section
/-!
DEFINITION. PTP (14 R391 to R394), the pulses PPS_IN (R395, R462) and PPS_OUT (R396).
-/
namespace Sys2Proof.Machine

open Sys2Proof (Byte Word Dom PtpMsg FullTime)

/-! ### PTP -/

/-- Whether a domain takes part in PTP on a link that is up (R391, R392). -/
def State.ptpOn (s : State) (d : Dom) (link : Nat) : Bool :=
  let n := domNo d
  let up := if h : link < 16 then s.linkUp (.fh ⟨link, h⟩) else s.linkUp .mg
  s.on (Reg.TIME_d_CFG_EN n) && s.g (Reg.TIME_d_CFG_PORT n) == link && up

/-- A message of a type reaches a domain: it must come over the domain's link in its PTP domain; one of another domain number is dropped and counted (R391, R392). -/
def State.ptpTake (s : State) (d : Dom) (m : PtpMsg) (typ : Nat) (f : State → State) : State :=
  if !s.ptpOn d m.link.val || m.typ.toNat != typ then s
  else if m.ptpdom.toNat ≠ s.g (Reg.TIME_d_CFG_PTPDOM (domNo d)) then s.inc (Reg.TIME_d_PTP_DROP_CNT (domNo d))
  else f s

/-- Whether a message comes from the master selected. -/
def State.fromMaster (s : State) (d : Dom) (m : PtpMsg) : Bool := (s.ptp d).master == some m.master

/-- The receive stamp of a frame now, with ASYM of the domain's link (R393). -/
def State.rxStamp (s : State) (d : Dom) : FullTime :=
  let u : Int := (s.dom d).nanos * 64 + ((s.dom d).frac.toNat / 2 ^ 34 : Nat) + sx 16 (s.g (Reg.TIME_d_CFG2_ASYM (domNo d)))
  let k := u.toNat
  ⟨BitVec.ofNat 64 (k / 64 / 1000000000), BitVec.ofNat 30 (k / 64 % 1000000000), BitVec.ofNat 16 (k % 64 * 1024)⟩

/-- PTP_ANNOUNCE (R391): a master of a lower rank than the one selected, or the first, is selected; the rank is its place in the alternate BMCA's order, the lower the better. -/
def execPtpAnnounce (dom : Dom) (m : PtpMsg) (s : State) : Host.Outcome State Fault Refusal :=
  act (fun s => s.ptpTake dom m 0xB (fun s =>
    let p := s.ptp dom
    if p.master.isNone || p.master == some m.master then
      (s.modPtp dom (fun x => { x with master := some m.master, announceRank := m.rank })).p (Reg.TIME_d_STS_SRC_OK (domNo dom)) 1
    else if m.rank < p.announceRank then
      s.modPtp dom (fun x => { x with master := some m.master, announceRank := m.rank, twoStep := none, t1 := none, t2 := none, t3 := none })
    else s)) s

/-- PTP_SYNC (R391, R393): a Sync of the master is stamped; a one-step Sync carries t1, a two-step one waits for its Follow_Up. -/
def execPtpSync (dom : Dom) (m : PtpMsg) (s : State) : Host.Outcome State Fault Refusal :=
  act (fun s => s.ptpTake dom m 0x0 (fun s =>
    if !s.fromMaster dom m then s
    else
      let t2 := s.rxStamp dom
      s.modPtp dom (fun x => { x with syncSeq := m.seq, t2 := some t2, corr := m.corr, t1 := (if m.twoStep then none else some m.stamp), twoStep := (if m.twoStep then some m.seq else none) }))) s

/-- PTP_FOLLOW_UP (R391): t1 of the two-step Sync that waits for it. -/
def execPtpFollowUp (dom : Dom) (m : PtpMsg) (s : State) : Host.Outcome State Fault Refusal :=
  act (fun s => s.ptpTake dom m 0x8 (fun s =>
    if s.fromMaster dom m && (s.ptp dom).twoStep == some m.seq then
      s.modPtp dom (fun x => { x with t1 := some m.stamp, twoStep := none, corr := x.corr + m.corr })
    else s)) s

/-- A stamp as an exchange register shows it: nanoseconds, and seconds mod 4 above. -/
def xchWord (t : FullTime) : Nat := t.ns.toNat + (t.sec.toNat % 4) <<< 30

/-- The exchange record TIME_d_XCH0 to XCH7 (R394). -/
def State.exchange (s : State) (d : Dom) (t1 t2 t3 t4 : FullTime) (corr : Int) (syncSeq reqSeq : Nat) : State :=
  let n := domNo d
  let w := fun (s : State) (F : Fld) (v : Nat) => s.setReg F.addr (BitVec.ofNat 32 v)
  let s := w (w (w (w s (Reg.TIME_d_XCH0_NS n) (xchWord t1)) (Reg.TIME_d_XCH1_NS n) (xchWord t2)) (Reg.TIME_d_XCH2_NS n) (xchWord t3)) (Reg.TIME_d_XCH3_NS n) (xchWord t4)
  let s := w (w s (Reg.TIME_d_XCH4 n) (t1.frac.toNat + t2.frac.toNat <<< 16)) (Reg.TIME_d_XCH5 n) (t3.frac.toNat + t4.frac.toNat <<< 16)
  let s := w (w s (Reg.TIME_d_XCH6 n) (toBits 32 (rneDivI corr 1024))) (Reg.TIME_d_XCH7 n) (syncSeq + reqSeq <<< 16)
  s.inc (Reg.TIME_d_SYNC_CNT n)

/-- The offset from the master in ns by IEEE 1588: half of (t2 − t1 − corrections) − (t4 − t3 − correction). -/
def ptpOffset (t1 t2 t3 t4 : FullTime) (corrDown corrUp : Int) : Int :=
  rneDivI ((fullUnits t2 - fullUnits t1 - corrDown) - (fullUnits t4 - fullUnits t3 - corrUp)) 131072

/-- PTP_DELAY_RESP (R391, R394, R476): it answers the device's Delay_Req; the exchange record is written, and an internal servo goes by it: in HOLDOVER or EXPIRED by R476, else by the writes of its firmware, which are commands of their own (log 30). -/
def execPtpDelayResp (dom : Dom) (m : PtpMsg) (s : State) : Host.Outcome State Fault Refusal :=
  act (fun s => s.ptpTake dom m 0x9 (fun s =>
    let p := s.ptp dom
    match p.t1, p.t2, p.t3 with
    | some t1, some t2, some t3 =>
      if !s.fromMaster dom m || p.reqSeq != m.seq then s
      else
        let s := s.exchange dom t1 t2 t3 m.stamp (p.corr + m.corr) p.syncSeq.toNat m.seq.toNat
        (s.modPtp dom (fun x => { x with t3 := none })).servoRegain dom (ptpOffset t1 t2 t3 m.stamp p.corr m.corr)
    | _, _, _ => s)) s

/-- A Delay_Req message as IEEE 1588 lays it out; the port identity is made of the unit's identity (PRESUMED, log 30). -/
def delayReq (uid : List Byte) (ptpdom seq : Nat) : List Byte :=
  [0x01, 0x12, 0, 44, BitVec.ofNat 8 ptpdom, 0, 0, 0] ++ zeros 12 ++ uid ++ toBE 2 1 ++ toBE 2 seq ++ [1, 0x7F] ++ zeros 10

/-- PTP_DELAY_REQ_TIMER (R391, R393): with a master selected, a Delay_Req leaves on the domain's link ahead of everything else (R352); its t3 is taken as it leaves. -/
def execPtpDelayReqTimer (dom : Dom) (s : State) : Host.Outcome State Fault Refusal :=
  act (fun s =>
    let n := domNo dom
    let link := s.g (Reg.TIME_d_CFG_PORT n)
    if !s.ptpOn dom link || (s.ptp dom).master.isNone then s
    else
      let seq := (s.ptp dom).reqSeq + 1
      let uid := toBE 4 (s.reg Reg.SYS_ID_UID_HI.addr).toNat ++ toBE 4 (s.reg Reg.SYS_ID_UID_LO.addr).toNat
      let body := delayReq uid (s.g (Reg.TIME_d_CFG_PTPDOM n)) seq.toNat
      let s := s.modPtp dom (fun x => { x with reqSeq := seq, t3 := none })
      if link < 16 then (s.modFhp (linkPort link) (fun x => { x with ptp := x.ptp ++ [(link, body)] })).fhServe (linkPort link)
      else s.ptpEmit link body) s

/-- A domain on its internal servo enters HOLDOVER from LOCKED when PTP is lost and PPS_IN does not carry it on (R389, R395). -/
def State.sourceLost (s : State) (d : Dom) : State :=
  let n := domNo d
  let pps := s.on (Reg.TIME_d_CFG_PPS_USE n) && s.on Reg.TIME_STS_PPS_OK
  if s.on (Reg.TIME_d_CFG_EN n) && !s.on (Reg.TIME_d_CFG_SERVO n) && !s.follows d && s.g (Reg.TIME_d_STS_STATE n) == 2 &&
      (s.ptp d).master.isNone && !pps then s.timeState d 3
  else s

/-- PTP_ANNOUNCE_TIMEOUT (R391, R395): three intervals without Announce: the source is lost. -/
def execPtpAnnounceTimeout (dom : Dom) (s : State) : Host.Outcome State Fault Refusal :=
  act (fun s =>
    if (s.ptp dom).master.isNone then s
    else
      let s := s.modPtp dom (fun x => { x with master := none, announceRank := 0, twoStep := none, t1 := none, t2 := none, t3 := none })
      (s.p (Reg.TIME_d_STS_SRC_OK (domNo dom)) 0).sourceLost dom) s

/-- PTP_FRAME_DROP (R391): a message of a type the device does not take, or of another domain number, is dropped and counted. -/
def execPtpFrameDrop (dom : Dom) (m : PtpMsg) (s : State) : Host.Outcome State Fault Refusal :=
  act (fun s =>
    let known := [0x0, 0x8, 0x9, 0xB].contains m.typ.toNat
    if s.ptpOn dom m.link.val && (!known || m.ptpdom.toNat != s.g (Reg.TIME_d_CFG_PTPDOM (domNo dom))) then
      s.inc (Reg.TIME_d_PTP_DROP_CNT (domNo dom)) else s) s

/-- Whether a domain is within 2 ns of a second boundary (R396). -/
def Domain.atSecond (d : Domain) : Bool := decide (d.ns.toNat ≤ 2 ∨ 999999998 ≤ d.ns.toNat)

/-- PPS_OUT_PULSE (R396, R464): at a second boundary of its domain PPS_OUT rises for WIDTH ms, while the domain is valid or ALWAYS is 1; it stays low in SAFE. -/
def execPpsOutPulse (s : State) : Host.Outcome State Fault Refusal :=
  act (fun s =>
    if s.boot.phase = .safe ∨ (s.dom (domOf (s.g Reg.TIME_PPS_CFG_DOM))).atSecond = false then s
    else if s.valid (domOf (s.g Reg.TIME_PPS_CFG_DOM)) || s.on Reg.TIME_PPS_CFG_ALWAYS then
      { s with pps := { s.pps with outLevel := true, outUntil := s.ticks + s.g Reg.TIME_PPS_CFG_WIDTH * 1000000 } }
    else s) s

/-! ### PPS_IN (R395, R462) -/

/-- PPS_IN judged bad once more: three bad seconds in a row declare it failed (R395, R462); the cause is 1 after a stuck pulse, 2 otherwise. -/
def State.ppsBad (s : State) (cause : Nat) : State :=
  let n := s.pps.badRun + 1
  let s := { s with pps := { s.pps with badRun := n, goodRun := 0 } }
  if n = 3 then
    let s := (s.p Reg.TIME_STS_PPS_OK 0).inc Reg.TIME_PPS_FAIL_CNT
    ((s.ev 0x0A03 0x04 (cause <<< 1)).sourceLost .a).sourceLost .b
  else s

/-- An accepted PPS_IN edge after `since` nanoseconds of a good or first second: stamped in both domains; three accepted edges in a row 0.9 s to 1.1 s apart make it good again. -/
def State.ppsAccept (s : State) (inRow : Bool) : State :=
  let stamp := fun (t : State) (d : Dom) =>
    (t.p (Reg.TIME_d_PPS_PPS_NS (domNo d)) (t.dom d).ns.toNat).p (Reg.TIME_d_PPS_PPS_SEC (domNo d)) ((t.dom d).sec.toNat % 4)
  let s := stamp (stamp s .a) .b
  let n := if inRow && !s.pps.runtNow then s.pps.goodRun + 1 else 0
  let s := { s with pps := { s.pps with lastEdge := some s.ticks, badNow := false, runtNow := false, badRun := (if inRow then 0 else s.pps.badRun), goodRun := n } }
  if n = 3 && !s.on Reg.TIME_STS_PPS_OK then (s.p Reg.TIME_STS_PPS_OK 1).ev 0x0A03 0x04 1 else s

/-- PPS_IN_EDGE (R462): a pulse, at its rising edge, with its width: runt, stuck, early or accepted. -/
def execPpsInEdge (widthNs : Nat) (s : State) : Host.Outcome State Fault Refusal :=
  act (fun s =>
    if widthNs < 20 then ({ s with pps := { s.pps with runtNow := true } }).inc Reg.SYS_PPS_RUNT_CNT
    else if widthNs > 100000000 then { s with pps := { s.pps with badNow := true, stuckNow := true } }
    else match s.pps.lastEdge with
      | none => s.ppsAccept false
      | some t =>
        if s.ticks - t < 900000000 then
          ({ s with pps := { s.pps with badNow := true } }).inc Reg.SYS_PPS_EARLY_CNT
        else
          let wasBad := s.pps.badNow
          let s := if wasBad then s.ppsBad (if s.pps.stuckNow then 1 else 2) else s
          let s := { s with pps := { s.pps with stuckNow := false } }
          s.ppsAccept (!wasBad && decide (s.ticks - t ≤ 1100000000))) s

/-- PPS_SECOND_END (R462): 1.1 s after the last accepted edge with no new one, a second ends bad. -/
def execPpsSecondEnd (s : State) : Host.Outcome State Fault Refusal :=
  act (fun s =>
    if s.ticks < s.pps.lastEdge.getD 0 + 1100000000 then s
    else
    let s := s.ppsBad (if s.pps.stuckNow then 1 else 2)
    { s with pps := { s.pps with badNow := true, stuckNow := false } }) s

end Sys2Proof.Machine
end

