-- ==== Sys2Proof/Machine/Vector.lean ====
section
/-!
DEFINITION. The vector engine (06, R166 to R184): queueing and starting commands, removing summaries, and one meaning per vector instruction.
-/
namespace Sys2Proof.Machine

open Sys2Proof (Byte Word VType VecOp)

/-- VEC_CMD_PUSH (R171): VEC_CMD_W0 to W15 enter the queue; with no free entry the write is ignored and counted. -/
def execVecCmdPush (agent : Byte) (f : Fin 6) (val : Word) (s : State) : Host.Outcome State Fault Refusal :=
  act (fun s => s.push agent.toNat .fw val.toNat (Reg.VEC_CMD_PUSH f) (fun s =>
    if (s.fr f).vec.queue.length ≥ 16 then s.ignore
    else s.modVec f (fun v => { v with queue := v.queue ++ [(List.range 16).map (fun i => s.reg (Reg.VEC_CMD_Ww f i).addr)] }))) s

/-- VEC_COMMAND_START (R168, R172): the head command is checked and runs with fresh temporaries, masks M1 to M3 equal to M0 and its constants, or is rejected. -/
def execVecCommandStart (f : Fin 6) (s : State) : Host.Outcome State Fault Refusal :=
  act (fun s =>
    let v := (s.fr f).vec
    match v.queue, v.run, s.jobOf f with
    | c :: q, none, some j =>
      if v.halted || !s.frondRuns f then s
      else
        let code := s.vecCheck f j c
        let s := s.modVec f (fun v => { v with queue := q })
        if code ≠ 0 then s.vecReject f c code
        else
          let m0 : BitVec 512 := BitVec.ofNat 512 (2 ^ cfield c 0 9 10 - 1)
          let k := winAddr f (32 * cfield c 2 16 15)
          if s.poisoned k 32 then s.consumePoison f 1
          else
            let r : VecRun := ⟨c, 0, 0, Vector.replicate 8 0, Vector.replicate 4 m0,
              Vector.ofFn (fun (i : Fin 8) => BitVec.ofNat 32 (s.ldN (k + 4 * i.val) 4)), Vector.replicate 16 0⟩
            s.modVec f (fun v => { v with run := some r })
    | _, _, _ => s) s

/-- VEC_SUM_POP (R183): the head summary record is removed; on an empty queue the write counts as ignored. -/
def execVecSumPop (agent : Byte) (f : Fin 6) (val : Word) (s : State) : Host.Outcome State Fault Refusal :=
  act (fun s => s.push agent.toNat .fw val.toNat (Reg.VEC_SUM_POP f) (fun s =>
    match (s.fr f).vec.sums with
    | [] => s.ignore
    | _ :: l => s.modVec f (fun v => { v with sums := l }))) s

/-- VEC_NOP (R176): nothing. -/
def execVecNop (f : Fin 6) (s : State) : Host.Outcome State Fault Refusal :=
  act (vecIns 0x00 f (fun _ r s => some (r, s))) s

/-- VEC_LD (R170, R176): T(D) takes the port's vector, converted; a poisoned word faults the job (R303). `busy` retries at the window count (R311). -/
def execVecLd (f : Fin 6) (busy : Nat) (s : State) : Host.Outcome State Fault Refusal :=
  act (vecIns 0x01 f (fun o r s =>
    let p := vport r.cmd (o.imm.toNat % 4)
    let w := p.at r.iter
    if (r.lanes o).any (fun k => s.lanePoison f p.fmt w k) then none
    else some (laneWise o r (s.addc (Reg.LEAF_WIN_BUSY_CNT f) busy) (fun k => some (s.loadLane f o.ty p.fmt w k))))) s

/-- VEC_ST (R170, R184): the port takes T(A), converted; with IMM[7] only in the last iteration. `busy` retries at the window count (R311). -/
def execVecSt (f : Fin 6) (busy : Nat) (s : State) : Host.Outcome State Fault Refusal :=
  act (vecIns 0x02 f (fun o r s =>
    if o.imm.getLsbD 7 && r.iter + 1 != r.nv then some (r, s) else some (vecStore f o r (s.addc (Reg.LEAF_WIN_BUSY_CNT f) busy)))) s

/-- VEC_MOV (R176). -/
def execVecMov (f : Fin 6) (s : State) : Host.Outcome State Fault Refusal :=
  act (vecIns 0x03 f (fun o r s => some (laneWise o r s (fun k => some (r.src o o.a k))))) s

/-- VEC_SPL (R176): every lane takes S(A), read as INT32 or FP32 and converted. -/
def execVecSpl (f : Fin 6) (s : State) : Host.Outcome State Fault Refusal :=
  act (vecIns 0x04 f (fun o r s =>
    let x := scalarNum (vtFp o.ty).isSome (r.s.get o.a)
    some (laneWise o r s (fun _ => some (vtOf o.ty x).1)))) s

/-- VEC_ADD (R176). -/
def execVecAdd (f : Fin 6) (s : State) : Host.Outcome State Fault Refusal :=
  act (vecIns 0x05 f (fun o r s => some (laneWise o r s (fun k =>
    vecArith o [r.num o o.a k, r.num o o.b k] ((r.num o o.a k).add (r.num o o.b k)))))) s

/-- VEC_SUB (R176). -/
def execVecSub (f : Fin 6) (s : State) : Host.Outcome State Fault Refusal :=
  act (vecIns 0x06 f (fun o r s => some (laneWise o r s (fun k =>
    vecArith o [r.num o o.a k, r.num o o.b k] ((r.num o o.a k).add (r.num o o.b k).neg))))) s

/-- VEC_MUL (R176). -/
def execVecMul (f : Fin 6) (s : State) : Host.Outcome State Fault Refusal :=
  act (vecIns 0x07 f (fun o r s => some (laneWise o r s (fun k =>
    vecArith o [r.num o o.a k, r.num o o.b k] ((r.num o o.a k).mul (r.num o o.b k)))))) s

/-- VEC_FMA (R176): one rounding of the exact T(A) x T(B) + T(C). -/
def execVecFma (f : Fin 6) (s : State) : Host.Outcome State Fault Refusal :=
  act (vecIns 0x08 f (fun o r s => some (laneWise o r s (fun k =>
    vecArith o [r.num o o.a k, r.num o o.b k, r.num o o.c k] (((r.num o o.a k).mul (r.num o o.b k)).add (r.num o o.c k)))))) s

/-- VEC_MIN (R176). -/
def execVecMin (f : Fin 6) (s : State) : Host.Outcome State Fault Refusal :=
  act (vecIns 0x09 f (fun o r s => some (laneWise o r s (fun k =>
    vecPicked o (numPick false (r.num o o.a k) (r.num o o.b k)))))) s

/-- VEC_MAX (R176). -/
def execVecMax (f : Fin 6) (s : State) : Host.Outcome State Fault Refusal :=
  act (vecIns 0x0A f (fun o r s => some (laneWise o r s (fun k =>
    vecPicked o (numPick true (r.num o o.a k) (r.num o o.b k)))))) s

/-- VEC_ABS (R176): the most negative integer gives the most positive. -/
def execVecAbs (f : Fin 6) (s : State) : Host.Outcome State Fault Refusal :=
  act (vecIns 0x0B f (fun o r s => some (laneWise o r s (fun k => vecPicked o (r.num o o.a k).abs)))) s

/-- VEC_NEG (R176). -/
def execVecNeg (f : Fin 6) (s : State) : Host.Outcome State Fault Refusal :=
  act (vecIns 0x0C f (fun o r s => some (laneWise o r s (fun k => vecPicked o (r.num o o.a k).neg)))) s

/-- VEC_CLAMP (R176): min(max(T(A), T(B)), T(C)). -/
def execVecClamp (f : Fin 6) (s : State) : Host.Outcome State Fault Refusal :=
  act (vecIns 0x0D f (fun o r s => some (laneWise o r s (fun k =>
    vecPicked o
      (numPick false (numPick true (r.num o o.a k) (r.num o o.b k)) (r.num o o.c k)))))) s

/-- VEC_SHL (R176): T(A) x 2^IMM, saturated. -/
def execVecShl (f : Fin 6) (s : State) : Host.Outcome State Fault Refusal :=
  act (vecIns 0x0E f (fun o r s => some (laneWise o r s (fun k =>
    vecArith o [] ((r.num o o.a k).scale (o.imm.toNat % 32 : Nat)))))) s

/-- VEC_SHR (R176): T(A) / 2^IMM, rounded to nearest even. -/
def execVecShr (f : Fin 6) (s : State) : Host.Outcome State Fault Refusal :=
  act (vecIns 0x0F f (fun o r s => some (laneWise o r s (fun k =>
    vecArith o [] ((r.num o o.a k).scale (-(o.imm.toNat % 32 : Nat))))))) s

/-- VEC_SCL (R176): T(A) x 2^IMM, IMM signed. -/
def execVecScl (f : Fin 6) (s : State) : Host.Outcome State Fault Refusal :=
  act (vecIns 0x10 f (fun o r s => some (laneWise o r s (fun k =>
    vecArith o [r.num o o.a k] ((r.num o o.a k).scale o.imm.toInt))))) s

/-- VEC_CVT (R176): T(A) read as type IMM[2:0], converted to TYPE. -/
def execVecCvt (f : Fin 6) (s : State) : Host.Outcome State Fault Refusal :=
  act (vecIns 0x11 f (fun o r s =>
    let ty := (vtype (o.imm.toNat % 8)).getD .int8
    some (laneWise o r s (fun k =>
      let x := vtNum ty (laneOf (r.t.get o.a) (vtBytes ty) k)
      some (vtOf o.ty x).1)))) s

/-- VEC_AND (R176). -/
def execVecAnd (f : Fin 6) (s : State) : Host.Outcome State Fault Refusal :=
  act (vecIns 0x12 f (fun o r s => some (laneWise o r s (fun k => some (r.src o o.a k &&& r.src o o.b k))))) s

/-- VEC_OR (R176). -/
def execVecOr (f : Fin 6) (s : State) : Host.Outcome State Fault Refusal :=
  act (vecIns 0x13 f (fun o r s => some (laneWise o r s (fun k => some (r.src o o.a k ||| r.src o o.b k))))) s

/-- VEC_XOR (R176). -/
def execVecXor (f : Fin 6) (s : State) : Host.Outcome State Fault Refusal :=
  act (vecIns 0x14 f (fun o r s => some (laneWise o r s (fun k => some (r.src o o.a k ^^^ r.src o o.b k))))) s

/-- VEC_CLT (R175, R176). -/
def execVecClt (f : Fin 6) (s : State) : Host.Outcome State Fault Refusal :=
  act (vecIns 0x15 f (fun o r s => some (vecCompare o r s Num.lt))) s

/-- VEC_CLE (R175, R176). -/
def execVecCle (f : Fin 6) (s : State) : Host.Outcome State Fault Refusal :=
  act (vecIns 0x16 f (fun o r s => some (vecCompare o r s (fun a b => a.lt b || a.eq b)))) s

/-- VEC_CEQ (R175, R176). -/
def execVecCeq (f : Fin 6) (s : State) : Host.Outcome State Fault Refusal :=
  act (vecIns 0x17 f (fun o r s => some (vecCompare o r s Num.eq))) s

/-- VEC_SEL (R175, R176): each lane below VLEN takes T(A) where the mask has its bit, else T(B). -/
def execVecSel (f : Fin 6) (s : State) : Host.Outcome State Fault Refusal :=
  act (vecIns 0x18 f (fun o r s =>
    let w := vtBytes o.ty
    let l := (List.range r.vlen).map (fun k => (k, if r.masked o k then r.src o o.a k else r.src o o.b k))
    some ({ r with t := r.t.set o.d.val (setLanes (r.t.get o.d) w l) }, s))) s

/-- A special function lane by lane (R180). -/
def vecSpecial (op : Nat) (f : Fin 6) (s : State) : State :=
  vecIns op f (fun o r s => some (laneWise o r s (fun k =>
    some (match vtFp o.ty with | some fmt => specialFn fmt op (vtCode o.ty) (r.src o o.a k) | none => r.src o o.a k)))) s

/-- VEC_RCP (R180). -/
def execVecRcp (f : Fin 6) (s : State) : Host.Outcome State Fault Refusal := act (vecSpecial 0x19 f) s

/-- VEC_RSQ (R180). -/
def execVecRsq (f : Fin 6) (s : State) : Host.Outcome State Fault Refusal := act (vecSpecial 0x1A f) s

/-- VEC_EXP2 (R180). -/
def execVecExp2 (f : Fin 6) (s : State) : Host.Outcome State Fault Refusal := act (vecSpecial 0x1B f) s

/-- VEC_LOG2 (R180). -/
def execVecLog2 (f : Fin 6) (s : State) : Host.Outcome State Fault Refusal := act (vecSpecial 0x1C f) s

/-- VEC_PERM (R179): lane k takes lane j of T(A), 0 when j is at or beyond VLEN, which is marked and counted. For 8-bit types an odd B leaves the result open (log 5). -/
def execVecPerm (f : Fin 6) (s : State) : Host.Outcome State Fault Refusal :=
  act (vecIns 0x1D f (fun o r s =>
    let idx := fun (k : Nat) =>
      if vtBytes o.ty = 1 then
        (if k < 256 then laneOf (r.t.get o.b) 2 k else laneOf (r.t.get (Fin.ofNat 8 (o.b.val + 1))) 2 (k - 256))
      else laneOf (r.t.get o.b) 2 k
    if vtBytes o.ty = 1 ∧ o.b.val % 2 = 1 then some (laneWise o r s (fun _ => none))
    else
      let n := (r.lanes o).countP (fun k => decide (idx k ≥ r.vlen))
      let (r', s) := laneWise o r s (fun k => some (if idx k < r.vlen then r.src o o.a (idx k) else 0))
      if n = 0 then some (r', s)
      else some (r'.addSlot 15 n, (s.addc (Reg.VEC_OOR_CNT f) n).p (Reg.VEC_STS_VPERM_OOR_STK f) 1))) s

/-- VEC_CMUL (R176): lanes (2k, 2k + 1) as complex numbers, each component rounded once; IMM[0] conjugates T(B). -/
def execVecCmul (f : Fin 6) (s : State) : Host.Outcome State Fault Refusal :=
  act (vecIns 0x1E f (fun o r s => some (laneWise o r s (fun k =>
    let e := k / 2 * 2
    let ar := r.num o o.a e
    let ai := r.num o o.a (e + 1)
    let br := r.num o o.b e
    let bi := if o.imm.getLsbD 0 then (r.num o o.b (e + 1)).neg else r.num o o.b (e + 1)
    vecArith o [ar, ai, br, bi] (if k % 2 = 0 then (ar.mul br).add (ai.mul bi).neg else (ar.mul bi).add (ai.mul br)))))) s

/-- VEC_LUT (R176): lane k takes the entry numbered by the low 8 bits of T(A) lane k; a poisoned entry faults the job (R303). -/
def execVecLut (f : Fin 6) (s : State) : Host.Outcome State Fault Refusal :=
  act (vecIns 0x1F f (fun o r s =>
    let w := vtBytes o.ty
    let base := 32 * cfield r.cmd 2 16 15 + 32 + 1024 * (o.imm.toNat % 4)
    let at_ := fun (k : Nat) => winAddr f (base + w * (r.src o o.a k % 256))
    if (r.lanes o).any (fun k => s.poisoned (at_ k) w) then none
    else some (laneWise o r s (fun k => some (s.ldN (at_ k) w))))) s

/-- VEC_RSUM (R181, R182). -/
def execVecRsum (f : Fin 6) (s : State) : Host.Outcome State Fault Refusal :=
  act (vecIns 0x20 f (fun o r s => some (vecSum f o r s))) s

/-- VEC_RMAX (R181). -/
def execVecRmax (f : Fin 6) (s : State) : Host.Outcome State Fault Refusal :=
  act (vecIns 0x21 f (fun o r s => some (vecExtreme true false o r s))) s

/-- VEC_RMIN (R181). -/
def execVecRmin (f : Fin 6) (s : State) : Host.Outcome State Fault Refusal :=
  act (vecIns 0x22 f (fun o r s => some (vecExtreme false false o r s))) s

/-- VEC_RMAXI (R181). -/
def execVecRmaxi (f : Fin 6) (s : State) : Host.Outcome State Fault Refusal :=
  act (vecIns 0x23 f (fun o r s => some (vecExtreme true true o r s))) s

/-- VEC_RMINI (R181). -/
def execVecRmini (f : Fin 6) (s : State) : Host.Outcome State Fault Refusal :=
  act (vecIns 0x24 f (fun o r s => some (vecExtreme false true o r s))) s

/-- VEC_SUMOUT (R183): a summary slot takes S(A). -/
def execVecSumout (f : Fin 6) (s : State) : Host.Outcome State Fault Refusal :=
  act (vecIns 0x25 f (fun o r s =>
    some ({ r with slots := r.slots.set (o.imm.toNat % 16) (r.s.get o.a) (Nat.mod_lt _ (by decide)) }, s))) s

end Sys2Proof.Machine
end

