-- ==== Sys2Proof/Machine/RegWrite.lean ====
section
/-!
DEFINITION. Register writes by any agent (01 R8, R29, R30), which reach the same effects as the commands of the registers that have one; REG_READ and REG_WRITE (02 R63); debug accesses (17 R448, R451).
-/
namespace Sys2Proof.Machine

open Sys2Proof (Byte Word Dom MgReq RegAcc DbgAcc CoreRef)

/-! ### Registers whose write acts -/

/-- The state that a command's outcome holds. -/
def State.after (f : State → Host.Outcome State Fault Refusal) (s : State) : State :=
  match f s with
  | .next t => t
  | _ => s

/-- The owner of a granary channel as firmware writes it (R297): the channel leaves its job and goes to the one named; banks that enter or leave use are zero-filled, and ON or OFF (R305). -/
def State.ownerWrite (s : State) (agent c v : Nat) : State :=
  let F := Reg.GRN_CHn_BIND_OWNER c
  let old := s.g F
  let s := s.writeFields agent F.addr v
  let o := s.g F
  if o = old then s
  else
    let bit := BitVec.ofNat 24 (1 <<< c)
    let before := s.boundChannels
    let s := match s.channelJob c with | some j => s.setBind j { (s.job j).bind with channels := (s.job j).bind.channels &&& ~~~bit } | none => s
    let s := if (s.job o).bind.valid then s.setBind o { (s.job o).bind with channels := (s.job o).bind.channels ||| bit } else s
    (s.p F o).passBanks before (s.p F o).boundChannels

/-- The granary-atomic register set of a controller (R300): the address words are its own controller's to write, and VAL makes the add. -/
def State.faddWrite (s : State) (agent : Byte) (c : Fin 7) (o : Nat) (val : Word) : State :=
  if o = 8 then s.after (execGrnFadd agent c val .clean)
  else if agent.toNat ≠ ctlSrc c then s.ignore
  else s.writeFields agent.toNat (0x90300 + 0x10 * c.val + o) val.toNat

/-- A write to a time register of a domain at an offset of its block, none where the write is an ordinary one. -/
def State.timeWrite (s : State) (agent : Nat) (d : Dom) (o v : Nat) : Option State :=
  match o with
  | 0x08 => some (s.incrLoWrite agent d v)
  | 0x0C => some (s.incrWrite agent d v)
  | 0x14 => some (s.stepWrite agent d v)
  | 0x20 => some (s.setWrite agent d v)
  | 0x24 => some (s.ctlWrite agent d v)
  | _ => none

/-- A write to a device-block register with an effect of its own. -/
def State.deviceWrite (s : State) (agent : Byte) (a : Nat) (val : Word) : Option State :=
  let n := agent.toNat
  let v := val.toNat
  if a = Reg.PWR_CAP.addr then some (s.pwrCapWrite n v)
  else if a = Reg.JOB_RESTART_GO.addr then some (s.jobRestartWrite n v)
  else if a = Reg.JOB_TRN_CTL_ROLLBACK.addr then some (s.after (execRollbackRequest agent val))
  else if a = Reg.BRN_WAY_MASK.addr then some (s.after (execBrnWayMaskWrite agent val))
  else if a = Reg.FLT_LANE_RET.addr then some (s.laneReturn n v)
  else if a = Reg.TIME_HO_CTL.addr then some (s.followWrite n v)
  else if 0x40100 ≤ a ∧ a < 0x40200 then s.timeWrite n .a (a - 0x40100) v
  else if 0x40200 ≤ a ∧ a < 0x40300 then s.timeWrite n .b (a - 0x40200) v
  else if 0x80100 ≤ a ∧ a < 0x80280 ∧ (a - 0x80100) % 0x40 = 0x20 then
    some (s.after (execRzCmdPush agent (Fin.ofNat 6 ((a - 0x80100) / 0x40)) val))
  else if 0x90100 ≤ a ∧ a < 0x90160 then some (s.ownerWrite n ((a - 0x90100) / 4) v)
  else if 0x90300 ≤ a ∧ a < 0x90370 then some (s.faddWrite agent (Fin.ofNat 7 ((a - 0x90300) / 16)) ((a - 0x90300) % 16) val)
  else none

/-- A write to a frond register with an effect of its own. -/
def State.frondWrite (s : State) (agent : Byte) (f : Fin 6) (o : Nat) (val : Word) : Option State :=
  let n := agent.toNat
  let v := val.toNat
  if o = 0x0004 then some (s.after (execPanePlanApply agent f val))
  else if o = 0x2004 then some (s.after (execVecCmdPush agent f val))
  else if o = 0x2144 then some (s.after (execVecSumPop agent f val))
  else if 0x4100 ≤ o ∧ o < 0x4300 ∧ (o - 0x4100) % 0x40 = 0 then some (s.sigCtl n ⟨f, Fin.ofNat 8 ((o - 0x4100) / 0x40)⟩ v)
  else if 0x4100 ≤ o ∧ o < 0x4300 ∧ (o - 0x4100) % 0x40 = 8 then some (s.after (execSigMbiWrite agent ⟨f, Fin.ofNat 8 ((o - 0x4100) / 0x40)⟩ val))
  else if o = 0x6004 then some (s.after (execThrCmdPush agent f val))
  else if o = 0x600C then some (s.after (execThrCancel agent f val))
  else if 0x6200 ≤ o ∧ o < 0x6300 then some (s.etblWrite n f 0 ((o - 0x6200) / 4) v)
  else if 0x6300 ≤ o ∧ o < 0x6400 then some (s.etblWrite n f 1 ((o - 0x6300) / 4) v)
  else if o = 0x8000 then some (s.after (execAccLimitWrite agent f val))
  else if o = 0x8004 then some (s.after (execStrSemPost agent f val))
  else if 0x8100 ≤ o ∧ o < 0x8300 ∧ (o - 0x8100) % 16 = 0 then some (s.strCtl n f (Fin.ofNat 32 ((o - 0x8100) / 16)) v)
  else if o = 0xA804 then some (s.after (execLeafSclStep agent f val))
  else none

/-- A register write by an agent (R8, R29, R30, R323): unmapped unless it is an aligned word of a register; else the effect of the register's own command, or the fields the agent may write take the value. -/
def State.busWrite (s : State) (agent : Byte) (a width : Nat) (val : Word) : State :=
  if width ≠ 4 ∨ !isReg a then s.unmapped agent.toNat a true
  else
    let own := match frondOfReg a with
      | some f => s.frondWrite agent (Fin.ofNat 6 f) ((a - 0x100000) % 0x10000) val
      | none => s.deviceWrite agent a val
    match own with
    | some t => t
    | none => s.guard agent.toNat a true (fun s => s.writeSeen (s.peek a).toNat agent.toNat a val.toNat)

/-- REGISTER_WRITE (R8, R13, R20, R30, R36, R37). -/
def execRegisterWrite (a : RegAcc) (val : Word) (s : State) : Host.Outcome State Fault Refusal :=
  act (fun s => s.busWrite a.agent a.addr.toNat a.width val) s

/-! ### REG_READ and REG_WRITE (R61, R63) -/

/-- Whether the first 8 bytes of a REG_READ or REG_WRITE payload are in order: COUNT 1 to 64, bytes 1 to 3 zero, OFFSET a word address within the registers. -/
def regSpan (p : List Byte) : Bool :=
  let n := byteAt p 0
  let o := le p 4 4
  decide (8 ≤ p.length ∧ 1 ≤ n ∧ n ≤ 64 ∧ o % 4 = 0 ∧ o + 4 * n ≤ 0x160000) && zeroRange p 1 3

/-- `n` registers read in order from an address by the management agent, and the state after their side effects. -/
def State.readRun (s : State) (a : Nat) : Nat → List Byte × State
  | 0 => ([], s)
  | n + 1 =>
    let (v, s) := s.regRead 0x70 a 4
    let (l, s) := s.readRun (a + 4) n
    (toLE 4 v.toNat ++ l, s)

/-- REG_READ (R63). -/
def execRegRead (r : MgReq) (s : State) : Host.Outcome State Fault Refusal :=
  act (fun s => s.mgServe 0x0012 true r (fun s =>
    if r.payload.length ≠ 8 ∨ regSpan r.payload = false then s.mgAnswer 0x0012 r.seq 4 []
    else
      let (l, s) := s.readRun (le r.payload 4 4) (byteAt r.payload 0)
      s.mgAnswer 0x0012 r.seq 0 (r.payload ++ l))) s

/-- The values of a REG_WRITE written in order from an address by the management agent. -/
def State.writeRun (s : State) (a : Nat) (p : List Byte) : Nat → State
  | 0 => s
  | n + 1 => (s.busWrite 0x70 a 4 (BitVec.ofNat 32 (le p 0 4))).writeRun (a + 4) (p.drop 4) n

/-- REG_WRITE (R61, R63): not served in SAFE; each value is written field by field (R8), and a word that changes no field still answers OK. -/
def execRegWrite (r : MgReq) (s : State) : Host.Outcome State Fault Refusal :=
  act (fun s => s.mgServe 0x0013 false r (fun s =>
    let n := byteAt r.payload 0
    if r.payload.length ≠ 8 + 4 * n ∨ regSpan r.payload = false then s.mgAnswer 0x0013 r.seq 4 []
    else (s.writeRun (le r.payload 4 4) (r.payload.drop 8) n).mgAnswer 0x0013 r.seq 0 (r.payload.take 8))) s

/-! ### Debug accesses (R448, R451) -/

/-- Whether a debug access reaches every byte of a range (R29, R297, R304, R451): system agents are not checked, but what is off or masked is unmapped; in SAFE only the SYS block and the bank that holds the event ring are there. -/
def State.dbgReach (s : State) (a n : Nat) : Bool :=
  let safe := decide (s.boot.phase = .safe)
  match s.region a with
  | .granary o =>
    decide (o + n ≤ 0x10000000) && (List.range ((o % 0x40000 + n + 0x3FFFF) / 0x40000)).all (fun i =>
      let b := o / 0x40000 + i
      (s.bank b == 1 || s.bank b == 2) && (!safe || b == (s.ringBase - grnBase) / 0x40000))
  | .leaf f o => decide (o + n ≤ 0x800000) && (s.jobOf f).isSome && !safe
  | .sig f _ o => decide (o + n ≤ 0x40000) && (s.jobOf f).isSome && !safe
  | .barn o => decide (o + n ≤ s.barnBytes) && !safe
  | .reg => !safe || decide (a < 0x10000)
  | .none => false

/-- Bytes as words for the log of values read. -/
def readWords (bs : List Byte) : Nat → List Word
  | 0 => []
  | n + 1 => BitVec.ofNat 32 (le bs 0 4) :: readWords (bs.drop 4) n

/-- A debug read (R448): registers read like any agent's; memory as it stands. -/
def State.dbgRead (s : State) (a n : Nat) : State :=
  if !s.dbgReach a n then
    let t := s.unmapped 0x71 a false
    { t with readOut := t.readOut ++ List.replicate (ceilDiv n 4) 0 }
  else if s.region a = .reg then s.readLog 0x71 a n
  else
    let t := (s.wakeRange a n).loftRange none a n
    { t with readOut := t.readOut ++ readWords (t.ld a n) (ceilDiv n 4) }

/-- A debug write (R448). -/
def State.dbgWrite (s : State) (a : Nat) (bs : List Byte) : State :=
  if !s.dbgReach a bs.length then s.unmapped 0x71 a true
  else if s.region a = .reg then s.busWrite 0x71 a bs.length (BitVec.ofNat 32 (leOf bs))
  else s.loftStore none a bs

/-- Whether debug reaches a controller: in SAFE only the system controller (R451). -/
def State.dbgCtl (s : State) (c : Fin 7) : Bool := s.boot.phase != .safe || c.val == 6

/-- DEBUG_ACCESS (R448, R451): an access within the open scopes; outside them, and in KEEP, nothing happens. Key RAM reads as free words, its contents being nowhere given (log 5); fuse test modes have no effect that the spec gives (log 32). -/
def execDebugAccess (a : DbgAcc) (s : State) : Host.Outcome State Fault Refusal :=
  act (fun s =>
    let has := fun (i : Nat) => s.scopes.getLsbD i
    if s.g Reg.PWR_STS_STATE = 2 then s
    else match a with
      | .read addr n => if has 1 then s.dbgRead addr.toNat n else s
      | .write addr bs => if has 2 then s.dbgWrite addr.toNat bs else s
      | .regWrite addr val => if has 2 then s.dbgWrite addr.toNat (toLE 4 val.toNat) else s
      | .halt c => if has 0 && s.dbgCtl c && !s.sec.halted.contains c.val then { s with sec := { s.sec with halted := s.sec.halted ++ [c.val] } } else s
      | .resume c => if has 0 then { s with sec := { s.sec with halted := s.sec.halted.filter (fun x => x != c.val) } } else s
      | .secKeyRam => if has 4 then (let (w, s) := s.free; { s with readOut := s.readOut ++ [w] }) else s
      | .fuseTest => s) s

end Sys2Proof.Machine
end

