-- ==== Sys2Proof/Machine/Security.lean ====
section
/-!
DEFINITION. DEBUG_UNLOCK, sessions, zeroisation, life-cycle transitions and fused keys (17, R438 to R453).
-/
namespace Sys2Proof.Machine

open Sys2Proof (Byte Word DbgVia)

/-! ### The two ways in (R445, R451) -/

/-- Words of a byte string, the last one padded with zeros. -/
def bytesToWords (bs : List Byte) : List Word := (List.range (ceilDiv bs.length 4)).map (fun i => BitVec.ofNat 32 (le bs (4 * i) 4))

/-- The answer to a DEBUG_UNLOCK request: over MG, or into the mailbox as a status word and the payload (DESIGN CHOICE, log 20). -/
def State.dbgAnswer (s : State) (via : DbgVia) (seq : Word) (status : Nat) (payload : List Byte) : State :=
  match via with
  | .mg => s.mgAnswer 0x0060 seq status payload
  | .jtag => { s with sec := { s.sec with mboxIn := [], mboxOut := BitVec.ofNat 32 status :: bytesToWords payload } }

/-- A DEBUG_UNLOCK request as it is served (R61, R445): LEN and bytes 0 to 3 in order, else RANGE. -/
def State.dbgServe (s : State) (via : DbgVia) (r : MgReq) (sub len : Nat) (f : State → State) : State :=
  let g := fun (s : State) =>
    if r.payload.length ≠ 4 + len ∨ byteAt r.payload 0 ≠ sub ∨ zeroRange r.payload 1 3 = false then s.dbgAnswer via r.seq 4 [] else f s
  match via with
  | .mg => s.mgServe 0x0060 true r g
  | .jtag => g s

/-- Whether the power and start state serves debug requests (R451): started in RUN or HOLD, or SAFE. -/
def State.dbgState (s : State) : Bool :=
  s.boot.phase == .safe || (s.boot.phase == .started && s.g Reg.PWR_STS_STATE != 2)

/-- CHALLENGE_GET (R445): a new 32-byte challenge replaces the old one; it is answered with UID, SEC_LC and a signature of the 41 bytes. -/
def execChallengeGet (via : DbgVia) (r : MgReq) (s : State) : Host.Outcome State Fault Refusal :=
  act (fun s => s.dbgServe via r 1 0 (fun s =>
    if !s.dbgState then s.dbgAnswer via r.seq 3 []
    else
      let (c, s) := s.freeBytes 32
      let m := c ++ toLE 8 s.fuses.uid.toNat ++ toLE 1 s.fuses.life
      ({ s with sec := { s.sec with chal := some (c, s.ticks) } }).dbgAnswer via r.seq 0 (m ++ Config.ecdsaSign m))) s

/-! ### Certificates (R443, R446) -/

/-- KIND, AUTH, SCOPE, TARGET, DURATION of a certificate. -/
def certKind (c : List Byte) : Nat := byteAt c 5
/-- See `certKind`. -/
def certAuth (c : List Byte) : Nat := byteAt c 6
/-- See `certKind`. -/
def certScope (c : List Byte) : Nat := byteAt c 7
/-- See `certKind`. -/
def certTarget (c : List Byte) : Nat := byteAt c 8
/-- See `certKind`. -/
def certDur (c : List Byte) : Nat := le c 12 4

/-- Check 3: MAGIC, VER, codes and reserved fields (R443). -/
def certShape (c : List Byte) : Bool :=
  let k := certKind c
  le c 0 4 == 0x43444246 && byteAt c 4 == 1 && decide (k ≤ 2 ∧ certAuth c ≤ 11) && zeroRange c 9 3 && zeroRange c 56 40 &&
    (if k = 0 then certTarget c == 0 && decide (1 ≤ certDur c ∧ certDur c ≤ 86400) else certScope c == 0 && certDur c == 0) &&
    (k != 1 || decide (certTarget c ≤ 4)) && (k != 2 || decide (1 ≤ certTarget c ∧ certTarget c ≤ 3))

/-- The keys section of the started image (R444). -/
def State.keysSect (s : State) : List Byte :=
  if s.boot.phase = .started then (match s.sects 9 with | x :: _ => x.bytes | [] => []) else []

/-- Whether a fused slot may still sign. -/
def State.slotUsable (s : State) (k : Nat) : Bool := (s.fuses.slots.toList.getD k none).isSome && !s.fuses.revoked.getLsbD k

/-- Check 6: the public key and scope mask of an authority allowed in the present state for a kind and target (R436, R442, R452; log 19). -/
def State.authKey (s : State) (c : List Byte) : Option (List Byte × Nat) :=
  let a := certAuth c
  let k := certKind c
  let ks := s.keysSect
  let owner := decide (1 ≤ a ∧ a ≤ 3)
  let allowed := match s.fuses.life with
    | 0 => a == 0 && k == 1
    | 1 => if (k == 1 && certTarget c == 2) || k == 2 then owner else a == 0
    | 2 => owner || decide (4 ≤ a)
    | 3 => a == 0
    | _ => false
  if !allowed then none
  else if a ≤ 3 then (if s.slotUsable a then (s.fuses.slots.toList.getD a none).map (fun x => (x, 0xFF)) else none)
  else if a - 4 < byteAt ks 5 then some ((ks.drop (16 + 112 * (a - 4))).take 96, byteAt ks (112 + 112 * (a - 4)))
  else none

/-- Scopes that can open in a life-cycle state (R436). -/
def scopesOf (life : Nat) : Nat :=
  match life with
  | 0 => 0x3F
  | 1 | 2 => 0x0F
  | 3 => 0x1F
  | _ => 0

/-- Whether a target state is a transition of R436 whose further conditions hold (R452). -/
def State.targetLegal (s : State) (t : Nat) : Bool :=
  match s.fuses.life, t with
  | 0, 1 => (s.fuses.slots.toList.getD 0 none).isSome && s.fuses.mik.isSome && s.fuses.dus && !s.fuses.cert.isEmpty
  | 1, 2 => [1, 2, 3].any (fun k => (s.fuses.slots.toList.getD k none).isSome)
  | 1, 3 | 2, 3 => true
  | l, 4 => decide (l < 4)
  | _, _ => false

/-- Whether a revocation is refused (R442): signed by no owner slot, of the signing slot itself, or leaving no usable owner slot. -/
def State.revokeBad (s : State) (auth slot : Nat) : Bool :=
  !decide (1 ≤ auth ∧ auth ≤ 3) || auth == slot || !(([1, 2, 3] : List Nat).any (fun k => k != slot && s.slotUsable k))

/-- The reason of R446 for which a certificate is refused; 0 when it passes. -/
def State.certCheck (s : State) (c : List Byte) : Nat :=
  if s.ticks < s.sec.lockEnd then 1
  else if !s.dbgState || s.sec.session.isSome || s.sec.zero.isSome then 2
  else if !certShape c then 3
  else if ((s.sec.chal.filter (fun x => decide (s.ticks - x.2 < 60000000000))).map (·.1)) ≠ some ((c.drop 24).take 32) then 4
  else if le c 16 8 ≠ s.fuses.uid.toNat then 5
  else match s.authKey c with
    | none => 6
    | some (key, mask) =>
      if !Config.ecdsaOk key (c.take 96) ((c.drop 96).take 96) then 7
      else
        let bad := match certKind c with
          | 0 => certScope c &&& (scopesOf s.fuses.life &&& mask) != certScope c
          | 1 => !s.targetLegal (certTarget c)
          | _ => s.revokeBad (certAuth c) (certTarget c)
        if bad then 8 else 0

/-- Status of a refusal (R446). -/
def reasonStatus (r : Nat) : Nat := if r = 2 then 3 else if r = 3 then 4 else if r = 7 then 7 else 5

/-- A refused certificate (R446, R447): event, counter, run of failures, lockout. -/
def State.certRefuse (s : State) (via : DbgVia) (c : List Byte) (reason : Nat) : State :=
  let n := s.sec.failRun + 1
  let lock := if n ≥ 4 then s.ticks + min 3600 (10 * 2 ^ (n - 4)) * 1000000000 else s.sec.lockEnd
  let s := { s with sec := { s.sec with failRun := n, lockEnd := lock } }
  (s.ev 0x0D04 0x01 (reason + (if via = .jtag then 1 else 0) <<< 8 + certKind c <<< 16)).inc Reg.SEC_AUTH_FAIL_CNT

/-! ### Zeroisation (R449) -/

/-- Steps 1 and 2 of R449: every job stops and is FAILED; on-die memories but the system banks are zero-filled, and the loft cache is not written back. -/
def State.zeroMemories (s : State) : State :=
  let s := s.jobNums.foldl (fun t j => ((t.stopJob j).setJst j 5).modJob j (fun x => { x with restart := none })) s
  let s := s.loftDrop
  let gone := fun (a : Nat) => decide (grnBase ≤ a ∧ a < brnBase) && !(decide (a < grnBase + 0x10000000) && s.sysBank ((a - grnBase) / 0x40000))
  let s := s.loseMem (fun a => !gone a)
  { s with fronds := s.fronds.map (fun (x : Frond) => ({ x with cells := [] } : Frond)), mems := { s.mems with resv := [] } }

/-- A zeroisation starts (R449, R453). -/
def State.startZero (s : State) (open_ : Option Session) (cause : Nat) : State :=
  let s := s.zeroMemories
  { s with sec := { s.sec with zero := some ⟨open_, cause, s.ticks⟩ } }

/-- SEC_DBG_STS shows an open session (R454). -/
def State.showSession (s : State) (x : Session) : State :=
  let s := (s.p Reg.SEC_DBG_STS_SCOPE x.scope.toNat).p Reg.SEC_DBG_STS_OPEN 1
  (s.p Reg.SEC_DBG_STS_AGENT (b2n x.jtag)).p Reg.SEC_DBG_STS_AUTH x.auth.toNat

/-- A session opens (R448, R454): EV_DBG_OPEN; its DURATION runs from here. -/
def State.openSession (s : State) (x : Session) : State :=
  let s := { s with sec := { s.sec with session := some { x with until_ := some (s.ticks + x.dur * 1000000000) } } }
  let z := s.on Reg.SEC_DBG_STS_ZEROISED
  (s.showSession x).ev 0x0D02 0x01 (x.scope.toNat + x.auth.toNat <<< 8 + b2n x.jtag <<< 12 + b2n z <<< 13 + x.dur <<< 32)

/-- ZEROISE_COMPLETE (R449, R453): the barn is zero, key RAM is cleared; the session opens, or the WARM reset of a transition becomes due. -/
def execZeroiseComplete (s : State) : Host.Outcome State Fault Refusal :=
  act (fun s =>
    match s.sec.zero with
    | none => s
    | some z =>
      let us := (s.ticks - z.since) / 1000
      let s := s.loftDrop.loseMem (fun a => decide (a < brnBase))
      let s := { s with sec := { s.sec with zero := none, zeroised := true, keysGone := true } }
      let s := (s.p Reg.SEC_DBG_STS_ZEROISED 1).inc Reg.SEC_ZERO_CNT
      let s := s.ev 0x0D05 0x01 (z.cause + us <<< 32)
      match z.open_ with
      | some x => s.openSession x
      | none => { s with boot := { s.boot with warmDue := true } }) s

/-- Whether opening scopes zeroises first (R449). -/
def State.zeroFirst (s : State) (scope : Nat) : Bool :=
  (s.fuses.life == 1 || s.fuses.life == 2) && decide (scope % 8 ≠ 0) && s.boot.phase == .started && s.flags.testBit 0

/-! ### Fuses: transitions, revocations, keys (R441, R442, R453) -/

/-- LIFE_CYCLE_TRANSITION (R453): the new state's bit, then OWNER_SEED for FIELD; `blown` bits read back in order. RETURN and END destroy keys, zeroise and erase the checkpoint region. -/
def State.transition (s : State) (t blown : Nat) : State :=
  let old := s.fuses.life
  let s := s.closeDebug 6
  if blown = 0 then s.fuseFail 2 (t - 1)
  else
    let s := { s with fuses := { s.fuses with life := t }, sec := { s.sec with owedLc := some (old, t) } }
    if t ≥ 3 then
      let s := s.flErase (s.ckptBase 0) (2 * s.ckptSize)
      ((s.finishBlowing).fuseRegs).startZero none (t - 1)
    else
      let seeded := decide (t = 2 ∧ blown ≥ 257)
      let s := if t = 2 ∧ blown < 257 then s.fuseFail 5 (blown - 1) else s
      let s := ({ s with fuses := { s.fuses with seed := s.fuses.seed || seeded } }).fuseRegs
      { s with boot := { s.boot with warmDue := true } }

/-- A revocation (R442). -/
def State.revoke (s : State) (slot blown : Nat) : State :=
  if blown = 0 then s.fuseFail 4 slot
  else
    let s := ({ s with fuses := { s.fuses with revoked := s.fuses.revoked ||| BitVec.ofNat 4 (1 <<< slot) } }).fuseRegs
    s.ev 0x0D06 0x01 (slot + 3 <<< 2)

/-- A key fused (R441): an owner slot (1 to 3) of 768 bits, or the OIK (4) of 256 bits. -/
def State.fuseKey (s : State) (slot : Nat) (key : List Byte) (blown : Nat) : State :=
  if blown < 8 * key.length then s.fuseFail 3 blown
  else if slot = 4 then (({ s with fuses := { s.fuses with oik := some key } }).fuseRegs).ev 0x0D06 0x01 (2 <<< 2)
  else (({ s with fuses := { s.fuses with slots := s.fuses.slots.set (Fin.ofNat 4 slot) (some key) } }).fuseRegs).ev 0x0D06 0x01 (slot + 1 <<< 2)

/-- A fuse write made now, or waiting for its moment (R440). -/
def State.fuseWrite (s : State) (d : FuseDue) (blown : Nat) : State :=
  if !s.canFuse then s.fuseWait d
  else match d with
    | .arb => s.arbAdvance blown
    | .transition t => s.transition t blown
    | .revoke k => s.revoke k blown
    | .key k b => s.fuseKey k b blown

/-- FUSE_WRITE_RESUME (R440): the oldest waiting write is made once RUN or SAFE is reached with no thermal cap. -/
def execFuseWriteResume (blown : Nat) (s : State) : Host.Outcome State Fault Refusal :=
  act (fun s =>
    match s.fuses.due with
    | [] => s
    | d :: ds => if s.canFuse then ({ s with fuses := { s.fuses with due := ds } }).fuseWrite d blown else s) s

/-! ### CERT_SUBMIT, CLOSE, KEY_WRITE (R445, R446) -/

/-- The session that a certificate of KIND 0 opens. -/
def certSession (via : DbgVia) (c : List Byte) : Session :=
  ⟨BitVec.ofNat 8 (certScope c), BitVec.ofNat 4 (certAuth c), via == .jtag, none, certDur c⟩

/-- What a certificate that passes does. -/
def State.certAct (s : State) (via : DbgVia) (c : List Byte) (blown : Nat) : State :=
  match certKind c with
  | 0 => if s.zeroFirst (certScope c) then s.startZero (some (certSession via c)) 1 else s.openSession (certSession via c)
  | 1 => s.fuseWrite (.transition (certTarget c)) blown
  | _ => s.fuseWrite (.revoke (certTarget c)) blown

/-- CERT_SUBMIT (R445, R446): the challenge is used up whatever the result. -/
def execCertSubmit (via : DbgVia) (r : MgReq) (blown : Nat) (s : State) : Host.Outcome State Fault Refusal :=
  act (fun s => s.dbgServe via r 2 192 (fun s =>
    let c := r.payload.drop 4
    let why := s.certCheck c
    let s := { s with sec := { s.sec with chal := none } }
    if why ≠ 0 then (s.certRefuse via c why).dbgAnswer via r.seq (reasonStatus why) []
    else
      let s := ({ s with sec := { s.sec with failRun := 0, lockEnd := 0 } }).certAct via c blown
      s.dbgAnswer via r.seq 0 (s.regBytes Reg.SEC_DBG_STS_OPEN))) s

/-- DEBUG_CLOSE (R445, R450): OK also with no session open. -/
def execDebugClose (via : DbgVia) (r : MgReq) (s : State) : Host.Outcome State Fault Refusal :=
  act (fun s => s.dbgServe via r 3 0 (fun s => (s.closeDebug 1).dbgAnswer via r.seq 0 [])) s

/-- KEY_WRITE (R441, R445): only over the JTAG mailbox and only in SEALED; a key already fused is refused. -/
def execKeyWrite (via : DbgVia) (r : MgReq) (blown : Nat) (s : State) : Host.Outcome State Fault Refusal :=
  act (fun s =>
    let k := byteAt r.payload 4
    s.dbgServe via r 4 (if k = 4 then 36 else 100) (fun s =>
      if k < 1 ∨ k > 4 ∨ zeroRange r.payload 5 3 = false then s.dbgAnswer via r.seq 4 []
      else if !s.dbgState then s.dbgAnswer via r.seq 3 []
      else
        let taken := if k = 4 then s.fuses.oik.isSome else (s.fuses.slots.toList.getD k none).isSome
        if via = .mg ∨ s.fuses.life ≠ 1 ∨ taken = true then s.dbgAnswer via r.seq 5 []
        else (s.fuseWrite (.key k (r.payload.drop 8)) blown).dbgAnswer via r.seq 0 [])) s

/-- DEBUG_UNLOCK_RESERVED (R445): a reserved sub-operation is answered RANGE. -/
def execDebugUnlockReserved (via : DbgVia) (r : MgReq) (s : State) : Host.Outcome State Fault Refusal :=
  act (fun s => match via with
    | .mg => s.mgServe 0x0060 true r (fun s => s.dbgAnswer .mg r.seq 4 [])
    | .jtag => s.dbgAnswer .jtag r.seq 4 []) s

/-! ### Ends of times (R445, R447, R450) -/

/-- DEBUG_SESSION_EXPIRY (R450): the end of DURATION. -/
def execDebugSessionExpiry (s : State) : Host.Outcome State Fault Refusal :=
  act (fun s => match s.sec.session with
    | some x => if (x.until_.map (fun t => decide (t ≤ s.ticks))).getD false then s.closeDebug 2 else s
    | none => s) s

/-- CHALLENGE_EXPIRY (R445): 60 s old. -/
def execChallengeExpiry (s : State) : Host.Outcome State Fault Refusal :=
  act (fun s => match s.sec.chal with
    | some (_, t) => if s.ticks - t < 60000000000 then s else { s with sec := { s.sec with chal := none } }
    | none => s) s

/-- LOCKOUT_END (R447): CERT_SUBMITs are checked again; the run of failures stays. -/
def execLockoutEnd (s : State) : Host.Outcome State Fault Refusal :=
  act (fun s => if s.ticks < s.sec.lockEnd then s else { s with sec := { s.sec with lockEnd := 0 } }) s

end Sys2Proof.Machine
end

