-- ==== Sys2Proof/Machine/Smb.lean ====
section
/-!
DEFINITION. The SMBus target (02 R64 R65, 18 R461 R466). It is served whenever the always-on island runs, that is outside POR (R54, R55).
-/
namespace Sys2Proof.Machine

open Sys2Proof (Byte Word)

/-- A command reaches the target outside POR. -/
def actSmb (f : State → State) (s : State) : Host.Outcome State Fault Refusal :=
  actPin (fun s => if s.boot.phase = .por then s else f s) s

/-- The target's answer goes to the log (log 4): none is a NACK. -/
def State.smbAnswer (s : State) (r : Option (List Byte)) : State := { s with smbOut := s.smbOut ++ [r] }

/-- A command with an optional packet error code (R64): a wrong one is NACKed and counted, and the command has no effect. -/
def State.smbServe (s : State) (pec : Option Bool) (f : State → State) : State :=
  if pec = some false then (s.inc Reg.SMB_PEC_ERR_CNT).smbAnswer none else f s

/-- A word answered. -/
def State.smbWord (s : State) (pec : Option Bool) (w : Nat) : State := s.smbServe pec (fun s => s.smbAnswer (some (toLE 2 w)))

/-- SMB_IDENT (R64). -/
def execSmbIdent (pec : Option Bool) (s : State) : Host.Outcome State Fault Refusal :=
  actSmb (fun s => s.smbServe pec (fun s => s.smbAnswer (some s.identBytes))) s

/-- SMB_STATUS (R64). -/
def execSmbStatus (pec : Option Bool) (s : State) : Host.Outcome State Fault Refusal :=
  actSmb (fun s => s.smbWord pec s.statusWord) s

/-- SMB_TEMP (R64): 0.125 °C steps, as PWR_TEMP. -/
def execSmbTemp (pec : Option Bool) (s : State) : Host.Outcome State Fault Refusal :=
  actSmb (fun s => s.smbWord pec (s.g Reg.PWR_TEMP_T)) s

/-- SMB_POWER (R64): the 1 ms average in 0.5 W steps; PWR_POWER holds it in 0.125 W. -/
def execSmbPower (pec : Option Bool) (s : State) : Host.Outcome State Fault Refusal :=
  actSmb (fun s => s.smbWord pec (s.g Reg.PWR_POWER / 4)) s

/-- SMB_CAP_READ (R64). -/
def execSmbCapRead (pec : Option Bool) (s : State) : Host.Outcome State Fault Refusal :=
  actSmb (fun s => s.smbWord pec (s.g Reg.PWR_CAP)) s

/-- SMB_CAP_WRITE (R64, R65): outside 240 to 720 it is NACKed. -/
def execSmbCapWrite (cap : BitVec 16) (pec : Option Bool) (s : State) : Host.Outcome State Fault Refusal :=
  actSmb (fun s => s.smbServe pec (fun s =>
    if cap.toNat < 240 ∨ cap.toNat > 720 then s.smbAnswer none else (s.capTake cap.toNat).smbAnswer (some []))) s

/-- SMB_ALARMS_READ (R64). -/
def execSmbAlarmsRead (pec : Option Bool) (s : State) : Host.Outcome State Fault Refusal :=
  actSmb (fun s => s.smbWord pec s.smbAlarms.toNat) s

/-- SMB_ALARMS_CLEAR (R64, R466): bits written 1 clear; SMB_ALERT_N is released once no bit is set. -/
def execSmbAlarmsClear (mask : Byte) (pec : Option Bool) (s : State) : Host.Outcome State Fault Refusal :=
  actSmb (fun s => s.smbServe pec (fun s =>
    let left := s.smbAlarms &&& ~~~(mask.setWidth 5)
    ({ s with smbAlarms := left, smbAlert := s.smbAlert && left != 0 }).smbAnswer (some []))) s

/-- SMB_EVENTS (R64): unread event ring entries. -/
def execSmbEvents (pec : Option Bool) (s : State) : Host.Outcome State Fault Refusal :=
  actSmb (fun s => s.smbWord pec ((s.g Reg.SYS_EVR_WR_IDX + 4096 - s.g Reg.SYS_EVR_RD_IDX) % 4096)) s

/-- SMB_UNKNOWN_COMMAND (R64): a command byte above 0x06 is NACKed. -/
def execSmbUnknownCommand (cmd : Byte) (s : State) : Host.Outcome State Fault Refusal :=
  actSmb (fun s => if cmd.toNat > 6 then s.smbAnswer none else s) s

/-- SMB_ALERT_RESPONSE (R466): while SMB_ALERT_N is asserted the target answers with its address, 0x58 + SMB_ADDR in the upper seven bits (PRESUMED, log 18), and releases SMB_ALERT_N. -/
def execSmbAlertResponse (s : State) : Host.Outcome State Fault Refusal :=
  actSmb (fun s =>
    if s.smbAlert then ({ s with smbAlert := false }).smbAnswer (some (toLE 1 (2 * (0x58 + s.boot.smbAddr.toNat)))) else s) s

/-- SMB_TIMEOUT (R461, R466): SMB_CLK low for more than 25 ms resets the interface, which is counted. -/
def execSmbTimeout (s : State) : Host.Outcome State Fault Refusal :=
  actSmb (fun s => s.inc Reg.SMB_TIMEOUT_CNT) s

end Sys2Proof.Machine
end

