-- ==== Sys2Proof/Machine/StreamExec.lean ====
section
/-!
DEFINITION. Issue of descriptors (05 R132, R135, R138, R162, R164) and the descriptors of every kind (R134).
-/
namespace Sys2Proof.Machine

open Sys2Proof (Byte Word XferRep)

/-! ### Issue -/

/-- What the conditions of a descriptor's kind say (R134). -/
def State.gateOf (s : State) (f : Fin 6) (n : Fin 32) (j : Nat) (d : BitVec 256) : Gate :=
  match dKind d with
  | 1 => s.xferGate f n j d
  | 2 => s.loopGate f n d
  | 3 => s.drainGate f d
  | 4 => if dbit d 79 then s.reloadGate f d else s.spillGate f d
  | 5 | 6 => .go
  | 7 => s.linkGate f n d
  | _ => .hold

/-- Whether the head descriptor of a stream would be served now: issued, refused or found in error. -/
def State.ready (s : State) (f : Fin 6) (m : Fin 32) : Bool :=
  match s.headOf f m (List.range 16) with
  | none => false
  | some (j, _, d) =>
    let x := s.strm f m
    s.descStatic j (some (s.job j).bind.channels) (some m.val) d != 0 ||
      (!(dLbar d && !x.flight.isEmpty) && decide (x.flight.length < 16) && s.semReady f m d &&
        (match s.gateOf f m j d with | .go | .err _ | .short => true | _ => false))

/-- Whether another stream of the frond comes first in the round robin of DET = 1, in ascending local number after the stream served last (R162). With DET = 0 which stream became ready earliest is the order of the commands (log 1). -/
def State.detTurn (s : State) (f : Fin 6) (n : Fin 32) : Bool :=
  let turn := fun (m : Nat) => (m + 31 - (s.fr f).served) % 32
  s.det && s.ready f n && (List.finRange 32).any (fun m => decide (turn m.val < turn n.val) && s.ready f m)

/-- ISSUE (R132, R135, R138, R162, R164): the lowest error code that applies stops the stream; else with DET = 1 its turn comes (R162), and the descriptor waits for LBAR, the in-flight limit, its semaphore and the conditions of its kind; else it issues. -/
def State.issue (s : State) (f : Fin 6) (n : Fin 32) (kinds : List Nat)
    (body : State → Nat → Nat → BitVec 256 → State) : State :=
  match s.headOf f n kinds with
  | none => s
  | some (j, pos, d) =>
    let x := s.strm f n
    let gt := s.gateOf f n j d
    let sc := s.descStatic j (some (s.job j).bind.channels) (some n.val) d
    if s.detTurn f n then s
    else if sc ≠ 0 then s.streamErr f n (match gt with | .err c => min c sc | _ => sc) (dKind d) pos
    else if dLbar d && !x.flight.isEmpty then
      (if x.flight.any (fun y => isMcast y.desc) then s.waitOn f n 5 0 else s)
    else if x.flight.length ≥ 16 then s.waitOn f n 6 0
    else if !s.semReady f n d then s.waitOn f n (if dWside d then 2 else 1) (dWsem d)
    else match gt with
      | .go => body ((s.popHead f n pos d).modFr f (fun x => { x with served := n.val })) j pos d
      | .wait k o => s.waitOn f n k o
      | .err c => s.streamErr f n c (dKind d) pos
      | .hold => s
      | .short => s.accShort f n

/-- SEM (R134): waits and posts only. -/
def execSem (f : Fin 6) (n : Fin 32) (s : State) : Host.Outcome State Fault Refusal :=
  act (fun s => s.issue f n [5] (fun s _ pos d => s.atIssue f n pos d)) s

/-- DESCRIPTOR_RESERVED_KIND (R134): never issued; stream error 1. -/
def execDescriptorReservedKind (f : Fin 6) (n : Fin 32) (s : State) : Host.Outcome State Fault Refusal :=
  act (fun s => s.issue f n [0, 8, 9, 10, 11, 12, 13, 14, 15] (fun s _ _ _ => s)) s

/-- BARRIER (R140): the descriptor holds its stream in wait kind 4 until its partners have arrived with their earlier work complete. -/
def execBarrier (f : Fin 6) (n : Fin 32) (s : State) : Host.Outcome State Fault Refusal :=
  act (fun s => s.issue f n [6] (fun s _ pos d =>
    ((s.addFlight f n (mkFlight d pos false)).waitOn f n 4 (dBarId d)).barrierTest f)) s

/-- LINK (R135): REPEAT 0 always goes to TARGET; else the counter, loaded when it is 0, is decremented, and when it reaches 0 the stream goes on after the LINK (log 23). -/
def execLink (f : Fin 6) (n : Fin 32) (s : State) : Host.Outcome State Fault Refusal :=
  act (fun s => s.issue f n [7] (fun s _ pos d =>
    let x := s.strm f n
    if dEnd d then s.atIssue f n pos d
    else
      let s := if dRepeat d = 0 then s.goTo f n (dTarget d) x.rep x.repAt
        else
          let r := (if x.rep = 0 then dRepeat d else x.rep) - 1
          if r = 0 then s.goTo f n (pos + 1) 0 0 else s.goTo f n (dTarget d) r pos
      s.atIssue f n pos d)) s

/-- XFER (R143): issues once its wait is met and its records pass, and moves planes, rows and bytes; the report gives what the accesses met (R144, R303). -/
def execXfer (f : Fin 6) (n : Fin 32) (rep : XferRep) (s : State) : Host.Outcome State Fault Refusal :=
  act (fun s => s.issue f n [1] (fun s j pos d => s.xferBody f n rep j pos d)) s

/-- ARRAY_LOOP (R148, R151). -/
def execArrayLoop (f : Fin 6) (n : Fin 32) (s : State) : Host.Outcome State Fault Refusal :=
  act (fun s => s.issue f n [2] (fun s _ pos d => s.loopBody f n pos d)) s

/-- DRAIN (R155). -/
def execDrain (f : Fin 6) (n : Fin 32) (s : State) : Host.Outcome State Fault Refusal :=
  act (fun s => s.issue f n [3] (fun s _ pos d => s.drainBody f n pos d)) s

/-- ACC_MOVE_SPILL (R152). -/
def execAccMoveSpill (f : Fin 6) (n : Fin 32) (s : State) : Host.Outcome State Fault Refusal :=
  act (fun s =>
    if !s.headDir f n false then s
    else s.issue f n [4] (fun s j pos d =>
      let s := ((movTiles d).zipIdx.foldl (fun t e => t.spillTile f j e.1 (imageAt d e.2)) s).addc (Reg.STR_SPILL_TILE_CNT f) (dfield d 71 8)
      (s.addFlight f n (mkFlight d pos true)).accRetest f)) s

/-- ACC_MOVE_RELOAD (R152). -/
def execAccMoveReload (f : Fin 6) (n : Fin 32) (s : State) : Host.Outcome State Fault Refusal :=
  act (fun s =>
    if !s.headDir f n true then s
    else s.issue f n [4] (fun s j pos d =>
      ((movTiles d).zipIdx.foldl (fun t e => t.reloadTile f n j e.1 (imageAt d e.2)) s).addFlight f n (mkFlight d pos true))) s

end Sys2Proof.Machine
end

