-- ==== Sys2Proof/Machine/Dispatch.lean ====
section
/-!
DEFINITION. The dispatch: one arm per command, each a direct call of its meaning.
-/
namespace Sys2Proof.Machine

/-- The effect of a command on everything but the queue. -/
def exec (i : Instr) (s : State) : Host.Outcome State Fault Refusal :=
  match i with
  | .porAssert => Sys2Proof.Machine.execPorAssert s
  | .porRelease testMode smbAddr => Sys2Proof.Machine.execPorRelease testMode smbAddr s
  | .warmNAssert => Sys2Proof.Machine.execWarmNAssert s
  | .warmNRelease => Sys2Proof.Machine.execWarmNRelease s
  | .railLow rail => Sys2Proof.Machine.execRailLow rail s
  | .railRecovered => Sys2Proof.Machine.execRailRecovered s
  | .xoInLoss => Sys2Proof.Machine.execXoInLoss s
  | .xoInRegain => Sys2Proof.Machine.execXoInRegain s
  | .wakeNEdge => Sys2Proof.Machine.execWakeNEdge s
  | .caplimNChange low stable => Sys2Proof.Machine.execCaplimNChange low stable s
  | .caplimLong => Sys2Proof.Machine.execCaplimLong s
  | .ppsInEdge widthNs => Sys2Proof.Machine.execPpsInEdge widthNs s
  | .ppsSecondEnd => Sys2Proof.Machine.execPpsSecondEnd s
  | .refInLoss => Sys2Proof.Machine.execRefInLoss s
  | .refInRegain => Sys2Proof.Machine.execRefInRegain s
  | .laneSignalDetectChange lane level held => Sys2Proof.Machine.execLaneSignalDetectChange lane level held s
  | .laneAlignmentLoss lane => Sys2Proof.Machine.execLaneAlignmentLoss lane s
  | .laneFaultJudge lane => Sys2Proof.Machine.execLaneFaultJudge lane s
  | .linkTrainingComplete link => Sys2Proof.Machine.execLinkTrainingComplete link s
  | .jtagTrst => Sys2Proof.Machine.execJtagTrst s
  | .securitySelftestDone result => Sys2Proof.Machine.execSecuritySelftestDone result s
  | .flashSfdpRead info => Sys2Proof.Machine.execFlashSfdpRead info s
  | .directoryRead => Sys2Proof.Machine.execDirectoryRead s
  | .sectionLoaded read => Sys2Proof.Machine.execSectionLoaded read s
  | .memoryTestDone bad badLeaf => Sys2Proof.Machine.execMemoryTestDone bad badLeaf s
  | .barnTrainingDone result => Sys2Proof.Machine.execBarnTrainingDone result s
  | .firmwareStart => Sys2Proof.Machine.execFirmwareStart s
  | .imageConfirm blown => Sys2Proof.Machine.execImageConfirm blown s
  | .fuseWriteResume blown => Sys2Proof.Machine.execFuseWriteResume blown s
  | .mgFrameDrop x => Sys2Proof.Machine.execMgFrameDrop x s
  | .mgUnsupportedRequest op r => Sys2Proof.Machine.execMgUnsupportedRequest op r s
  | .identGet r => Sys2Proof.Machine.execIdentGet r s
  | .certGet r => Sys2Proof.Machine.execCertGet r s
  | .regRead r => Sys2Proof.Machine.execRegRead r s
  | .regWrite r => Sys2Proof.Machine.execRegWrite r s
  | .capSet r => Sys2Proof.Machine.execCapSet r s
  | .timeServoIncr r => Sys2Proof.Machine.execTimeServoIncr r s
  | .timeServoStep r => Sys2Proof.Machine.execTimeServoStep r s
  | .timeServoSet r => Sys2Proof.Machine.execTimeServoSet r s
  | .timeServoLock r => Sys2Proof.Machine.execTimeServoLock r s
  | .timeServoUnlock r => Sys2Proof.Machine.execTimeServoUnlock r s
  | .slotOpen r => Sys2Proof.Machine.execSlotOpen r s
  | .slotWrite r => Sys2Proof.Machine.execSlotWrite r s
  | .slotCommit r reads => Sys2Proof.Machine.execSlotCommit r reads s
  | .slotPrefer r => Sys2Proof.Machine.execSlotPrefer r s
  | .jobRebind r => Sys2Proof.Machine.execJobRebind r s
  | .imgAdopt r => Sys2Proof.Machine.execImgAdopt r s
  | .imgAdoptCheckDone reads => Sys2Proof.Machine.execImgAdoptCheckDone reads s
  | .imgAdoptJobRestart => Sys2Proof.Machine.execImgAdoptJobRestart s
  | .warmReset r => Sys2Proof.Machine.execWarmReset r s
  | .deferredWarm => Sys2Proof.Machine.execDeferredWarm s
  | .powerState r => Sys2Proof.Machine.execPowerState r s
  | .challengeGet via r => Sys2Proof.Machine.execChallengeGet via r s
  | .certSubmit via r blown => Sys2Proof.Machine.execCertSubmit via r blown s
  | .debugClose via r => Sys2Proof.Machine.execDebugClose via r s
  | .keyWrite via r blown => Sys2Proof.Machine.execKeyWrite via r blown s
  | .debugUnlockReserved via r => Sys2Proof.Machine.execDebugUnlockReserved via r s
  | .zeroiseComplete => Sys2Proof.Machine.execZeroiseComplete s
  | .debugSessionExpiry => Sys2Proof.Machine.execDebugSessionExpiry s
  | .challengeExpiry => Sys2Proof.Machine.execChallengeExpiry s
  | .lockoutEnd => Sys2Proof.Machine.execLockoutEnd s
  | .debugAccess a => Sys2Proof.Machine.execDebugAccess a s
  | .bypass => Sys2Proof.Machine.execBypass s
  | .idcode => Sys2Proof.Machine.execIdcode s
  | .samplePreload cells => Sys2Proof.Machine.execSamplePreload cells s
  | .extest cells => Sys2Proof.Machine.execExtest cells s
  | .clamp => Sys2Proof.Machine.execClamp s
  | .highz => Sys2Proof.Machine.execHighz s
  | .dbgMbox w => Sys2Proof.Machine.execDbgMbox w s
  | .telemetry => Sys2Proof.Machine.execTelemetry s
  | .smbIdent pec => Sys2Proof.Machine.execSmbIdent pec s
  | .smbStatus pec => Sys2Proof.Machine.execSmbStatus pec s
  | .smbTemp pec => Sys2Proof.Machine.execSmbTemp pec s
  | .smbPower pec => Sys2Proof.Machine.execSmbPower pec s
  | .smbCapRead pec => Sys2Proof.Machine.execSmbCapRead pec s
  | .smbCapWrite cap pec => Sys2Proof.Machine.execSmbCapWrite cap pec s
  | .smbAlarmsRead pec => Sys2Proof.Machine.execSmbAlarmsRead pec s
  | .smbAlarmsClear mask pec => Sys2Proof.Machine.execSmbAlarmsClear mask pec s
  | .smbEvents pec => Sys2Proof.Machine.execSmbEvents pec s
  | .smbUnknownCommand cmd => Sys2Proof.Machine.execSmbUnknownCommand cmd s
  | .smbAlertResponse => Sys2Proof.Machine.execSmbAlertResponse s
  | .smbTimeout => Sys2Proof.Machine.execSmbTimeout s
  | .registerWrite a val => Sys2Proof.Machine.execRegisterWrite a val s
  | .rcCounterRead a => Sys2Proof.Machine.execRcCounterRead a s
  | .telXqStallRead agent => Sys2Proof.Machine.execTelXqStallRead agent s
  | .timeNowCapture agent dom => Sys2Proof.Machine.execTimeNowCapture agent dom s
  | .crossingItemArrival q src item waits => Sys2Proof.Machine.execCrossingItemArrival q src item waits s
  | .crossingCreditReturn q waits => Sys2Proof.Machine.execCrossingCreditReturn q waits s
  | .islandClockGate isl => Sys2Proof.Machine.execIslandClockGate isl s
  | .panePlanApply agent f val => Sys2Proof.Machine.execPanePlanApply agent f val s
  | .panePlanInstall f => Sys2Proof.Machine.execPanePlanInstall f s
  | .passDispatch f => Sys2Proof.Machine.execPassDispatch f s
  | .passMmAcc f p rep => Sys2Proof.Machine.execPassMmAcc f p rep s
  | .passMmSet f p rep => Sys2Proof.Machine.execPassMmSet f p rep s
  | .passEwMul f p rep => Sys2Proof.Machine.execPassEwMul f p rep s
  | .passEwAdd f p rep => Sys2Proof.Machine.execPassEwAdd f p rep s
  | .stationaryLoad f p hold laneWait bankConf => Sys2Proof.Machine.execStationaryLoad f p hold laneWait bankConf s
  | .passComplete f p => Sys2Proof.Machine.execPassComplete f p s
  | .jobReady j ok => Sys2Proof.Machine.execJobReady j ok s
  | .jobRestart agent val => Sys2Proof.Machine.execJobRestart agent val s
  | .leafSclStep agent f val => Sys2Proof.Machine.execLeafSclStep agent f val s
  | .scaleStepDone f => Sys2Proof.Machine.execScaleStepDone f s
  | .granaryAmo c ret op addr dw val read => Sys2Proof.Machine.execGranaryAmo c ret op addr dw val read s
  | .grnFadd agent c val read => Sys2Proof.Machine.execGrnFadd agent c val read s
  | .semaphorePortPost agent sem side count => Sys2Proof.Machine.execSemaphorePortPost agent sem side count s
  | .bankRetentionEntry b => Sys2Proof.Machine.execBankRetentionEntry b s
  | .loftMissFill job off store ecc => Sys2Proof.Machine.execLoftMissFill job off store ecc s
  | .brnWayMaskWrite agent val => Sys2Proof.Machine.execBrnWayMaskWrite agent val s
  | .gleanerVisit addr loft ecc testOk => Sys2Proof.Machine.execGleanerVisit addr loft ecc testOk s
  | .streamStart agent f n val => Sys2Proof.Machine.execStreamStart agent f n val s
  | .streamAbort agent f n val => Sys2Proof.Machine.execStreamAbort agent f n val s
  | .baleFetch f n => Sys2Proof.Machine.execBaleFetch f n s
  | .xfer f n rep => Sys2Proof.Machine.execXfer f n rep s
  | .arrayLoop f n => Sys2Proof.Machine.execArrayLoop f n s
  | .passCommandGenerate f n => Sys2Proof.Machine.execPassCommandGenerate f n s
  | .drain f n => Sys2Proof.Machine.execDrain f n s
  | .accMoveSpill f n => Sys2Proof.Machine.execAccMoveSpill f n s
  | .accMoveReload f n => Sys2Proof.Machine.execAccMoveReload f n s
  | .sem f n => Sys2Proof.Machine.execSem f n s
  | .barrier f n => Sys2Proof.Machine.execBarrier f n s
  | .link f n => Sys2Proof.Machine.execLink f n s
  | .descriptorReservedKind f n => Sys2Proof.Machine.execDescriptorReservedKind f n s
  | .descriptorComplete f n k => Sys2Proof.Machine.execDescriptorComplete f n k s
  | .mcastBlockDelivery f n k credits => Sys2Proof.Machine.execMcastBlockDelivery f n k credits s
  | .strSemPost agent f val => Sys2Proof.Machine.execStrSemPost agent f val s
  | .accLimitWrite agent f val => Sys2Proof.Machine.execAccLimitWrite agent f val s
  | .streamWaitWatchdog f n => Sys2Proof.Machine.execStreamWaitWatchdog f n s
  | .deadlockConfirm f cycle => Sys2Proof.Machine.execDeadlockConfirm f cycle s
  | .tilerRetile f n head bales spill => Sys2Proof.Machine.execTilerRetile f n head bales spill s
  | .vecCmdPush agent f val => Sys2Proof.Machine.execVecCmdPush agent f val s
  | .vecCommandStart f => Sys2Proof.Machine.execVecCommandStart f s
  | .vecCommandComplete f lrn => Sys2Proof.Machine.execVecCommandComplete f lrn s
  | .vecSumPop agent f val => Sys2Proof.Machine.execVecSumPop agent f val s
  | .vecNop f => Sys2Proof.Machine.execVecNop f s
  | .vecLd f busy => Sys2Proof.Machine.execVecLd f busy s
  | .vecSt f busy => Sys2Proof.Machine.execVecSt f busy s
  | .vecMov f => Sys2Proof.Machine.execVecMov f s
  | .vecSpl f => Sys2Proof.Machine.execVecSpl f s
  | .vecAdd f => Sys2Proof.Machine.execVecAdd f s
  | .vecSub f => Sys2Proof.Machine.execVecSub f s
  | .vecMul f => Sys2Proof.Machine.execVecMul f s
  | .vecFma f => Sys2Proof.Machine.execVecFma f s
  | .vecMin f => Sys2Proof.Machine.execVecMin f s
  | .vecMax f => Sys2Proof.Machine.execVecMax f s
  | .vecAbs f => Sys2Proof.Machine.execVecAbs f s
  | .vecNeg f => Sys2Proof.Machine.execVecNeg f s
  | .vecClamp f => Sys2Proof.Machine.execVecClamp f s
  | .vecShl f => Sys2Proof.Machine.execVecShl f s
  | .vecShr f => Sys2Proof.Machine.execVecShr f s
  | .vecScl f => Sys2Proof.Machine.execVecScl f s
  | .vecCvt f => Sys2Proof.Machine.execVecCvt f s
  | .vecAnd f => Sys2Proof.Machine.execVecAnd f s
  | .vecOr f => Sys2Proof.Machine.execVecOr f s
  | .vecXor f => Sys2Proof.Machine.execVecXor f s
  | .vecClt f => Sys2Proof.Machine.execVecClt f s
  | .vecCle f => Sys2Proof.Machine.execVecCle f s
  | .vecCeq f => Sys2Proof.Machine.execVecCeq f s
  | .vecSel f => Sys2Proof.Machine.execVecSel f s
  | .vecRcp f => Sys2Proof.Machine.execVecRcp f s
  | .vecRsq f => Sys2Proof.Machine.execVecRsq f s
  | .vecExp2 f => Sys2Proof.Machine.execVecExp2 f s
  | .vecLog2 f => Sys2Proof.Machine.execVecLog2 f s
  | .vecPerm f => Sys2Proof.Machine.execVecPerm f s
  | .vecCmul f => Sys2Proof.Machine.execVecCmul f s
  | .vecLut f => Sys2Proof.Machine.execVecLut f s
  | .vecRsum f => Sys2Proof.Machine.execVecRsum f s
  | .vecRmax f => Sys2Proof.Machine.execVecRmax f s
  | .vecRmin f => Sys2Proof.Machine.execVecRmin f s
  | .vecRmaxi f => Sys2Proof.Machine.execVecRmaxi f s
  | .vecRmini f => Sys2Proof.Machine.execVecRmini f s
  | .vecSumout f => Sys2Proof.Machine.execVecSumout f s
  | .sigCoreStart agent k val => Sys2Proof.Machine.execSigCoreStart agent k val s
  | .sigCoreStop agent k val => Sys2Proof.Machine.execSigCoreStop agent k val s
  | .sigHostIrq agent k val => Sys2Proof.Machine.execSigHostIrq agent k val s
  | .sigMbiWrite agent k val => Sys2Proof.Machine.execSigMbiWrite agent k val s
  | .sigMboRead agent k => Sys2Proof.Machine.execSigMboRead agent k s
  | .sigTimeSourceFire k => Sys2Proof.Machine.execSigTimeSourceFire k s
  | .sigInterruptEntry k => Sys2Proof.Machine.execSigInterruptEntry k s
  | .sigMoveComplete k => Sys2Proof.Machine.execSigMoveComplete k s
  | .sigCmac2 k rsvd stall => Sys2Proof.Machine.execSigCmac2 k rsvd stall s
  | .sigCmul2 k rsvd stall => Sys2Proof.Machine.execSigCmul2 k rsvd stall s
  | .sigCadd2 k rsvd stall => Sys2Proof.Machine.execSigCadd2 k rsvd stall s
  | .sigCsub2 k rsvd stall => Sys2Proof.Machine.execSigCsub2 k rsvd stall s
  | .sigClra k rsvd stall => Sys2Proof.Machine.execSigClra k rsvd stall s
  | .sigRnda k rsvd stall => Sys2Proof.Machine.execSigRnda k rsvd stall s
  | .sigAdd k rsvd stall => Sys2Proof.Machine.execSigAdd k rsvd stall s
  | .sigSub k rsvd stall => Sys2Proof.Machine.execSigSub k rsvd stall s
  | .sigAnd k rsvd stall => Sys2Proof.Machine.execSigAnd k rsvd stall s
  | .sigOr k rsvd stall => Sys2Proof.Machine.execSigOr k rsvd stall s
  | .sigXor k rsvd stall => Sys2Proof.Machine.execSigXor k rsvd stall s
  | .sigShl k rsvd stall => Sys2Proof.Machine.execSigShl k rsvd stall s
  | .sigShr k rsvd stall => Sys2Proof.Machine.execSigShr k rsvd stall s
  | .sigMov k rsvd stall => Sys2Proof.Machine.execSigMov k rsvd stall s
  | .sigMovi k rsvd stall => Sys2Proof.Machine.execSigMovi k rsvd stall s
  | .sigMaxi k rsvd stall => Sys2Proof.Machine.execSigMaxi k rsvd stall s
  | .sigMini k rsvd stall => Sys2Proof.Machine.execSigMini k rsvd stall s
  | .sigMaxm k rsvd stall => Sys2Proof.Machine.execSigMaxm k rsvd stall s
  | .sigMinm k rsvd stall => Sys2Proof.Machine.execSigMinm k rsvd stall s
  | .sigRot2 k rsvd stall => Sys2Proof.Machine.execSigRot2 k rsvd stall s
  | .sigAng k rsvd stall => Sys2Proof.Machine.execSigAng k rsvd stall s
  | .sigRcp k rsvd stall => Sys2Proof.Machine.execSigRcp k rsvd stall s
  | .sigRsq k rsvd stall => Sys2Proof.Machine.execSigRsq k rsvd stall s
  | .sigMts k rsvd reg stall => Sys2Proof.Machine.execSigMts k rsvd reg stall s
  | .sigMfs k rsvd reg stall => Sys2Proof.Machine.execSigMfs k rsvd reg stall s
  | .sigBr k rsvd target stall => Sys2Proof.Machine.execSigBr k rsvd target stall s
  | .sigBrz k rsvd target stall => Sys2Proof.Machine.execSigBrz k rsvd target stall s
  | .sigBrnz k rsvd target stall => Sys2Proof.Machine.execSigBrnz k rsvd target stall s
  | .sigBrn k rsvd target stall => Sys2Proof.Machine.execSigBrn k rsvd target stall s
  | .sigBrnn k rsvd target stall => Sys2Proof.Machine.execSigBrnn k rsvd target stall s
  | .sigCall k rsvd target stall => Sys2Proof.Machine.execSigCall k rsvd target stall s
  | .sigRet k rsvd stall => Sys2Proof.Machine.execSigRet k rsvd stall s
  | .sigReti k rsvd stall => Sys2Proof.Machine.execSigReti k rsvd stall s
  | .sigRep k rsvd stall => Sys2Proof.Machine.execSigRep k rsvd stall s
  | .sigRepd k rsvd stall => Sys2Proof.Machine.execSigRepd k rsvd stall s
  | .sigDi k rsvd stall => Sys2Proof.Machine.execSigDi k rsvd stall s
  | .sigPst k rsvd stall => Sys2Proof.Machine.execSigPst k rsvd stall s
  | .sigMove k rsvd stall => Sys2Proof.Machine.execSigMove k rsvd stall s
  | .sigMbr k rsvd stall => Sys2Proof.Machine.execSigMbr k rsvd stall s
  | .sigMbw k rsvd stall => Sys2Proof.Machine.execSigMbw k rsvd stall s
  | .sigWfi k rsvd stall => Sys2Proof.Machine.execSigWfi k rsvd stall s
  | .sigHalt k rsvd stall => Sys2Proof.Machine.execSigHalt k rsvd stall s
  | .slotStartEdge dom sfn slot => Sys2Proof.Machine.execSlotStartEdge dom sfn slot s
  | .ulPlan m => Sys2Proof.Machine.execUlPlan m s
  | .iqSection m => Sys2Proof.Machine.execIqSection m s
  | .symbolReleaseTimeout idx sym => Sys2Proof.Machine.execSymbolReleaseTimeout idx sym s
  | .referencePathComplete v => Sys2Proof.Machine.execReferencePathComplete v s
  | .guardTimeExpiry idx => Sys2Proof.Machine.execGuardTimeExpiry idx s
  | .deadlineEdge idx => Sys2Proof.Machine.execDeadlineEdge idx s
  | .thrCmdPush agent f val => Sys2Proof.Machine.execThrCmdPush agent f val s
  | .decode f => Sys2Proof.Machine.execDecode f s
  | .encode f => Sys2Proof.Machine.execEncode f s
  | .thrCommandComplete f => Sys2Proof.Machine.execThrCommandComplete f s
  | .thrCancel agent f val => Sys2Proof.Machine.execThrCancel agent f val s
  | .thrEtblWrite agent f bank c val => Sys2Proof.Machine.execThrEtblWrite agent f bank c val s
  | .dlPlan m => Sys2Proof.Machine.execDlPlan m s
  | .dlTb m => Sys2Proof.Machine.execDlTb m s
  | .precoder m => Sys2Proof.Machine.execPrecoder m s
  | .tbLeadCutoff idx => Sys2Proof.Machine.execTbLeadCutoff idx s
  | .egressSectionEnqueue t => Sys2Proof.Machine.execEgressSectionEnqueue t s
  | .launchTimeReached l => Sys2Proof.Machine.execLaunchTimeReached l s
  | .fhEgressFrameEnd p => Sys2Proof.Machine.execFhEgressFrameEnd p s
  | .fhFrameDrop x => Sys2Proof.Machine.execFhFrameDrop x s
  | .fhCtlBad m => Sys2Proof.Machine.execFhCtlBad m s
  | .ecpriOwdRequest o => Sys2Proof.Machine.execEcpriOwdRequest o s
  | .ecpriOwdRequestFollowUp o => Sys2Proof.Machine.execEcpriOwdRequestFollowUp o s
  | .ecpriOwdFollowUp o => Sys2Proof.Machine.execEcpriOwdFollowUp o s
  | .ecpriOwdRemoteRequest o => Sys2Proof.Machine.execEcpriOwdRemoteRequest o s
  | .ecpriOwdRemoteRequestFollowUp o => Sys2Proof.Machine.execEcpriOwdRemoteRequestFollowUp o s
  | .ecpriOwdOther o => Sys2Proof.Machine.execEcpriOwdOther o s
  | .labelWorkStart f idx work => Sys2Proof.Machine.execLabelWorkStart f idx work s
  | .labelRecordWrite w => Sys2Proof.Machine.execLabelRecordWrite w s
  | .epochStart => Sys2Proof.Machine.execEpochStart s
  | .trainingStep => Sys2Proof.Machine.execTrainingStep s
  | .checkpointWrite => Sys2Proof.Machine.execCheckpointWrite s
  | .candidateSubmit cand => Sys2Proof.Machine.execCandidateSubmit cand s
  | .promotionGate => Sys2Proof.Machine.execPromotionGate s
  | .gateComplete => Sys2Proof.Machine.execGateComplete s
  | .watchEnd => Sys2Proof.Machine.execWatchEnd s
  | .rollbackRequest agent val => Sys2Proof.Machine.execRollbackRequest agent val s
  | .modelPersist => Sys2Proof.Machine.execModelPersist s
  | .modelPersistDone => Sys2Proof.Machine.execModelPersistDone s
  | .sliceEnd ring => Sys2Proof.Machine.execSliceEnd ring s
  | .sliceSwitchStart ring => Sys2Proof.Machine.execSliceSwitchStart ring s
  | .sliceStuck ring => Sys2Proof.Machine.execSliceStuck ring s
  | .sliceSwitchComplete ring => Sys2Proof.Machine.execSliceSwitchComplete ring s
  | .jobRebindBoundary => Sys2Proof.Machine.execJobRebindBoundary s
  | .rzFrameDrop fr => Sys2Proof.Machine.execRzFrameDrop fr s
  | .rzFrameForward fr => Sys2Proof.Machine.execRzFrameForward fr s
  | .hello fr => Sys2Proof.Machine.execHello fr s
  | .delayReq fr => Sys2Proof.Machine.execDelayReq fr s
  | .delayRsp fr => Sys2Proof.Machine.execDelayRsp fr s
  | .beacon fr => Sys2Proof.Machine.execBeacon fr s
  | .join fr => Sys2Proof.Machine.execJoin fr s
  | .admitFrame fr => Sys2Proof.Machine.execAdmitFrame fr s
  | .refuse fr => Sys2Proof.Machine.execRefuse fr s
  | .membership fr => Sys2Proof.Machine.execMembership fr s
  | .fenceReq fr => Sys2Proof.Machine.execFenceReq fr s
  | .digest fr => Sys2Proof.Machine.execDigest fr s
  | .redUp fr => Sys2Proof.Machine.execRedUp fr s
  | .redDown fr => Sys2Proof.Machine.execRedDown fr s
  | .barArrive fr => Sys2Proof.Machine.execBarArrive fr s
  | .barRelease fr => Sys2Proof.Machine.execBarRelease fr s
  | .barrierReleaseTime f rtag slotIdx => Sys2Proof.Machine.execBarrierReleaseTime f rtag slotIdx s
  | .pairSync fr => Sys2Proof.Machine.execPairSync fr s
  | .pairBlocks fr => Sys2Proof.Machine.execPairBlocks fr s
  | .pairModel fr => Sys2Proof.Machine.execPairModel fr s
  | .rzLinkTimer p => Sys2Proof.Machine.execRzLinkTimer p s
  | .beaconTimer => Sys2Proof.Machine.execBeaconTimer s
  | .beaconTimeout => Sys2Proof.Machine.execBeaconTimeout s
  | .joinRetry => Sys2Proof.Machine.execJoinRetry s
  | .digestTimer => Sys2Proof.Machine.execDigestTimer s
  | .rzCmdPush agent f val => Sys2Proof.Machine.execRzCmdPush agent f val s
  | .reduce f => Sys2Proof.Machine.execReduce f s
  | .bcast f => Sys2Proof.Machine.execBcast f s
  | .groupBarrier f => Sys2Proof.Machine.execGroupBarrier f s
  | .groupOpDeadline f rtag slotIdx => Sys2Proof.Machine.execGroupOpDeadline f rtag slotIdx s
  | .rzLinkChange p up => Sys2Proof.Machine.execRzLinkChange p up s
  | .timeIncrWrite agent dom val => Sys2Proof.Machine.execTimeIncrWrite agent dom val s
  | .timeStep agent dom val => Sys2Proof.Machine.execTimeStep agent dom val s
  | .timeSet agent dom val => Sys2Proof.Machine.execTimeSet agent dom val s
  | .timeLock agent dom val => Sys2Proof.Machine.execTimeLock agent dom val s
  | .timeUnlock agent dom val => Sys2Proof.Machine.execTimeUnlock agent dom val s
  | .handoverFollow agent val => Sys2Proof.Machine.execHandoverFollow agent val s
  | .handoverRelease agent val => Sys2Proof.Machine.execHandoverRelease agent val s
  | .timeHoldoverEntry dom => Sys2Proof.Machine.execTimeHoldoverEntry dom s
  | .timeHoldoverExpiry dom => Sys2Proof.Machine.execTimeHoldoverExpiry dom s
  | .servoSourceRegained dom ofs => Sys2Proof.Machine.execServoSourceRegained dom ofs s
  | .ptpAnnounce dom m => Sys2Proof.Machine.execPtpAnnounce dom m s
  | .ptpSync dom m => Sys2Proof.Machine.execPtpSync dom m s
  | .ptpFollowUp dom m => Sys2Proof.Machine.execPtpFollowUp dom m s
  | .ptpDelayResp dom m => Sys2Proof.Machine.execPtpDelayResp dom m s
  | .ptpDelayReqTimer dom => Sys2Proof.Machine.execPtpDelayReqTimer dom s
  | .ptpAnnounceTimeout dom => Sys2Proof.Machine.execPtpAnnounceTimeout dom s
  | .ptpFrameDrop dom m => Sys2Proof.Machine.execPtpFrameDrop dom m s
  | .ppsOutPulse => Sys2Proof.Machine.execPpsOutPulse s
  | .opPointDecision isl occ depth => Sys2Proof.Machine.execOpPointDecision isl occ depth s
  | .opPointChangeDone isl => Sys2Proof.Machine.execOpPointChangeDone isl s
  | .droopDetect isl => Sys2Proof.Machine.execDroopDetect isl s
  | .droopClear isl => Sys2Proof.Machine.execDroopClear isl s
  | .opChangeAbandon isl => Sys2Proof.Machine.execOpChangeAbandon isl s
  | .capControlTick rep => Sys2Proof.Machine.execCapControlTick rep s
  | .shedSavingMeasure p => Sys2Proof.Machine.execShedSavingMeasure p s
  | .pwrCapWrite agent val => Sys2Proof.Machine.execPwrCapWrite agent val s
  | .powerTransitionComplete => Sys2Proof.Machine.execPowerTransitionComplete s
  | .keepWakeTime => Sys2Proof.Machine.execKeepWakeTime s
  | .thermalSample temps => Sys2Proof.Machine.execThermalSample temps s
  | .fabricTimeout src job loc addr testOk => Sys2Proof.Machine.execFabricTimeout src job loc addr testOk s
  | .unitWatchdog src unit_ loc testOk => Sys2Proof.Machine.execUnitWatchdog src unit_ loc testOk s
  | .ceRateCheck => Sys2Proof.Machine.execCeRateCheck s
  | .granaryPatternTestDone b ok lost => Sys2Proof.Machine.execGranaryPatternTestDone b ok lost s
  | .historyExpiry loc => Sys2Proof.Machine.execHistoryExpiry loc s
  | .calibration => Sys2Proof.Machine.execCalibration s
  | .journalRecordWrite programOk eraseOk => Sys2Proof.Machine.execJournalRecordWrite programOk eraseOk s
  | .uptimeRecord => Sys2Proof.Machine.execUptimeRecord s
  | .laneReturn agent mask => Sys2Proof.Machine.execLaneReturn agent mask s
  | .rzEgressFrameEnd p => Sys2Proof.Machine.execRzEgressFrameEnd p s
  | .handoverCoupled dom => Sys2Proof.Machine.execHandoverCoupled dom s
  | .shareBucketCredit p rz job => Sys2Proof.Machine.execShareBucketCredit p rz job s

end Sys2Proof.Machine
end

