-- ==== Sys2Proof/Machine/Balls.lean ====
section
/-!
DEFINITION. The states of the output balls (18 R464, R466; R460 for the resets of the flash and of the barn parts), read from State. TDO, high-Z except while a bit is shifted, is the JTAG port's own.
-/
namespace Sys2Proof.Machine

/-- The level of PPS_OUT; whether the open-drain outputs CAP_ALARM_N, TRIP_N and SMB_ALERT_N are pulled low; whether XSPI_CS_N is driven by the flash interface and XSPI_RESET_N and BRNc_RESET_N are low; which transmitters of the fronthaul links, the rhizome ports and MG are active (R464). -/
structure Balls where
  ppsOut    : Bool
  capAlarm  : Bool
  trip      : Bool
  smbAlert  : Bool
  xspiDriven : Bool
  xspiReset : Bool
  brnReset  : Bool
  fhActive  : List Nat
  rzActive  : List Nat
  mgActive  : Bool
  deriving DecidableEq, Repr

/-- Whether the transmitters of the ports are fed: neither POR, WARM, SAFE nor KEEP (R464); the start sequence counts as RUN (DESIGN CHOICE, log 39). -/
def State.portsFed (s : State) : Bool :=
  (s.boot.phase == .starting || s.boot.phase == .started) && s.g Reg.PWR_STS_STATE != 2

/-- The output balls (R464). -/
def State.balls (s : State) : Balls :=
  let por := s.boot.phase == .por
  let keep := s.g Reg.PWR_STS_STATE == 2
  { ppsOut := s.pps.outLevel
    capAlarm := s.on Reg.SYS_PIN_STS_CAP_ALARM
    trip := s.on Reg.SYS_PIN_STS_TRIP
    smbAlert := s.smbAlert
    xspiDriven := !por && !keep
    xspiReset := por || keep || (s.boot.phase == .warm || s.boot.phase == .starting) && decide (s.ticks < s.boot.warmAt + 10000)
    brnReset := por || (!keep && s.boot.phase != .started && !s.boot.barnOk)
    fhActive := if s.portsFed then (List.range 16).filter (fun l => s.linkInUse (.fh (Fin.ofNat 16 l)) && !(s.linkLanes (.fh (Fin.ofNat 16 l))).isEmpty) else []
    rzActive := if s.portsFed then (List.range 4).filter (fun p => s.g (Reg.RZ_Pp_STS_ROLE p) != 0 && s.linkInUse (.rz (Fin.ofNat 4 p))) else []
    mgActive := s.portsFed || s.boot.phase == .safe }

end Sys2Proof.Machine
end

