-- ==== Sys2Proof/Safety.lean ====
section
/-!
DEFINITION. What counts as a safe run: memory and registers in canonical form, crossing credits that add up, and no step that stops; and which commands reach a device held in reset.
-/
namespace Sys2Proof.Machine

open Sys2Proof (Instr Word Byte VType VecOp CoreRef SpecReg PassRep)

/-- The canonical form of a byte memory: addresses strictly rising, no entry equal to what an unlisted address reads as. -/
def Memory.wf (m : List Host.Cell) : Bool := swf (fun _ => 0) m

/-- A step that stops neither with a fault nor with a refusal. -/
def State.runs (s : State) : Prop := ∃ t, step s = .next t

/-- The crossings of a state (R23, R25): the queues listed have rising keys, and in each the items and the credits add up to its depth, and items are held only without a credit (R24). -/
def State.CreditsOk (s : State) : Prop :=
  srising 0 s.cross = true ∧ ∀ e ∈ s.cross, e.2.items.length + e.2.credits = xqDepth (e.1 / 32) ∧ (e.2.waiting ≠ [] → e.2.credits = 0)

/-- The counters that a register table gives the device once: the registers whose names end in _CNT (R12), the selected stall counter apart (R27). -/
def deviceCounters : List Fld :=
  [Reg.SYS_EVR_OVF_CNT, Reg.SYS_EVR_MIRROR_DROP_CNT, Reg.SYS_UNMAPPED_CNT, Reg.SYS_WR_IGN_CNT, Reg.MG_DROP_CNT, Reg.SYS_PPS_RUNT_CNT, Reg.SYS_PPS_EARLY_CNT] ++
  [Reg.SYS_CAPLIM_GLITCH_CNT, Reg.SYS_SD_FLAP_CNT, Reg.SMB_PEC_ERR_CNT, Reg.SMB_TIMEOUT_CNT, Reg.SEC_AUTH_FAIL_CNT, Reg.SEC_ZERO_CNT, Reg.PWR_BUBBLE_CNT] ++
  [Reg.PWR_SHED_CNT, Reg.PWR_DROOP_CNT, Reg.PWR_OP_ABANDON_CNT, Reg.PWR_THROTTLE_CNT, Reg.TIME_PPS_FAIL_CNT, Reg.FLT_TRANSIENT_CNT, Reg.FLT_PERM_CNT] ++
  [Reg.FLT_NONRET_CNT, Reg.FLT_HIST_OVF_CNT, Reg.FLT_TIMEOUT_CNT, Reg.FLT_WD_CNT, Reg.FLT_GLEAN_PASS_CNT, Reg.FLT_GLEAN_LATE_CNT, Reg.FLT_JRNL_WR_CNT] ++
  [Reg.FLT_JRNL_DROP_CNT, Reg.JOB_SLICE_OVR_CNT, Reg.JOB_SWITCH_CNT, Reg.JOB_REBIND_CNT, Reg.JOB_XACCESS_CNT, Reg.JOB_RX_ALLOC_CNT, Reg.JOB_RX_FALLBACK_CNT] ++
  [Reg.JOB_RX_NOREF_CNT, Reg.JOB_RX_LATE_CNT, Reg.JOB_RX_PLAN_REJ_CNT, Reg.JOB_RX_LATE_SECT_CNT, Reg.JOB_RX_STRAY_SECT_CNT, Reg.JOB_RX_ERASED_RE_CNT, Reg.JOB_RX_UNLOCK_CNT] ++
  [Reg.JOB_RX_LATE_MARK_CNT, Reg.JOB_RX_NORM_SAT_CNT, Reg.JOB_TX_ALLOC_CNT, Reg.JOB_TX_PLAN_REJ_CNT, Reg.JOB_TX_TB_LATE_CNT, Reg.JOB_TX_COMP_SAT_CNT, Reg.JOB_TRN_LABEL_CNT] ++
  [Reg.JOB_TRN_LABEL_SKIP_CNT, Reg.JOB_TRN_LABEL_DROP_CNT, Reg.JOB_TRN_SILO_FULL_CNT, Reg.JOB_TRN_SILO_BAD_CNT, Reg.JOB_TRN_PROMO_CNT, Reg.JOB_TRN_REJECT_CNT, Reg.JOB_TRN_ROLLBACK_CNT] ++
  [Reg.JOB_TRN_PERSIST_CNT, Reg.RZ_DROP_CNT, Reg.RZ_HOP_DROP_CNT, Reg.RZ_NOROUTE_CNT, Reg.RZ_RED_FAIL_CNT, Reg.RZ_BAR_LATE_CNT, Reg.RZ_PAIR_DIV_CNT] ++
  [Reg.GRN_CE_CNT, Reg.GRN_UE_CNT, Reg.GRN_WAKE_CNT, Reg.GRN_RMW_CNT, Reg.BRN_HIT_CNT, Reg.BRN_MISS_CNT, Reg.BRN_WB_CNT] ++
  [Reg.BRN_CE_CNT, Reg.BRN_UE_CNT, Reg.TEL_DROP_CNT]

/-- The counters of time domain `d`, job `j`, fronthaul port `p` and frond `f` (R12); ARR_PARITY_CNT, which its table makes RO, apart. -/
def indexedCounters : List Fld :=
  (List.range 2).flatMap (fun i => [Reg.TIME_d_REJ_CNT i, Reg.TIME_d_PTP_DROP_CNT i, Reg.TIME_d_SYNC_CNT i]) ++
  (List.range 16).flatMap (fun i => [Reg.JOB_jRESTART_CNT i]) ++
  (List.range 4).flatMap (fun i => [Reg.FH_P_RX_FRAME_CNT i, Reg.FH_P_RX_DROP_CNT i, Reg.FH_P_FCS_ERR_CNT i, Reg.FH_P_BAD_SECT_CNT i, Reg.FH_P_SEQ_GAP_CNT i, Reg.FH_P_DECOMP_SAT_CNT i]) ++
  (List.range 4).flatMap (fun i => [Reg.FH_P_CTL_BAD_CNT i, Reg.FH_P_TX_FRAME_CNT i, Reg.FH_P_LATE_LAUNCH_CNT i, Reg.FH_P_SHARE_HOLD_CNT i, Reg.FH_P_EGQ_FULL_CNT i]) ++
  (List.range 6).flatMap (fun i => [Reg.ARR_PASS_CNT i, Reg.ARR_STAT_HOLD_CNT i, Reg.ARR_BUBBLE_CNT i, Reg.ARR_LANE_WAIT_CNT i, Reg.VEC_CMD_CNT i, Reg.VEC_SAT_CNT i]) ++
  (List.range 6).flatMap (fun i => [Reg.VEC_OOR_CNT i, Reg.VEC_SUM_FULL_CNT i, Reg.SIG_OVF_CNT i, Reg.THR_TB_CNT i, Reg.THR_CB_CNT i, Reg.THR_ITER_CNT i]) ++
  (List.range 6).flatMap (fun i => [Reg.THR_ES_CNT i, Reg.THR_CB_CRC_FAIL_CNT i, Reg.THR_TB_CRC_FAIL_CNT i, Reg.THR_CB_ERASED_CNT i, Reg.THR_ENC_CB_CNT i, Reg.STR_OUTST_FULL_CNT i]) ++
  (List.range 6).flatMap (fun i => [Reg.STR_WAIT_WD_CNT i, Reg.STR_ACC_SHORT_CNT i, Reg.STR_SPILL_TILE_CNT i, Reg.STR_DESYNC_CNT i, Reg.STR_MC_DETACH_CNT i, Reg.STR_BALE_CNT i]) ++
  (List.range 6).flatMap (fun i => [Reg.LEAF_CE_CNT i, Reg.LEAF_UE_CNT i, Reg.LEAF_WIN_BUSY_CNT i, Reg.LEAF_WAKE_CNT i, Reg.LEAF_BANK_CONF_CNT i, Reg.LEAF_SAT_CNT i]) ++
  (List.range 6).flatMap (fun i => [Reg.LEAF_OVERRUN_CNT i, Reg.LEAF_NAN_CNT i, Reg.LEAF_SHIFT_LIM_CNT i]) ++
  (List.range 6).flatMap (fun f => (List.range 8).map (Reg.SIG_Cc_STALL_CNT f)) ++
  (List.range 6).flatMap (fun f => (List.range 8).map (Reg.SIG_Cc_BUSY_CNT f))

/-! ### The vector engine as the statements name it -/

/-- The command that runs on a frond's vector engine; an empty one where none does. -/
def State.vecRunOf (s : State) (f : Fin 6) : VecRun :=
  ((s.fr f).vec.run).getD ⟨[], 0, 0, Vector.replicate 8 0, Vector.replicate 4 0, Vector.replicate 8 0, Vector.replicate 16 0⟩

/-- A run moved on to the next instruction of its program, or to the next iteration. -/
def State.vecAfter (s : State) (f : Fin 6) (r : VecRun) : VecRun :=
  r.advance (match s.program f (cfield r.cmd 0 0 9) with | some ws => ws.length | none => 1)

/-- The lane-wise instructions that round a result (R176), with their OP. -/
def vecRoundCommands (f : Fin 6) : List (Instr × Nat) :=
  [(Instr.vecAdd f, 0x05), (Instr.vecSub f, 0x06), (Instr.vecMul f, 0x07), (Instr.vecFma f, 0x08), (Instr.vecScl f, 0x10), (Instr.vecCmul f, 0x1E)]

/-- Whether the spec states the result of an arithmetic operation on these operands: one is NaN (R180), or none is infinite. -/
def vecClosed (args : List Num) : Bool := args.any (fun x => x == .nan) || args.all (fun x => !x.isInf)

/-- The result of an arithmetic operation before its one rounding: NaN propagates (R180). -/
def vecExact (args : List Num) (res : Num) : Num := if args.any (fun x => x == .nan) then .nan else res

/-- The code of a value that an operation picks without rounding it: an infinity stays one (assumption log 5). -/
def vecTaken (o : VecOp) (x : Num) : Nat :=
  match vtFp o.ty, x with
  | some fmt, .inf n => fmt.infCode n
  | _, _ => (vtOf o.ty x).1

/-- The code that a special function gives a lane of a floating-point type; in another type the code stays (R180). -/
def vecFnCode (op : Nat) (o : VecOp) (c : Nat) : Nat := match vtFp o.ty with | some fmt => specialFn fmt op (vtCode o.ty) c | none => c

/-- What a reduction takes from a number: INT32, or FP32 for the FP types (R181). -/
def vecScalar (o : VecOp) (x : Num) : Word := BitVec.ofNat 32 (match x with
  | .inf n => fp32.infCode n
  | _ => if (vtFp o.ty).isSome then toF32 x else (vtOf .int32 x).1)

/-- The index that PERM reads for lane k (R179). -/
def vecPermIndex (r : VecRun) (o : VecOp) (k : Nat) : Nat :=
  if vtBytes o.ty = 1 ∧ 256 ≤ k then laneOf (r.t.get (Fin.ofNat 8 (o.b.val + 1))) 2 (k - 256) else laneOf (r.t.get o.b) 2 k

/-- A job that nothing but its own fault would restart: it exists and runs, and no adoption, pattern test or remedy waits. -/
abbrev State.plainJob (s : State) (j : Nat) : Prop :=
  (s.job j).bind.valid = true ∧ s.jst j = 1 ∧ s.adopt = none ∧ s.flt.tests = [] ∧ s.flt.perm = []

/-- A vector instruction that leaves the state as it was but for its own run. -/
abbrev State.vecOnly (s : State) (f : Fin 6) (t : State) : Prop := t = s.modVec f (fun v => { v with run := some (t.vecRunOf f) })

/-- A lane-wise instruction has given each lane of T(D) under the mask its code, the low bytes of it, and has changed nothing else but the run's place (R174 to R176). -/
abbrev State.vecWrote (s t : State) (f : Fin 6) (r : VecRun) (o : VecOp) (lane : Nat → Nat) : Prop :=
  s.vecOnly f t ∧ t.vecRunOf f = { s.vecAfter f r with t := (t.vecRunOf f).t } ∧ (∀ x, x ≠ o.d → (t.vecRunOf f).t.get x = r.t.get x) ∧
    ∀ k : Nat, k < 512 / vtBytes o.ty → laneOf ((t.vecRunOf f).t.get o.d) (vtBytes o.ty) k =
      (if r.masked o k then lane k % 2 ^ (8 * vtBytes o.ty) else laneOf (r.t.get o.d) (vtBytes o.ty) k)

/-- A comparison has given each bit of M(D) under the mask its value, and has changed nothing else but the run's place (R175, R176). -/
abbrev State.vecMasked (s t : State) (f : Fin 6) (r : VecRun) (o : VecOp) (bit : Num → Num → Bool) : Prop :=
  s.vecOnly f t ∧ t.vecRunOf f = { s.vecAfter f r with m := (t.vecRunOf f).m } ∧ (∀ x, x ≠ Fin.ofNat 4 o.d.val → (t.vecRunOf f).m.get x = r.m.get x) ∧
    ∀ k : Nat, k < 512 → ((t.vecRunOf f).m.get (Fin.ofNat 4 o.d.val)).getLsbD k =
      (if r.masked o k then bit (r.num o o.a k) (r.num o o.b k) else (r.m.get (Fin.ofNat 4 o.d.val)).getLsbD k)

/-- Whether S(D) takes an extreme that a reduction finds (R181): with IMM[0] = 0 always, else when S(D) is no number or the extreme beats it. -/
def vecBeats (o : VecOp) (r : VecRun) (greater : Bool) (x : Num) : Bool :=
  let h := scalarNum (vtFp o.ty).isSome (r.s.get o.d)
  !o.imm.getLsbD 0 || h == .nan || (if greater then h.lt x else x.lt h)

/-- A reduction has met the extreme x of lane k: S(D) takes it when it may, with an index S(D+1) takes iteration x VLEN + lane, and nothing else changes but the run's place (R181). -/
abbrev State.vecReduced (s t : State) (f : Fin 6) (r : VecRun) (o : VecOp) (greater index : Bool) (k : Nat) (x : Num) : Prop :=
  s.vecOnly f t ∧ t.vecRunOf f = { s.vecAfter f r with s := (t.vecRunOf f).s } ∧
    (∀ y, y ≠ o.d → (index = false ∨ y.val ≠ o.d.val + 1) → (t.vecRunOf f).s.get y = r.s.get y) ∧
    (vecBeats o r greater x = true → (t.vecRunOf f).s.get o.d = vecScalar o x ∧
      (index = true → (t.vecRunOf f).s.get (Fin.ofNat 8 (o.d.val + 1)) = BitVec.ofNat 32 (r.iter * r.vlen + k))) ∧
    (vecBeats o r greater x = false → (t.vecRunOf f).s = r.s)

/-! ### The signal cores as the statements name them -/

/-- A core executes the instruction word at its index, which is read without a poisoned word (R185, R194, R196, R303). -/
abbrev State.sigAt (s : State) (k : CoreRef) (o : SigOp) : Prop :=
  s.held = false ∧ s.coreRuns k = true ∧ s.sigWord k = o ∧ ((s.core k).cached.isNone && s.poisoned (s.sigAddr k) 8) = false

/-- It does so, and its move slots break no rule and load no poisoned word (R187, R188, R303). -/
abbrev State.sigGoes (s : State) (k : CoreRef) (o : SigOp) : Prop :=
  s.sigAt k o ∧ (sigMoves o).flatMap (fun m => moveBad (s.core k) m.1 m.2) = [] ∧ s.movePoison k (s.core k) (sigMoves o) = false

/-- The data registers that the load slots of an instruction write, with their values (R187, R188). -/
def State.sigLoads (s : State) (k : CoreRef) (o : SigOp) : List (Nat × Word) :=
  (sigMoves o).flatMap (fun m => if m.2.store then [] else s.moveLoad k m.2 (moveAddr (s.core k) m.2).1)

/-- Whether a store slot of an instruction writes a byte of memory (R187, R188). -/
def State.sigStores (s : State) (k : CoreRef) (o : SigOp) (a : Nat) : Bool :=
  (sigMoves o).any (fun m => m.2.store && decide (sigBase k.f.val k.c.val + (moveAddr (s.core k) m.2).1 ≤ a ∧
    a < sigBase k.f.val k.c.val + (moveAddr (s.core k) m.2).1 + moveBytes m.2.size))

/-- What an instruction of one core leaves: the jobs, the other cores, and all else of every frond. -/
abbrev State.sigSame (s t : State) (k : CoreRef) : Prop :=
  t.jobs = s.jobs ∧ (∀ (f : Fin 6) (c : Fin 8), (⟨f, c⟩ : CoreRef) ≠ k → t.core ⟨f, c⟩ = s.core ⟨f, c⟩) ∧
    ∀ f : Fin 6, { t.fr f with sig := (s.fr f).sig } = s.fr f

/-- A core with its data registers, pointers and program flow put back: what an instruction that only writes data registers leaves of it. -/
def SigCore.apart (y x : SigCore) : SigCore :=
  { y with d := x.d, p := x.p, pc := x.pc, delay := x.delay, reps := x.reps, cache := x.cache, held := x.held, recap := x.recap, di := x.di, atRep := x.atRep, stop := x.stop }

/-- The instructions that only write data registers (R189). -/
def sigValueCommands (k : CoreRef) (reg : SpecReg) (st : Nat) : List Instr :=
  [.sigCmul2 k false st, .sigCadd2 k false st, .sigCsub2 k false st, .sigAdd k false st, .sigSub k false st, .sigAnd k false st, .sigOr k false st] ++
  [.sigXor k false st, .sigShl k false st, .sigShr k false st, .sigMov k false st, .sigMovi k false st, .sigRcp k false st, .sigRsq k false st] ++
  [.sigMfs k false reg st, .sigRnda k false st]

/-- The data registers that such an instruction writes, with the values of R189 and R190. -/
def sigValues (c : Instr) (o : SigOp) (x : SigCore) : List (Nat × Word) :=
  let a := x.dr o.sa.val
  let b := x.dr o.sb.val
  let sh := o.imm.toNat % 32
  let one := fun (w : Word) => [(o.dd.val, w)]
  let two := fun (f : Int × Int → Int × Int → Int × Int) => (List.range 2).map (fun i =>
    let r := f (ci16 (x.dr (o.sa.val + i))) (ci16 (x.dr (o.sb.val + i)))
    ((o.dd.val + i) % 16, packCi r.1 r.2))
  match c with
  | .sigCmul2 .. => two (fun a b => (rneInt (cmulI (o.imm.getLsbD 5) a b).1 sh, rneInt (cmulI (o.imm.getLsbD 5) a b).2 sh))
  | .sigCadd2 .. => two (fun a b => (a.1 + b.1, a.2 + b.2))
  | .sigCsub2 .. => two (fun a b => (a.1 - b.1, a.2 - b.2))
  | .sigAdd .. => one (BitVec.ofInt 32 (satS 32 (a.toInt + b.toInt)))
  | .sigSub .. => one (BitVec.ofInt 32 (satS 32 (a.toInt - b.toInt)))
  | .sigAnd .. => one (a &&& b)
  | .sigOr .. => one (a ||| b)
  | .sigXor .. => one (a ^^^ b)
  | .sigShl .. => one (BitVec.ofInt 32 (satS 32 (a.toInt * 2 ^ sh)))
  | .sigShr .. => one (BitVec.ofInt 32 (rneInt a.toInt sh))
  | .sigMov .. => one a
  | .sigMovi .. => one (BitVec.signExtend 32 (BitVec.ofNat 12 (o.sb.val + 16 * o.imm.toNat)))
  | .sigRcp .. => one (if a.toNat % 65536 = 0 then 0x7FFFFFFF else BitVec.ofNat 32 (rneDiv (2 ^ 30) (a.toNat % 65536)))
  | .sigRsq .. => one (if a.toNat % 65536 = 0 then 0x7FFFFFFF else BitVec.ofNat 32 (rsq23 (a.toNat % 65536)))
  | .sigMfs _ _ reg _ => one (x.spec reg)
  | .sigRnda .. => one (packCi (rneInt (x.accRe.get (Fin.ofNat 4 o.sa.val)).toInt sh) (rneInt (x.accIm.get (Fin.ofNat 4 o.sa.val)).toInt sh))
  | _ => []

/-- Such an instruction has written its registers, has left every register that neither it nor a load names and all of the core but its program flow, goes on in sequence outside delay slots and repeats, and has counted its cycles (R187, R189, R195). -/
abbrev State.sigDone (s t : State) (k : CoreRef) (o : SigOp) (c : Instr) (cycles st : Nat) : Prop :=
  (∀ e ∈ sigValues c o (s.core k), (∀ l ∈ s.sigLoads k o, l.1 ≠ e.1) → (t.core k).dr e.1 = e.2) ∧
    (∀ i : Fin 16, (∀ e ∈ sigValues c o (s.core k), e.1 ≠ i.val) → (∀ e ∈ s.sigLoads k o, e.1 ≠ i.val) → (t.core k).d.get i = (s.core k).d.get i) ∧
    (t.core k).apart (s.core k) = s.core k ∧ ((s.core k).delay = none → (s.core k).reps = [] → (t.core k).pc = (s.core k).pc + 1) ∧
    t.g (Reg.SIG_Cc_BUSY_CNT k.f k.c) = min (s.g (Reg.SIG_Cc_BUSY_CNT k.f k.c) + (cycles + st)) 0xFFFFFFFF ∧
    t.g (Reg.SIG_Cc_STALL_CNT k.f k.c) = min (s.g (Reg.SIG_Cc_STALL_CNT k.f k.c) + st) 0xFFFFFFFF ∧ s.sigSame t k

/-- The two elements that a search compares, in the order in which it compares them (R191): signed halves for MAXI and MINI, numbered 0 and 1, |z|² of two registers for MAXM and MINM, numbered 2 and 3. -/
def searchElems (n : Nat) (o : SigOp) (x : SigCore) : Int × Int :=
  let z := ci16 (x.dr o.sa.val)
  let w := ci16 (x.dr (o.sa.val + 1))
  if n ≤ 1 then z else (z.1 * z.1 + z.2 * z.2, w.1 * w.1 + w.2 * w.2)

/-- The value held in D(DD), as the search compares it (R191). -/
def searchHeld (n : Nat) (o : SigOp) (x : SigCore) : Int := if n ≤ 1 then (x.dr o.dd.val).toInt else ((x.dr o.dd.val).toNat : Int)

/-- Whether a value is strictly better for the search (R191). -/
def searchBetter (n : Nat) (a b : Int) : Bool := if n % 2 = 0 then decide (b < a) else decide (a < b)

/-- What a search leaves in D(DD) and D(DD+1) (R191): each element that is strictly better than the value held replaces it, with its index. -/
def searchFound (n : Nat) (o : SigOp) (x : SigCore) : Word × Word :=
  let e := searchElems n o x
  let first := searchBetter n e.1 (searchHeld n o x)
  if searchBetter n e.2 (if first then e.1 else searchHeld n o x) then (BitVec.ofInt 32 e.2, x.ix + 1)
  else if first then (BitVec.ofInt 32 e.1, x.ix)
  else (x.dr o.dd.val, x.dr (o.dd.val + 1))

/-- A search has left its extreme and index, IX two further, every register that neither it nor a load names, and all else of the core but its program flow (R191). -/
abbrev State.sigFound (s t : State) (k : CoreRef) (o : SigOp) (n : Nat) : Prop :=
  (t.core k).ix = (s.core k).ix + 2 ∧ (t.core k).dr o.dd.val = (searchFound n o (s.core k)).1 ∧ (t.core k).dr (o.dd.val + 1) = (searchFound n o (s.core k)).2 ∧
    (∀ i : Fin 16, o.dd.val ≠ i.val → (o.dd.val + 1) % 16 ≠ i.val → (∀ e ∈ s.sigLoads k o, e.1 ≠ i.val) → (t.core k).d.get i = (s.core k).d.get i) ∧
    { (t.core k).apart (s.core k) with ix := (s.core k).ix } = s.core k ∧
    ((s.core k).delay = none → (s.core k).reps = [] → (t.core k).pc = (s.core k).pc + 1) ∧ s.sigSame t k

/-- A branch waits two instructions, then for its target when its condition held, and has changed no register that a load does not name and nothing else of the core (R192). -/
abbrev State.sigBranched (s t : State) (k : CoreRef) (o : SigOp) (tg : Option (BitVec 13)) : Prop :=
  (t.core k).delay = some ⟨2, tg, 0⟩ ∧ (t.core k).pc = (s.core k).pc + 1 ∧ (t.core k).apart (s.core k) = s.core k ∧
    (∀ i : Fin 16, (∀ e ∈ s.sigLoads k o, e.1 ≠ i.val) → (t.core k).d.get i = (s.core k).d.get i) ∧ s.sigSame t k

/-! ### The cube array as the statements name it -/

/-- The sum, or the streamed value, that block b of a pass brings to row r and column n of its region, applied to what the element held (R73 to R76, R89, R94); a block that a desync erases counts as zero (R158). -/
def State.passElem (s : State) (f : Fin 6) (g : PaneCfg) (c : PassCmd) (t : StatReg) (zero : Bool) (b r n old : Nat) : Nat :=
  let row := ((s.blockRows f c g.w (rowsOf c (s.paneH f g) b) b)[r]?).getD ([], [])
  if 2 ≤ c.op then ewElem c old (if zero then row.1.map (fun _ => 0#8) else row.1) row.2 n
  else
    let v := if zero then 0 else elemSum c ((kStep c.fmtS c.fmtT).getD 0) g.w row.1 row.2 t n
    if blockSets c b then v else accAdd c.fmtS old v

/-- Columns that a pass writes (R88, R94). -/
def passCols (c : PassCmd) : Nat := if 2 ≤ c.op then c.nValid else colsOf c

/-- An accumulator element after a pass: its blocks that reach the element, in order (R76, R80, R88), with desyncs at the blocks listed (R158). -/
def State.passAfter (s : State) (f : Fin 6) (g : PaneCfg) (c : PassCmd) (t : StatReg) (at_ : List Nat) (tile r n : Nat) : Nat :=
  (List.range c.blocks).foldl (fun old b =>
    if tileOf c b = tile ∧ 4 * g.i0 ≤ r ∧ r < 4 * g.i0 + rowsOf c (s.paneH f g) b ∧ 4 * g.j0 ≤ n ∧ n < 4 * g.j0 + passCols c then
      s.passElem f g c t (erased at_ b) b (r - 4 * g.i0) (n - 4 * g.j0) old else old) (s.ldN (accAddr f tile r n) 4)

/-- The shift maps of the block-scaled formats lie below the accumulators, as far as rows of the general store have shifts (R157). -/
abbrev State.mapsLow (s : State) (f : Fin 6) : Prop :=
  s.g (Reg.STR_BS_MAP_SB8 f) * 4096 + 0x30000 ≤ 0x600000 ∧ s.g (Reg.STR_BS_MAP_SB4 f) * 4096 + 0x60000 ≤ 0x600000

/-- What a pass that runs to its end has done, with desyncs at the blocks listed (R84, R88, R89, R91, R92, R94, R150, R158): the elements under its write mask, no other byte, its pane's queue and stationary registers, its tiles HELD, and nothing of the other panes, fronds and jobs. -/
abbrev State.passWrote (s t : State) (f : Fin 6) (p : Fin 32) (g : PaneCfg) (c : PassCmd) (q : List PassCmd) (r : StatReg) (at_ : List Nat) : Prop :=
  (∀ (k : Fin 128) (i m : Fin 64), t.ldN (accAddr f k i m) 4 = s.passAfter f g c r at_ k i m % 2 ^ 32) ∧
    (t.pane f p).queue = q ∧ (t.pane f p).ran = (s.pane f p).ran ++ [c] ∧
    (c.op < 2 → (t.pane f p).cur = some r) ∧ (2 ≤ c.op → (t.pane f p).cur = (s.pane f p).cur) ∧
    (t.pane f p).loaded = (if c.op < 2 ∧ c.newstat = true then (s.pane f p).loaded.tail else (s.pane f p).loaded) ∧
    (∀ i, i ≠ p → t.pane f i = s.pane f i) ∧ (∀ i, i ≠ f → t.fr i = s.fr i) ∧ t.jobs = s.jobs ∧
    (∀ k ∈ passTiles c, t.g (Reg.STR_TILEt_STATE f k) = 1) ∧
    (∀ b : Nat, b < c.blocks → erased at_ b = true → t.g (Reg.STR_TILEt_ERASED f (tileOf c b)) = 1) ∧
    ∀ a : Nat, (a < leafBase f + 0x600000 ∨ leafBase f + 0x800000 ≤ a ∨ (passTiles c).contains ((a - leafBase f - 0x600000) / 0x4000) = false) → t.ld1 a = s.ld1 a

/-- The pass commands of the array, by OP (R89, R94). -/
def passCommands (f : Fin 6) (p : Fin 32) (rep : PassRep) : List (Instr × Nat) :=
  [(Instr.passMmAcc f p rep, 0), (Instr.passMmSet f p rep, 1), (Instr.passEwMul f p rep, 2), (Instr.passEwAdd f p rep, 3)]

/-- The head command of a pane, with the stationary it runs with: one loaded for a new pass, the current one for a continued one, none for an element-wise one (R84, R91, R92). -/
abbrev State.passHead (s : State) (f : Fin 6) (p : Fin 32) (g : PaneCfg) (c : PassCmd) (q : List PassCmd) (t : StatReg) : Prop :=
  (s.pane f p).cfg = some g ∧ (s.pane f p).queue = c :: q ∧ (s.pane f p).stopped = false ∧
    (c.op < 2 → c.newstat = true → (s.pane f p).loaded.head? = some t) ∧ (c.op < 2 → c.newstat = false → (s.pane f p).cur = some t)

/-! ### Streams as the statements name them -/

/-- The head descriptor of a stream, of a kind, at a place of its list, may issue as far as its stream goes: no error of its own, its turn where DET = 1, LBAR met, room in flight, its wait met (R132, R135, R138, R162, R164). -/
abbrev State.issues (s : State) (f : Fin 6) (n : Fin 32) (kind j pos : Nat) (d : BitVec 256) : Prop :=
  s.held = false ∧ s.headOf f n [kind] = some (j, pos, d) ∧ s.descStatic j (some (s.job j).bind.channels) (some n.val) d = 0 ∧
    s.detTurn f n = false ∧ (dLbar d = true → (s.strm f n).flight = []) ∧ (s.strm f n).flight.length < 16 ∧ s.semReady f n d = true

/-- A stream has issued its head descriptor: it runs on at the next place, with the descriptor in flight, and is the stream of its frond served last (R162). -/
abbrev State.issued (s t : State) (f : Fin 6) (n : Fin 32) (pos : Nat) (x : Flight) : Prop :=
  t.strSt f n = 1 ∧ t.g (Reg.STR_Sn_POS f n) = (pos + 1) % 2 ^ 23 ∧ (t.strm f n).fetched = (s.strm f n).fetched.tail ∧ (t.strm f n).flight = (s.strm f n).flight ++ [x] ∧
    (t.fr f).served = n.val

/-- The flight of a transfer at issue: done, with the requests that it keeps in its pools (R144). -/
def State.xferFlight (s : State) (f : Fin 6) (pos : Nat) (d : BitVec 256) : Flight :=
  let rows := xferRows d (s.tns f (dfield d 64 6)) (s.tns f (dfield d 70 6))
  { mkFlight d pos true with req1 := s.reqHeld f d rows 1, reqB := s.reqHeld f d rows 2 }

/-! ### The receiver as the statements name it -/

/-- A slot that has started and whose D(n) has not passed, the only one known with its index, its allocations told apart by their INDEX. -/
abbrev State.rxOpen (s : State) (x : RxSlot) : Prop :=
  s.rx.slots.filter (fun y => y.idx == x.idx) = [x] ∧ x.edge = true ∧ x.ended = false ∧ (x.allocs.map (fun a => a.index)).Nodup

/-- Nothing waits for its launch time at the port that reaches the MAC, so a control message queued there starts no late section. -/
abbrev State.macQuiet (s : State) : Prop := (s.fhp (linkPort (s.g Reg.FH_MAC_CFG))).launch = []

end Sys2Proof.Machine

namespace Sys2Proof

/-- The commands that act while the device is held in POR (R459 to R463, R413, R414): pins, supplies, straps, and the sensors of the always-on island. -/
def Instr.reachesPor : Instr → Bool
  | .porAssert | .porRelease .. | .warmNAssert | .warmNRelease | .railLow _ | .railRecovered | .xoInLoss | .xoInRegain | .wakeNEdge
  | .caplimNChange .. | .refInLoss | .refInRegain | .laneSignalDetectChange .. | .thermalSample _ => true
  | _ => false

/-- The commands that act while the device is held in WARM: those, the JTAG port (R448) and the SMBus target (R55). -/
def Instr.reachesHeld (c : Instr) : Bool :=
  c.reachesPor || (match c with
    | .jtagTrst | .bypass | .idcode | .samplePreload _ | .extest _ | .clamp | .highz | .dbgMbox _ => true
    | .smbIdent _ | .smbStatus _ | .smbTemp _ | .smbPower _ | .smbCapRead _ | .smbCapWrite .. | .smbAlarmsRead _ | .smbAlarmsClear ..
    | .smbEvents _ | .smbUnknownCommand _ | .smbAlertResponse | .smbTimeout => true
    | _ => false)

end Sys2Proof
end

