-- ==== Sys2Proof/Certificates/Slice0/Obligations.lean ====
section
/-!
DEFINITION. The statements for the provers: the machine as a block, its families of commands, its kinds of state.
-/

open Sys2Proof Sys2Proof.Machine


/-- For every command c and state s, a step of s with c at the front of its queue is exec of c on s with the queue's rest. -/
def Obligations.StepRunsFrontCommand : Prop :=
  ∀ (c : Instr) (rest : List Instr) (s : State), step { s with pending := c :: rest } = exec c { s with pending := rest }

/-- No command stops: for every state and every command, exec answers a next state and leaves the queue as it was, so that a step leaves exactly the rest of the queue; a step with no command waiting answers a next state with an empty queue. While the device is held in POR or WARM, a command that is not one of the pins, the JTAG port or the SMBus target leaves the whole state as it is; in POR the JTAG and SMBus commands leave it too, except that the crossings are empty. That no command is refused, and that one which meets a held device or whose preconditions do not hold is lost, is the model's choice (assumption log 1). -/
def Obligations.EveryStepAnswersAndPopsQueue : Prop :=
  (∀ (c : Instr) (s : State), ∃ t, exec c s = .next t ∧ t.pending = s.pending) ∧
  (∀ (s : State) (c : Instr) (rest : List Instr), s.pending = c :: rest → ∃ t, step s = .next t ∧ t.pending = rest) ∧
  (∀ s : State, s.pending = [] → ∃ t, step s = .next t ∧ t.pending = []) ∧
  (∀ (c : Instr) (s : State), s.held = true → c.reachesHeld = false → exec c s = .next s) ∧
  (∀ (c : Instr) (s : State), s.boot.phase = .por → c.reachesPor = false → ∃ t, exec c s = .next t ∧ { t with cross := s.cross } = s)

/-- The invariant CreditsOk (the listed queues of the crossings have rising keys; in each the items in the queue and the credits of its producer add up to the depth of R25, and the producer holds items only without a credit) is kept by every step, whatever the command. A queue that no command has touched starts empty with one credit for each entry. An item of a source that fits its crossing is sent for one credit and becomes the last item of the queue; without a credit the producer holds it behind what it holds already. A return takes the oldest item and gives its credit back; if the producer holds items, the next one is sent with that credit: the first held, but on the request queue of a lane island to the fabric an item of the thresher and one of the movers in turn while both wait (R241). -/
def Obligations.CrossingCreditsKeptByEveryStep : Prop :=
  (∀ s t : State, s.CreditsOk → step s = .next t → t.CreditsOk) ∧
  (∀ (s : State) (q : XqRef), s.CreditsOk → xqExists q.cross q.inst = true → (s.xq q).items.length + (s.xq q).credits = xqDepth q.cross) ∧
  (∀ (s : State) (q : XqRef), s.cross = [] → s.xq q = ⟨[], [], xqDepth q.cross, .other⟩) ∧
  (∀ (s : State) (q : XqRef) (src : XqSrc) (b : List Byte) (n : Nat), s.held = false → xqExists q.cross q.inst = true → itemFits q.cross b = true →
    ∃ t, exec (.crossingItemArrival q src b n) s = .next t ∧ t.xq q =
      if 0 < (s.xq q).credits then { s.xq q with items := (s.xq q).items ++ [b], credits := (s.xq q).credits - 1, last := src }
      else { s.xq q with waiting := (s.xq q).waiting ++ [(src, b)] }) ∧
  (∀ (s : State) (q : XqRef) (n : Nat), s.held = false → xqExists q.cross q.inst = true → 0 < (s.xq q).items.length → (s.xq q).waiting = [] →
    ∃ t, exec (.crossingCreditReturn q n) s = .next t ∧
      t.xq q = { s.xq q with items := (s.xq q).items.drop 1, credits := (s.xq q).credits + 1 }) ∧
  (∀ (s : State) (q : XqRef) (n : Nat) (w : XqSrc × List Byte), s.held = false → xqExists q.cross q.inst = true → 0 < (s.xq q).items.length →
    (s.xq q).waiting[(s.xq q).nextHeld (laneQueue q)]? = some w →
    ∃ t, exec (.crossingCreditReturn q n) s = .next t ∧
      t.xq q = { s.xq q with items := (s.xq q).items.drop 1 ++ [w.2], waiting := (s.xq q).waiting.eraseIdx ((s.xq q).nextHeld (laneQueue q)), last := w.1 }) ∧
  (∀ c : Crossing, c.nextHeld false = 0) ∧
  (∀ (c : Crossing) (b : List Byte) (l : List (XqSrc × List Byte)) (k : Nat), c.last = .thresher → c.waiting = (.thresher, b) :: l →
    l.findIdx? (fun x => x.1 == .mover) = some k → c.nextHeld true = k + 1)

/-- State.reset satisfies CreditsOk, and its memory and register maps are in canonical form. -/
def Obligations.CrossingCreditsHoldAtReset : Prop :=
  State.reset.CreditsOk ∧ Memory.wf State.reset.mem = true ∧ swf regReset State.reset.regs = true

/-- POR_ASSERT: whatever the state, the device is in POR with every register at its reset value, memory empty and no image; fuses, flash and the queue stay. POR_RELEASE: from POR the straps are sampled and shown, and the start sequence begins, or waits in WARM while WARM_N is low. WARM_N_ASSERT and RAIL_LOW: a device outside POR and WARM is in WARM, with no image, every job gone, the crossings empty, the counters of both time domains at their reset values; flash stays, and a rail sets its LOW_STK bit. WARM_N_RELEASE and RAIL_RECOVERED: from WARM the start sequence runs again when no other cause (the other of the two inputs, or the temperature) holds the device. The output balls are as R464 tables them in POR, on entry to WARM, in SAFE and in KEEP. -/
def Obligations.ResetInputsActAsSpecified : Prop :=
  (∀ s : State, ∃ t, exec .porAssert s = .next t ∧ t.boot.phase = .por ∧ t.regs = [] ∧ t.mem = [] ∧ t.image = none ∧ t.fuses = s.fuses ∧
    t.flash = s.flash ∧ t.pending = s.pending ∧ t.balls = ⟨false, false, false, false, false, true, true, [], [], false⟩) ∧
  (∀ (s : State) (m : Bool) (a : BitVec 3), s.boot.phase = .por → ∃ t, exec (.porRelease m a) s = .next t ∧
    t.boot.phase = (if s.boot.warmN then .starting else .warm) ∧ t.boot.porN = true ∧ t.g Reg.SYS_PIN_STS_TEST_MODE = b2n m ∧
    t.g Reg.SYS_PIN_STS_SMB_ADDR = a.toNat ∧ t.mem = s.mem) ∧
  (∀ s : State, s.held = false → ∃ t, exec .warmNAssert s = .next t ∧ t.boot.phase = .warm ∧ t.boot.warmN = false ∧ t.image = none ∧
    t.jobs = Vector.replicate 16 Job.none ∧ t.domA = Domain.reset ∧ t.domB = Domain.reset ∧ t.cross = [] ∧ t.flash = s.flash ∧
    t.balls.ppsOut = false ∧ t.balls.capAlarm = false ∧ t.balls.trip = false ∧ t.balls.xspiDriven = true ∧ t.balls.brnReset = true ∧ t.balls.fhActive = [] ∧ t.balls.rzActive = [] ∧ t.balls.mgActive = false) ∧
  (∀ s : State, s.boot.phase = .warm → s.boot.warmCause = false → s.boot.hotWait = false →
    ∃ t, exec .warmNRelease s = .next t ∧ t.boot.phase = .starting ∧ t.boot.warmN = true ∧ t.g Reg.SYS_PIN_STS_WARM_N = 1 ∧
      t.fuses = s.fuses ∧ t.flash = s.flash) ∧
  (∀ (s : State) (r : Fin 8), s.held = false → ∃ t, exec (.railLow r) s = .next t ∧ t.boot.phase = .warm ∧ t.boot.warmCause = true ∧
    (t.g Reg.SYS_RAIL_STS_LOW_STK).testBit r = true ∧ t.image = none ∧ t.jobs = Vector.replicate 16 Job.none ∧ t.flash = s.flash) ∧
  (∀ s : State, s.boot.phase = .warm → s.boot.warmN = true → s.boot.hotWait = false →
    ∃ t, exec .railRecovered s = .next t ∧ t.boot.phase = .starting ∧ t.boot.warmCause = false ∧ t.g Reg.SYS_RAIL_STS_OK = 255 ∧
      t.fuses = s.fuses ∧ t.flash = s.flash) ∧
  (∀ s : State, s.boot.phase ≠ .por → s.g Reg.PWR_STS_STATE = 2 → s.balls.xspiDriven = false ∧ s.balls.xspiReset = true ∧ s.balls.brnReset = false ∧ s.balls.fhActive = [] ∧ s.balls.rzActive = []) ∧
  (∀ s : State, s.boot.phase = .safe → s.balls.fhActive = [] ∧ s.balls.rzActive = [] ∧ s.balls.mgActive = true)

/-- XO_IN and REF_IN show their presence, REF_IN also in TIME_STS; a stable CAPLIM_N level is taken and shown, a glitch counts once; CAPLIM_LONG raises its event once, after more than 10 s; a WAKE_N edge in HOLD or KEEP starts the return to RUN; a PPS_IN runt, an early edge and a stuck pulse are judged as such, a first accepted edge is kept; a second of 1.1 s without an edge ends bad and counts in the run; a filtered signal detect is kept, a flap counts once; a loss of alignment waits for its judgement 10 ms later, which removes it: a lane whose detect has fallen is charged nothing, one that still detects is charged a fault, transient with a history entry, or permanent and its lane retired when it is the second within 86,400 s; a link whose lanes all detect, none retired and its port powered, comes up; TRST puts the TAP in Test-Logic-Reset. -/
def Obligations.PinLevelsAreTakenAndShown : Prop :=
  (∀ s : State, s.boot.phase ≠ .por → ∃ t, exec .xoInLoss s = .next t ∧ t.boot.xoOk = false ∧ t.g Reg.SYS_PIN_STS_XO_OK = 0 ∧ t.mem = s.mem) ∧
  (∀ s : State, s.boot.phase ≠ .por → ∃ t, exec .xoInRegain s = .next t ∧ t.boot.xoOk = true ∧ t.g Reg.SYS_PIN_STS_XO_OK = 1 ∧ t.mem = s.mem) ∧
  (∀ s : State, s.held = false → ∃ t, exec .refInLoss s = .next t ∧ t.boot.refOk = false ∧ t.g Reg.SYS_PIN_STS_REF_PRESENT = 0 ∧ t.g Reg.TIME_STS_REF = 0) ∧
  (∀ s : State, s.held = false → ∃ t, exec .refInRegain s = .next t ∧ t.boot.refOk = true ∧ t.g Reg.SYS_PIN_STS_REF_PRESENT = 1 ∧ t.g Reg.TIME_STS_REF = 1) ∧
  (∀ (s : State) (low : Bool), s.boot.phase ≠ .por → ∃ t, exec (.caplimNChange low true) s = .next t ∧ t.boot.caplimN = !low ∧
    t.g Reg.SYS_PIN_STS_CAPLIM_N = b2n (!low)) ∧
  (∀ (s : State) (low : Bool), s.boot.phase ≠ .por → ∃ t, exec (.caplimNChange low false) s = .next t ∧ t.boot = s.boot ∧
    t.g Reg.SYS_CAPLIM_GLITCH_CNT = min (s.g Reg.SYS_CAPLIM_GLITCH_CNT + 1) 0xFFFFFFFF) ∧
  (∀ s : State, s.held = false → s.boot.caplimN = false → s.boot.longRaised = false → s.boot.caplimAt + 10000000000 < s.ticks → ∃ t, exec .caplimLong s = .next t ∧
    t.boot.longRaised = true ∧ t.g Reg.SYS_EVR_SEQ = (s.g Reg.SYS_EVR_SEQ + 1) % 2 ^ 32) ∧
  (∀ s : State, s.boot.phase = .started → s.g Reg.PWR_STS_STATE ≠ 0 → s.pwr.trans = none → s.pwr.tripped = false →
    ∃ t, exec .wakeNEdge s = .next t ∧ t.pwr.trans = some ⟨0, 2⟩ ∧ t.g Reg.SYS_PIN_STS_WAKE_N = 0) ∧
  (∀ (s : State) (w : Nat), s.held = false → w < 20 → ∃ t, exec (.ppsInEdge w) s = .next t ∧ t.pps.runtNow = true ∧
    t.g Reg.SYS_PPS_RUNT_CNT = min (s.g Reg.SYS_PPS_RUNT_CNT + 1) 0xFFFFFFFF ∧ t.pps.lastEdge = s.pps.lastEdge) ∧
  (∀ (s : State) (w : Nat), s.held = false → 20 ≤ w → w ≤ 100000000 → s.pps.lastEdge = none →
    ∃ t, exec (.ppsInEdge w) s = .next t ∧ t.pps.lastEdge = some s.ticks) ∧
  (∀ (s : State) (w k : Nat), s.held = false → 20 ≤ w → w ≤ 100000000 → s.pps.lastEdge = some k → s.ticks - k < 900000000 →
    ∃ t, exec (.ppsInEdge w) s = .next t ∧ t.pps.lastEdge = some k ∧ t.g Reg.SYS_PPS_EARLY_CNT = min (s.g Reg.SYS_PPS_EARLY_CNT + 1) 0xFFFFFFFF) ∧
  (∀ (s : State) (w : Nat), s.held = false → 100000000 < w → ∃ t, exec (.ppsInEdge w) s = .next t ∧ t.pps.stuckNow = true ∧ t.pps.lastEdge = s.pps.lastEdge) ∧
  (∀ s : State, s.held = false → s.pps.lastEdge.getD 0 + 1100000000 ≤ s.ticks → ∃ t, exec .ppsSecondEnd s = .next t ∧ t.pps.badRun = s.pps.badRun + 1 ∧ t.pps.goodRun = 0 ∧
    (s.pps.badRun = 2 → t.g Reg.TIME_STS_PPS_OK = 0 ∧ t.g Reg.TIME_PPS_FAIL_CNT = min (s.g Reg.TIME_PPS_FAIL_CNT + 1) 0xFFFFFFFF)) ∧
  (∀ (s : State) (l : Fin 33) (v : Bool), s.boot.phase ≠ .por → ∃ t, exec (.laneSignalDetectChange l v true) s = .next t ∧ (t.lanes.get l).detect = v) ∧
  (∀ (s : State) (l : Fin 33) (v : Bool), s.boot.phase ≠ .por → ∃ t, exec (.laneSignalDetectChange l v false) s = .next t ∧ t.lanes = s.lanes ∧
    t.g Reg.SYS_SD_FLAP_CNT = min (s.g Reg.SYS_SD_FLAP_CNT + 1) 0xFFFFFFFF) ∧
  (∀ (s : State) (l : Fin 33), s.held = false → ∃ t, exec (.laneAlignmentLoss l) s = .next t ∧ (t.lanes.get l).lossAt = some s.ticks ∧
    t.linkUp (s.laneLink l) = false) ∧
  (∀ (s : State) (l : Fin 33) (k : Nat), s.held = false → (s.lanes.get l).lossAt = some k → k + 10000000 ≤ s.ticks → (s.lanes.get l).detect = false →
    ∃ t, exec (.laneFaultJudge l) s = .next t ∧ (t.lanes.get l).lossAt = none ∧ t.flt = s.flt) ∧
  (∀ (s : State) (l : Fin 33) (k : Nat), s.held = false → (s.lanes.get l).lossAt = some k → k + 10000000 ≤ s.ticks → (s.lanes.get l).detect = true → l.val < 32 →
    (∀ e ∈ s.flt.hist, e.loc = locCode 5 15 l → 86400 ≤ s.g Reg.FLT_UPTIME - e.first) →
    ∃ t, exec (.laneFaultJudge l) s = .next t ∧ (t.lanes.get l).lossAt = none ∧ t.g Reg.FLT_TRANSIENT_CNT = min (s.g Reg.FLT_TRANSIENT_CNT + 1) 0xFFFFFFFF ∧
      (∃ e ∈ t.flt.hist, e.loc = locCode 5 15 l ∧ e.first = s.g Reg.FLT_UPTIME) ∧ t.g Reg.FLT_LANE_RET = s.g Reg.FLT_LANE_RET) ∧
  (∀ (s : State) (l : Fin 33) (k : Nat), s.held = false → (s.lanes.get l).lossAt = some k → k + 10000000 ≤ s.ticks → (s.lanes.get l).detect = true → l.val < 32 →
    (s.flt.hist.find? (fun e => e.loc == locCode 5 15 l)).any (fun e => decide (s.g Reg.FLT_UPTIME - e.first < 86400)) = true →
    ∃ t, exec (.laneFaultJudge l) s = .next t ∧ (t.lanes.get l).lossAt = none ∧ t.g Reg.FLT_PERM_CNT = min (s.g Reg.FLT_PERM_CNT + 1) 0xFFFFFFFF ∧
      (t.g Reg.FLT_LANE_RET).testBit l.val = true ∧ (∀ e ∈ t.flt.hist, e.loc ≠ locCode 5 15 l)) ∧
  (∀ (s : State) (k : LinkRef), s.held = false → s.g Reg.PWR_STS_STATE ≠ 2 → (k = .mg ∨ s.boot.phase ≠ .safe) →
    (∀ p, k = .rz p → s.g (Reg.RZ_Pp_STS_ROLE p) ≠ 0) → s.linkLanes k ≠ [] → s.linkInUse k = true →
    (∀ l ∈ s.linkLanes k, (s.lanes.get l).detect = true) → ∃ t, exec (.linkTrainingComplete k) s = .next t ∧ t.linkUp k = true) ∧
  (∀ s : State, s.boot.phase ≠ .por → ∃ t, exec .jtagTrst s = .next t ∧ t.sec.jtagIr = 1 ∧ t.sec.tlr = true ∧ t.regs = s.regs ∧ t.mem = s.mem)

/-- While the device starts: a passed self test is kept, a failed one enters SAFE; a supported flash gives its size (two slots of 3/8 each), any other enters SAFE; the directory is shown and, at start, the slot chosen from it (in SAFE it is shown: the copy in use, or the states NEW and slot A preferred when no copy is valid); a section that passes its checks joins the image, one that fails falls back with its event; the memory test replaces a failing bank by the first free spare; the barn gives FITTED and USABLE = 7/8 of it, a failed training enters SAFE; firmware starts jobs once sections, memory and barn are there; an image confirmed after 10 s of running is GOOD and preferred in the directory; a waiting fuse write is made when fuses may be written. -/
def Obligations.StartSequenceCommandsAct : Prop :=
  (∀ s : State, s.boot.phase = .starting → ∃ t, exec (.securitySelftestDone 0) s = .next t ∧ t.boot.selfOk = true ∧ t.boot.phase = .starting ∧
    t.regs = s.regs ∧ t.mem = s.mem) ∧
  (∀ (s : State) (r : Fin 5), s.boot.phase = .starting → r ≠ 0 → ∃ t, exec (.securitySelftestDone r) s = .next t ∧ t.boot.phase = .safe) ∧
  (∀ (s : State) (i : SfdpInfo), s.boot.phase = .starting → sfdpOk i = true → ∃ t, exec (.flashSfdpRead (some i)) s = .next t ∧
    t.boot.flashOk = true ∧ t.flashSize = i.mbit * 131072 ∧ t.slotSize = i.mbit * 131072 * 3 / 8 ∧ t.mem = s.mem) ∧
  (∀ (s : State) (i : SfdpInfo), s.boot.phase = .starting → sfdpOk i = false → ∃ t, exec (.flashSfdpRead (some i)) s = .next t ∧ t.boot.phase = .safe) ∧
  (∀ s : State, s.boot.phase = .starting → ∃ t, exec (.flashSfdpRead none) s = .next t ∧ t.boot.phase = .safe) ∧
  (∀ s : State, s.boot.phase = .starting → s.boot.flashOk = true → s.boot.selfOk = true → s.boot.dirOk = false →
    exec .directoryRead s = .next (s.settle (s.dirShow.slotChoice))) ∧
  (∀ s : State, s.boot.phase = .safe → s.boot.flashOk = true → match s.dirUse with
      | none => (∃ t, exec .directoryRead s = .next t ∧
          t.g Reg.IMG_SLOT_STS_STATE_A = 1 ∧ t.g Reg.IMG_SLOT_STS_STATE_B = 1 ∧ t.g Reg.IMG_SLOT_STS_PREF = 0 ∧ t.g Reg.IMG_DIR_GEN = 0)
      | some d => (∃ t, exec .directoryRead s = .next t ∧ t.g Reg.IMG_SLOT_STS_STATE_A = byteAt d.2 4 ∧ t.g Reg.IMG_SLOT_STS_STATE_B = byteAt d.2 5 ∧
          t.g Reg.IMG_SLOT_STS_PREF = b2n (byteAt d.2 6 == 1) ∧ t.g Reg.IMG_DIR_GEN = le d.2 0 4)) ∧
  (∀ (s : State) (im : Image) (x : SecExtra), s.boot.phase = .starting → s.image = some im → s.boot.loaded < im.count →
    s.boot.memOk = false → s.boot.barnOk = false → match s.addSection im s.boot.loaded x with
      | .ok (_, j) => (∃ t, exec (.sectionLoaded x) s = .next t ∧ t.image = some j ∧ t.boot.loaded = s.boot.loaded + 1)
      | .error e => exec (.sectionLoaded x) s = .next (s.settle ((s.ev e.1 0x02 e.2).bootFail e.1))) ∧
  (∀ s : State, s.boot.phase = .starting → s.boot.memOk = false → s.image = none → ∃ t, exec (.memoryTestDone [] []) s = .next t ∧
    t.boot.memOk = true ∧ t.regs = s.regs ∧ t.mem = s.mem) ∧
  (∀ (s : State) (b : Fin 1024) (k : Nat), s.boot.phase = .starting → s.boot.memOk = false → s.image = none → s.bank b ≠ 3 →
    s.boot.ringKept.map ringBankOf ≠ some b.val → s.freeSpare = some k →
    ∃ t, exec (.memoryTestDone [b] []) s = .next t ∧ t.boot.memOk = true ∧ t.g (Reg.GRN_SPAREs_BANK k) = b.val ∧ t.g (Reg.GRN_SPAREs_USED k) = 1) ∧
  (∀ (s : State) (n : Nat) (c : Fin 2), s.boot.phase = .starting → s.boot.barnOk = false → s.image = none → barnPart n = true →
    ∃ t, exec (.barnTrainingDone ⟨true, c, n, n⟩) s = .next t ∧ t.boot.barnOk = true ∧ t.g Reg.BRN_CFG_FITTED = 2 * n ∧
      t.g Reg.BRN_CFG_USABLE = 2 * n * 7 / 8 ∧ t.mem = s.mem) ∧
  (∀ (s : State) (n m : Nat) (c : Fin 2), s.boot.phase = .starting → s.boot.barnOk = false →
    ∃ t, exec (.barnTrainingDone ⟨false, c, n, m⟩) s = .next t ∧ t.boot.phase = .safe) ∧
  (∀ (s : State) (im : Image), s.boot.phase = .starting → s.image = some im → s.boot.loaded = im.count → s.boot.dirOk = true →
    s.boot.memOk = true → s.boot.barnOk = true → ∃ t, exec .firmwareStart s = .next t ∧ t.boot.phase = .started) ∧
  (∀ (s : State) (im : Image) (n : Nat), s.boot.phase = .started → s.g Reg.PWR_STS_STATE = 0 → s.boot.confirmed = false → s.image = some im →
    s.boot.runAt + 10000000000 ≤ s.ticks → im.hdr 16 4 ≤ s.fuses.arb → ∃ t, exec (.imageConfirm n) s = .next t ∧ t.boot.confirmed = true ∧ t.flash = (s.markPrefer im.slot 3).flash ∧
      t.fuses = s.fuses ∧ t.mem = s.mem) ∧
  (∀ (s : State) (d : FuseDue) (ds : List FuseDue) (n : Nat), s.held = false → s.fuses.due = d :: ds → s.canFuse = true →
    exec (.fuseWriteResume n) s = .next (s.settle (({ s with fuses := { s.fuses with due := ds } }).fuseWrite d n)))

/-- A frame of a foreign EtherType, of another class, or not from the set peer is dropped and counted (a PTP frame is not, but goes to the time island); an opcode that is no request is answered UNSUPPORTED, another VER is answered VERSION. With the link up, VER 1 and a payload in order: IDENT_GET answers 32 bytes that begin with the identity registers; CERT_GET answers the piece asked for; REG_READ answers the payload and the values read, REG_WRITE writes each value and answers the first 8 bytes; CAP_SET takes a cap of 240 to 720 and refuses any other with RANGE; WARM_RESET is answered and makes the reset due, which then occurs; TELEMETRY queues its sample, or counts a drop when there is no room. Each answer is OPCODE + 0x8000 with the request's SEQ. -/
def Obligations.ManagementRequestsAreAnswered : Prop :=
  (∀ (s : State) (x : MgIn), s.held = false → s.mg.up = true → x.etherType = 0x88B5 → x.cls ≠ 2 → ∃ t, exec (.mgFrameDrop x) s = .next t ∧
    t.g Reg.MG_DROP_CNT = min (s.g Reg.MG_DROP_CNT + 1) 0xFFFFFFFF ∧ t.mg = s.mg ∧ t.mem = s.mem) ∧
  (∀ (s : State) (x : MgIn), s.held = false → s.mg.up = true → x.etherType ≠ 0x88B5 → x.etherType ≠ 0x88F7 →
    ∃ t, exec (.mgFrameDrop x) s = .next t ∧ t.g Reg.MG_DROP_CNT = min (s.g Reg.MG_DROP_CNT + 1) 0xFFFFFFFF ∧ t.mg = s.mg) ∧
  (∀ (s : State) (x : MgIn), s.held = false → s.mg.up = true → x.etherType = 0x88B5 → s.g64 Reg.MG_PEER_MAC_LO Reg.MG_PEER_MAC_HI ≠ 0 →
    x.src.toNat ≠ s.g64 Reg.MG_PEER_MAC_LO Reg.MG_PEER_MAC_HI → ∃ t, exec (.mgFrameDrop x) s = .next t ∧
    t.g Reg.MG_DROP_CNT = min (s.g Reg.MG_DROP_CNT + 1) 0xFFFFFFFF ∧ t.mg = s.mg) ∧
  (∀ (s : State) (x : MgIn), s.held = false → s.mg.up = true → x.etherType = 0x88F7 → ptpAddr x.dst = true →
    exec (.mgFrameDrop x) s = .next (s.settle s)) ∧
  (∀ (s : State) (op : BitVec 16) (r : MgReq), s.held = false → s.mg.up = true → op.toNat ∉ mgRequests →
    exec (.mgUnsupportedRequest op r) s = .next (s.settle (s.mgAnswer op.toNat r.seq (if r.ver = 1 then 1 else 2) []))) ∧
  (∀ (s : State) (r : MgReq), s.held = false → s.mg.up = true → r.ver ≠ 1 →
    ∃ t, exec (.identGet r) s = .next t ∧ t.mg.queue = s.mg.queue ++ [⟨0x8001, r.seq.toNat, 2, []⟩]) ∧
  (∀ (s : State) (r : MgReq), s.held = false → s.mg.up = true → r.ver = 1 → r.payload = [] → ∃ t p, exec (.identGet r) s = .next t ∧
    t.mg.queue = s.mg.queue ++ [⟨0x8001, r.seq.toNat, 0, p⟩] ∧ p.length = 32 ∧ p.take 20 = s.identBytes ∧ t.regs = s.regs ∧ t.mem = s.mem) ∧
  (∀ (s : State) (r : MgReq) (k : Nat), s.held = false → s.mg.up = true → r.ver = 1 → k < ceilDiv s.fuses.cert.length 1024 → k < 65536 →
    r.payload = toLE 2 k ++ [0, 0] → ∃ t, exec (.certGet r) s = .next t ∧ t.mg.queue = s.mg.queue ++ [⟨0x8002, r.seq.toNat, 0,
      toLE 2 k ++ toLE 2 (ceilDiv s.fuses.cert.length 1024) ++ toLE 4 s.fuses.cert.length ++ (s.fuses.cert.drop (1024 * k)).take 1024⟩] ∧ t.mem = s.mem) ∧
  (∀ (s : State) (r : MgReq), s.held = false → s.mg.up = true → r.ver = 1 → r.payload.length = 8 → regSpan r.payload = true →
    exec (.regRead r) s = .next (s.settle ((s.readRun (le r.payload 4 4) (byteAt r.payload 0)).2.mgAnswer 0x0012 r.seq 0
      (r.payload ++ (s.readRun (le r.payload 4 4) (byteAt r.payload 0)).1)))) ∧
  (∀ (s : State) (r : MgReq), s.boot.phase = .started → s.mg.up = true → r.ver = 1 → r.payload.length = 8 + 4 * byteAt r.payload 0 →
    regSpan r.payload = true → exec (.regWrite r) s = .next (s.settle ((s.writeRun (le r.payload 4 4) (r.payload.drop 8)
      (byteAt r.payload 0)).mgAnswer 0x0013 r.seq 0 (r.payload.take 8)))) ∧
  (∀ (s : State) (r : MgReq), s.boot.phase = .started → s.mg.up = true → r.ver = 1 → r.payload.length = 4 → zeroRange r.payload 2 2 = true →
    240 ≤ le r.payload 0 2 → le r.payload 0 2 ≤ 720 → s.pwr.sheds = [] → s.pwr.hold = false → ∃ t, exec (.capSet r) s = .next t ∧
    t.g Reg.PWR_CAP = le r.payload 0 2 ∧ t.mg.queue = s.mg.queue ++ [⟨0x8020, r.seq.toNat, 0, []⟩]) ∧
  (∀ (s : State) (r : MgReq), s.boot.phase = .started → s.mg.up = true → r.ver = 1 → (le r.payload 0 2 < 240 ∨ 720 < le r.payload 0 2) →
    ∃ t, exec (.capSet r) s = .next t ∧ t.regs = s.regs ∧ t.mg.queue = s.mg.queue ++ [⟨0x8020, r.seq.toNat, 4, []⟩]) ∧
  (∀ (s : State) (r : MgReq), s.held = false → s.mg.up = true → r.ver = 1 → r.payload = [] → ∃ t, exec (.warmReset r) s = .next t ∧
    t.boot.warmDue = true ∧ t.boot.phase = s.boot.phase ∧ t.mg.queue = s.mg.queue ++ [⟨0x8070, r.seq.toNat, 0, []⟩] ∧ t.mem = s.mem) ∧
  (∀ s : State, s.held = false → s.boot.warmDue = true → s.boot.warmN = true → s.boot.warmCause = false → sx 16 (s.g Reg.PWR_TEMP_T) < 800 →
    ∃ t, exec .deferredWarm s = .next t ∧ t.boot.phase = .starting ∧ t.boot.warmDue = false ∧ t.image = none ∧ t.flash = s.flash) ∧
  (∀ s : State, s.held = false → if s.mgRoom then (∃ t, exec .telemetry s = .next t ∧
      t.mg.queue = s.mg.queue ++ [⟨0x0010, s.mg.devSeq.toNat, 0, s.telPayload⟩] ∧ t.mg.devSeq = s.mg.devSeq + 1 ∧ t.mem = s.mem)
    else (∃ t, exec .telemetry s = .next t ∧ t.mg = s.mg ∧ t.g Reg.TEL_DROP_CNT = min (s.g Reg.TEL_DROP_CNT + 1) 0xFFFFFFFF))

/-- With the link up, the device started, VER 1 and no adoption under way: SLOT_OPEN of a slot that is not running makes it EMPTY in the directory and open; SLOT_WRITE puts its bytes into the open slot; SLOT_COMMIT closes the slot as NEW with OK or as BAD with VERIFY by the checks of R47; SLOT_PREFER prefers a NEW or GOOD slot; JOB_REBIND with a payload in range is scheduled; IMG_ADOPT of a NEW slot that needs no full start is under way; its check, when it passes, orders the jobs, and ends the adoption with its event when it fails; the next job then restarts under the new image once AT is reached and a slot boundary is there, never before; an undoing restarts its next job likewise; POWER_STATE starts its transition. Each is answered with OPCODE + 0x8000, the request's SEQ and OK (SLOT_COMMIT: OK or VERIFY). -/
def Obligations.SlotAndAdoptionRequestsAct : Prop :=
  (∀ (s : State) (r : MgReq) (k : Fin 2), s.held = false → s.mg.up = true → r.ver = 1 → r.payload = [BitVec.ofNat 8 k.val, 0, 0, 0] → s.adopting = false →
    s.flashSize ≠ 0 → s.runSlot ≠ some k → ∃ t, exec (.slotOpen r) s = .next t ∧ t.openSlot = some ⟨k, []⟩ ∧ t.flash = (s.markSlot k 0).flash ∧
    t.g Reg.IMG_SLOT_STS_OPEN = 1 ∧ t.g Reg.IMG_SLOT_STS_OPEN_SLOT = k.val ∧ t.mem = s.mem ∧
    t.mg.queue = s.mg.queue ++ [⟨0x8040, r.seq.toNat, 0, toLE 1 k.val ++ zeros 3 ++ toLE 4 s.slotSize⟩]) ∧
  (∀ (s : State) (r : MgReq) (o : OpenSlot), s.held = false → s.mg.up = true → r.ver = 1 → s.adopting = false → s.openSlot = some o →
    r.payload.length = 8 + le r.payload 4 2 → 1 ≤ le r.payload 4 2 → le r.payload 4 2 ≤ 1024 → zeroRange r.payload 6 2 = true →
    le r.payload 0 4 + le r.payload 4 2 ≤ s.slotSize → ∃ t, exec (.slotWrite r) s = .next t ∧
    (∀ i, i < le r.payload 4 2 → t.fl1 (s.slotBase o.slot + le r.payload 0 4 + i) = r.payload.getD (8 + i) 0) ∧ t.regs = s.regs ∧ t.mem = s.mem ∧
    t.mg.queue = s.mg.queue ++ [⟨0x8041, r.seq.toNat, 0, r.payload.take 8⟩]) ∧
  (∀ (s : State) (r : MgReq) (o : OpenSlot) (l : List SecExtra), s.held = false → s.mg.up = true → r.ver = 1 → r.payload = [] →
    s.adopting = false → s.openSlot = some o → match s.checkSlot o.slot l with
      | .ok _ => (∃ t, exec (.slotCommit r l) s = .next t ∧ t.openSlot = none ∧ t.flash = (s.markSlot o.slot 1).flash ∧ t.mem = s.mem ∧
          t.mg.queue = s.mg.queue ++ [⟨0x8042, r.seq.toNat, 0, toLE 1 o.slot.val ++ toLE 1 1 ++ toLE 2 0⟩])
      | .error e => (∃ t q, exec (.slotCommit r l) s = .next t ∧ t.openSlot = none ∧ t.g Reg.SYS_EVR_SEQ = (s.g Reg.SYS_EVR_SEQ + 1) % 2 ^ 32 ∧
          t.mg.queue = q ++ [⟨0x8042, r.seq.toNat, if e.1 = 0 then 0 else 7, toLE 1 o.slot.val ++ toLE 1 4 ++ toLE 2 e.1⟩])) ∧
  (∀ (s : State) (r : MgReq) (k : Fin 2), s.held = false → s.mg.up = true → r.ver = 1 → r.payload = [BitVec.ofNat 8 k.val, 0, 0, 0] → s.adopting = false →
    s.flashSize ≠ 0 → (s.slotState k = 1 ∨ s.slotState k = 3) → ∃ t, exec (.slotPrefer r) s = .next t ∧ t.flash = (s.preferSlot k).flash ∧
    t.mg.queue = s.mg.queue ++ [⟨0x8043, r.seq.toNat, 0, []⟩] ∧ t.mem = s.mem) ∧
  (∀ (s : State) (r : MgReq), s.boot.phase = .started → s.mg.up = true → r.ver = 1 → s.rebindBad r.payload = false → s.g Reg.PWR_STS_STATE = 0 →
    s.pwr.trans = none → s.rebind = none → s.zeroLock = false → s.adopting = false → ∃ t, exec (.jobRebind r) s = .next t ∧
    t.rebind = some ⟨le r.payload 4 8, le r.payload 12 4, s.rebindRecs r.payload, (s.rebindRecs r.payload).map (fun x => x.1)⟩ ∧
    t.jobs = s.jobs ∧ t.mem = s.mem ∧ t.mg.queue = s.mg.queue ++ [⟨0x8050, r.seq.toNat, 0, []⟩]) ∧
  (∀ (s : State) (r : MgReq) (im : Image), s.boot.phase = .started → s.mg.up = true → r.ver = 1 → s.image = some im → r.payload.length = 12 →
    s.atOk s.isMember (le r.payload 0 8) (le r.payload 8 4) = true → s.adopting = false → s.slotState (otherSlot im.slot) = 1 → s.zeroLock = false →
    s.needsFull (s.readHead (otherSlot im.slot)) = false → ∃ t, exec (.imgAdopt r) s = .next t ∧
    t.adopt = some ⟨s.readHead (otherSlot im.slot), le r.payload 0 8, le r.payload 8 4, false, false, [], [], []⟩ ∧
    t.g Reg.IMG_SLOT_STS_ADOPT = 1 ∧ t.jobs = s.jobs ∧ t.mem = s.mem ∧ t.mg.queue = s.mg.queue ++ [⟨0x8051, r.seq.toNat, 0, []⟩]) ∧
  (∀ (s : State) (a : Adopt) (l : List SecExtra), s.held = false → s.adopt = some a → a.checked = false → s.adoptOrder ≠ [] →
    match s.adoptCheck a.image.slot l with
      | .ok im => (∃ t, exec (.imgAdoptCheckDone l) s = .next t ∧ t.adopt =
          some { a with image := im, checked := true, todo := s.adoptOrder, done := s.jobOrder.filter (fun j => s.jst j == 4 || s.jst j == 5), idle := s.jobOrder.filter (fun j => s.jst j == 4 || s.jst j == 5) })
      | .error _ => (∃ t, exec (.imgAdoptCheckDone l) s = .next t ∧ t.adopt = none ∧ t.g Reg.IMG_SLOT_STS_ADOPT = 0 ∧ t.jobs = s.jobs)) ∧
  (∀ (s : State) (a : Adopt) (j : Nat) (js : List Nat), s.held = false → s.undo = none → s.adopt = some a → a.checked = true → a.todo = j :: js →
    s.jobNums.all (fun j => s.jst j != 3) = true → s.slotBoundary = true → s.atReached s.isMember a.atSec a.atNs = true →
    s.isMember = false → (({ s with adopt := some { a with started := true, todo := js, done := a.done ++ [j] } }).adoptJob j true).jst j ≠ 5 →
    exec .imgAdoptJobRestart s =
      .next (s.settle (({ s with adopt := some { a with started := true, todo := js, done := a.done ++ [j] } }).adoptJob j true))) ∧
  (∀ (s : State) (u : Undo) (j : Nat) (js : List Nat), s.held = false → s.undo = some u → u.left = j :: js →
    s.jobNums.all (fun j => s.jst j != 3) = true → s.slotBoundary = true →
    exec .imgAdoptJobRestart s = .next (s.settle (s.undoNext u j js))) ∧
  (∀ (s : State) (a : Adopt), s.held = false → s.undo = none → s.adopt = some a →
    (a.checked = false ∨ s.slotBoundary = false ∨ s.atReached s.isMember a.atSec a.atNs = false) →
    exec .imgAdoptJobRestart s = .next (s.settle s)) ∧
  (∀ (s : State) (r : MgReq) (k : Nat), s.boot.phase = .started → s.mg.up = true → r.ver = 1 → k ≤ 2 → r.payload = toLE 1 k ++ zeros 15 →
    s.adopting = false → s.rebind = none → k ≠ s.g Reg.PWR_STS_STATE → s.pwr.trans = none → s.pwr.tripped = false → s.sec.zero = none →
    s.sec.zeroised = false → ∃ t q, exec (.powerState r) s = .next t ∧ t.pwr.trans = some ⟨k, 0⟩ ∧
    t.mg.queue = q ++ [⟨0x8071, r.seq.toNat, 0, []⟩])

/-- Outside POR, with no or a right packet error code: IDENT answers the 20 identity bytes; STATUS, TEMP, POWER, CAP, ALARMS and EVENTS answer their word, little-endian; a write of CAP from 240 to 720 is taken, any other is NACKed and changes nothing but the log of answers; a write of ALARMS clears the bits written 1 and releases SMB_ALERT_N once none is left; a command byte above 0x06 is NACKed. A wrong packet error code is NACKed and counted, and the command has no other effect. The Alert Response is answered with the target's address (assumption log 18) and releases SMB_ALERT_N. A timeout counts. None of them writes memory. -/
def Obligations.SmbusTargetAnswers : Prop :=
  (∀ (s : State) (p : Option Bool), s.boot.phase ≠ .por → p ≠ some false →
    (∃ t, exec (.smbIdent p) s = .next t ∧ t.smbOut = s.smbOut ++ [some s.identBytes] ∧ t.regs = s.regs ∧ t.mem = s.mem) ∧
    (∃ t, exec (.smbStatus p) s = .next t ∧ t.smbOut = s.smbOut ++ [some (toLE 2 s.statusWord)] ∧ t.regs = s.regs ∧ t.mem = s.mem) ∧
    (∃ t, exec (.smbTemp p) s = .next t ∧ t.smbOut = s.smbOut ++ [some (toLE 2 (s.g Reg.PWR_TEMP_T))] ∧ t.regs = s.regs ∧ t.mem = s.mem) ∧
    (∃ t, exec (.smbPower p) s = .next t ∧ t.smbOut = s.smbOut ++ [some (toLE 2 (s.g Reg.PWR_POWER / 4))] ∧ t.regs = s.regs ∧ t.mem = s.mem) ∧
    (∃ t, exec (.smbCapRead p) s = .next t ∧ t.smbOut = s.smbOut ++ [some (toLE 2 (s.g Reg.PWR_CAP))] ∧ t.regs = s.regs ∧ t.mem = s.mem) ∧
    (∃ t, exec (.smbAlarmsRead p) s = .next t ∧ t.smbOut = s.smbOut ++ [some (toLE 2 s.smbAlarms.toNat)] ∧ t.regs = s.regs ∧ t.mem = s.mem) ∧
    (∃ t, exec (.smbEvents p) s = .next t ∧
      t.smbOut = s.smbOut ++ [some (toLE 2 ((s.g Reg.SYS_EVR_WR_IDX + 4096 - s.g Reg.SYS_EVR_RD_IDX) % 4096))] ∧ t.regs = s.regs ∧ t.mem = s.mem)) ∧
  (∀ (s : State) (v : BitVec 16) (p : Option Bool), s.boot.phase ≠ .por → p ≠ some false → 240 ≤ v.toNat → v.toNat ≤ 720 → s.pwr.sheds = [] →
    s.pwr.hold = false → ∃ t, exec (.smbCapWrite v p) s = .next t ∧ t.smbOut = s.smbOut ++ [some []] ∧ t.g Reg.PWR_CAP = v.toNat ∧ t.mem = s.mem) ∧
  (∀ (s : State) (v : BitVec 16) (p : Option Bool), s.boot.phase ≠ .por → p ≠ some false → (v.toNat < 240 ∨ 720 < v.toNat) →
    ∃ t, exec (.smbCapWrite v p) s = .next t ∧ t.smbOut = s.smbOut ++ [none] ∧ t.regs = s.regs ∧ t.mem = s.mem) ∧
  (∀ (s : State) (m : Byte) (p : Option Bool), s.boot.phase ≠ .por → p ≠ some false → ∃ t, exec (.smbAlarmsClear m p) s = .next t ∧
    (∀ b : Fin 5, t.smbAlarms.getLsbD b = (s.smbAlarms.getLsbD b && !m.getLsbD b)) ∧
    t.smbAlert = (s.smbAlert && t.smbAlarms != 0) ∧ t.smbOut = s.smbOut ++ [some []] ∧ t.regs = s.regs ∧ t.mem = s.mem) ∧
  (∀ (s : State) (c : Byte), s.boot.phase ≠ .por → 6 < c.toNat → ∃ t, exec (.smbUnknownCommand c) s = .next t ∧
    t.smbOut = s.smbOut ++ [none] ∧ t.regs = s.regs ∧ t.mem = s.mem) ∧
  (∀ s : State, s.boot.phase ≠ .por → s.smbAlert = true → ∃ t, exec .smbAlertResponse s = .next t ∧ t.smbAlert = false ∧
    t.smbOut = s.smbOut ++ [some (toLE 1 (2 * (0x58 + s.boot.smbAddr.toNat)))] ∧ t.smbAlarms = s.smbAlarms ∧ t.regs = s.regs) ∧
  (∀ s : State, s.boot.phase ≠ .por → ∃ t, exec .smbTimeout s = .next t ∧
    t.g Reg.SMB_TIMEOUT_CNT = min (s.g Reg.SMB_TIMEOUT_CNT + 1) 0xFFFFFFFF ∧ t.smbOut = s.smbOut ∧ t.mem = s.mem) ∧
  (∀ (s : State) (c : Instr), s.boot.phase ≠ .por → c ∈ [.smbIdent (some false), .smbStatus (some false), .smbTemp (some false), .smbPower (some false),
    .smbCapRead (some false), .smbCapWrite 300 (some false), .smbAlarmsRead (some false), .smbAlarmsClear 0xFF (some false), .smbEvents (some false)] →
    ∃ t, exec c s = .next t ∧ t.smbOut = s.smbOut ++ [none] ∧ t.smbAlarms = s.smbAlarms ∧ t.g Reg.PWR_CAP = s.g Reg.PWR_CAP ∧
      t.g Reg.SMB_PEC_ERR_CNT = min (s.g Reg.SMB_PEC_ERR_CNT + 1) 0xFFFFFFFF)

/-- Outside POR: BYPASS, IDCODE and SAMPLE/PRELOAD are loaded in every life-cycle state, IDCODE shifts out 0x2716_022B, and SAMPLE/PRELOAD loads the boundary cells; EXTEST, CLAMP and HIGHZ are loaded while the scope BSCAN is open, else BYPASS is loaded in their place; one DBG_MBOX update moves a word into the mailbox and a word of the response out (0 when there is none). None of them changes a register of the register map or memory. -/
def Obligations.JtagInstructionsLoad : Prop :=
  (∀ s : State, s.boot.phase ≠ .por → ∃ t, exec .bypass s = .next t ∧ t.sec.jtagIr = 0 ∧ t.readOut = s.readOut ∧ t.regs = s.regs ∧ t.mem = s.mem) ∧
  (∀ s : State, s.boot.phase ≠ .por → ∃ t, exec .idcode s = .next t ∧ t.sec.jtagIr = 1 ∧ t.readOut = s.readOut ++ [0x2716022B] ∧ t.regs = s.regs ∧ t.mem = s.mem) ∧
  (∀ (s : State) (l : List Bool), s.boot.phase ≠ .por → ∃ t, exec (.samplePreload l) s = .next t ∧ t.sec.jtagIr = 2 ∧ t.sec.bscan = l ∧ t.regs = s.regs ∧ t.mem = s.mem) ∧
  (∀ (s : State) (l : List Bool), s.boot.phase ≠ .por → s.scopes.getLsbD 3 = true → ∃ t, exec (.extest l) s = .next t ∧ t.sec.jtagIr = 3 ∧ t.sec.bscan = l ∧ t.regs = s.regs ∧ t.mem = s.mem) ∧
  (∀ s : State, s.boot.phase ≠ .por → s.scopes.getLsbD 3 = true → ∃ t, exec .clamp s = .next t ∧ t.sec.jtagIr = 4 ∧ t.sec.bscan = s.sec.bscan ∧ t.regs = s.regs ∧ t.mem = s.mem) ∧
  (∀ s : State, s.boot.phase ≠ .por → s.scopes.getLsbD 3 = true → ∃ t, exec .highz s = .next t ∧ t.sec.jtagIr = 5 ∧ t.regs = s.regs ∧ t.mem = s.mem) ∧
  (∀ (s : State) (l : List Bool) (c : Instr), s.boot.phase ≠ .por → s.scopes.getLsbD 3 = false → c ∈ [.extest l, .clamp, .highz] →
    ∃ t, exec c s = .next t ∧ t.sec.jtagIr = 0 ∧ t.sec.bscan = s.sec.bscan ∧ t.regs = s.regs ∧ t.mem = s.mem) ∧
  (∀ (s : State) (w : Word), s.boot.phase ≠ .por → ∃ t, exec (.dbgMbox w) s = .next t ∧ t.sec.mboxIn = s.sec.mboxIn ++ [w] ∧
    t.sec.mboxOut = s.sec.mboxOut.tail ∧ t.readOut = s.readOut ++ [s.sec.mboxOut.headD 0] ∧ t.regs = s.regs ∧ t.mem = s.mem)

/-- With the link up, VER 1, a payload in order and the power and start state serving debug: CHALLENGE_GET stores the 32 bytes it answers; a certificate that fails a check of R446 is refused, counted, reported and answered with its status, its challenge used up, and nothing opens; one that passes clears the run of failures and acts by its KIND; DEBUG_CLOSE ends a session; KEY_WRITE over MG is DENIED and over JTAG in SEALED fuses a free key slot or waits; a reserved sub-operation is answered RANGE. The end of a session, of a challenge (60 s) and of a lockout clear them, at their time and not before. A finished zeroisation has cleared key RAM, shows ZEROISED, is counted, and makes a WARM reset due; flash stays. -/
def Obligations.DebugUnlockCommandsAct : Prop :=
  (∀ (s : State) (r : MgReq), s.held = false → s.mg.up = true → r.ver = 1 → r.payload = [1, 0, 0, 0] → s.dbgState = true →
    ∃ t c, exec (.challengeGet .mg r) s = .next t ∧ c.length = 32 ∧ t.sec.chal = some (c, s.ticks) ∧ t.regs = s.regs ∧ t.mem = s.mem ∧
      t.mg.queue = s.mg.queue ++ [⟨0x8060, r.seq.toNat, 0, c ++ toLE 8 s.fuses.uid.toNat ++ toLE 1 s.fuses.life ++
        Config.ecdsaSign (c ++ toLE 8 s.fuses.uid.toNat ++ toLE 1 s.fuses.life)⟩]) ∧
  (∀ (s : State) (r : MgReq) (n : Nat), s.held = false → s.mg.up = true → r.ver = 1 → r.payload.length = 196 → r.payload.take 4 = [2, 0, 0, 0] →
    if s.certCheck (r.payload.drop 4) = 0 then (certKind (r.payload.drop 4) = 0 → s.zeroFirst (certScope (r.payload.drop 4)) = false →
      ∃ t, exec (.certSubmit .mg r n) s = .next t ∧ t.sec.chal = none ∧ t.sec.failRun = 0 ∧ t.fuses = s.fuses ∧ t.sec.session =
        some { certSession .mg (r.payload.drop 4) with until_ := some (s.ticks + certDur (r.payload.drop 4) * 1000000000) })
    else (∃ t q, exec (.certSubmit .mg r n) s = .next t ∧ t.sec.chal = none ∧ t.sec.session = s.sec.session ∧
      t.sec.failRun = s.sec.failRun + 1 ∧ t.fuses = s.fuses ∧ t.g Reg.SEC_AUTH_FAIL_CNT = min (s.g Reg.SEC_AUTH_FAIL_CNT + 1) 0xFFFFFFFF ∧
      t.mg.queue = q ++ [⟨0x8060, r.seq.toNat, reasonStatus (s.certCheck (r.payload.drop 4)), []⟩])) ∧
  (∀ (s : State) (r : MgReq) (x : Session), s.held = false → s.mg.up = true → r.ver = 1 → r.payload = [3, 0, 0, 0] → s.sec.session = some x →
    ∃ t q, exec (.debugClose .mg r) s = .next t ∧ t.sec.session = none ∧ t.sec.halted = [] ∧ t.mg.queue = q ++ [⟨0x8060, r.seq.toNat, 0, []⟩]) ∧
  (∀ (s : State) (r : MgReq) (n : Nat), s.held = false → s.mg.up = true → r.ver = 1 → r.payload.length = 104 → r.payload.take 8 = [4, 0, 0, 0, 1, 0, 0, 0] →
    s.dbgState = true → ∃ t, exec (.keyWrite .mg r n) s = .next t ∧ t.fuses = s.fuses ∧ t.mg.queue = s.mg.queue ++ [⟨0x8060, r.seq.toNat, 5, []⟩]) ∧
  (∀ (s : State) (r : MgReq) (k : Fin 3) (n : Nat), s.held = false → r.payload.length = 104 → r.payload.take 8 = [4, 0, 0, 0, BitVec.ofNat 8 (k.val + 1), 0, 0, 0] →
    s.dbgState = true → s.fuses.life = 1 → s.fuses.slots.get (k.succ) = none → s.canFuse = true → 768 ≤ n →
    ∃ t, exec (.keyWrite .jtag r n) s = .next t ∧ t.fuses.slots.get (k.succ) = some (r.payload.drop 8) ∧ t.fuses.life = 1 ∧ t.mem = s.mem) ∧
  (∀ (s : State) (r : MgReq), s.held = false → s.mg.up = true → r.ver = 1 → exec (.debugUnlockReserved .mg r) s =
    .next (s.settle (s.mgAnswer 0x0060 r.seq 4 []))) ∧
  (∀ (s : State) (x : Session) (e : Nat), s.held = false → s.sec.session = some x → x.until_ = some e → if e ≤ s.ticks then
      (∃ t, exec .debugSessionExpiry s = .next t ∧ t.sec.session = none ∧
        t.sec.halted = [] ∧ t.g Reg.SEC_DBG_STS_OPEN = 0 ∧ t.g Reg.SYS_EVR_SEQ = (s.g Reg.SYS_EVR_SEQ + 1) % 2 ^ 32)
    else exec .debugSessionExpiry s = .next (s.settle s)) ∧
  (∀ (s : State) (c : List Byte) (t0 : Nat), s.held = false → s.sec.chal = some (c, t0) → ∃ t, exec .challengeExpiry s = .next t ∧
    t.sec = (if s.ticks < t0 + 60000000000 then s.sec else { s.sec with chal := none }) ∧ t.regs = s.regs ∧ t.mem = s.mem) ∧
  (∀ s : State, s.held = false → ∃ t, exec .lockoutEnd s = .next t ∧
    t.sec = (if s.ticks < s.sec.lockEnd then s.sec else { s.sec with lockEnd := 0 }) ∧ t.regs = s.regs ∧ t.mem = s.mem) ∧
  (∀ (s : State) (z : Zeroise), s.held = false → s.sec.zero = some z → z.open_ = none → ∃ t, exec .zeroiseComplete s = .next t ∧ t.sec.zero = none ∧
    t.sec.zeroised = true ∧ t.sec.keysGone = true ∧ t.boot.warmDue = true ∧ t.g Reg.SEC_DBG_STS_ZEROISED = 1 ∧
    t.g Reg.SEC_ZERO_CNT = min (s.g Reg.SEC_ZERO_CNT + 1) 0xFFFFFFFF ∧ t.flash = s.flash)

/-- Every register whose name ends in _CNT is one 32-bit field of access code RC, ARR_PARITY_CNT excepted, whose table makes it RO. Raising one by n adds n and stops at 0xFFFF_FFFF, and changes no other register; the stall counters that TEL_XQ_STALL_CNT reads stop there too. A read by the management agent gives the value and leaves the counter 0. -/
def Obligations.CountersStopAndReadClears : Prop :=
  (∀ F : Fld, F ∈ Reg.TEL_XQ_STALL_CNT :: (deviceCounters ++ indexedCounters) → F.lo = 0 ∧ F.width = 32 ∧
    ∃ r c, regSpecAt F.addr = some r ∧ r.fields = [⟨0, 32, .rc, 0, c⟩]) ∧
  (∀ f : Fin 6, ∃ r, regSpecAt (Reg.ARR_PARITY_CNT f).addr = some r ∧ r.fields = [⟨0, 32, .ro, 0, .por⟩]) ∧
  (∀ (s : State) (F : Fld) (n : Nat), F ∈ deviceCounters ++ indexedCounters →
    (s.addc F n).g F = min (s.g F + n) 0xFFFFFFFF ∧ (s.addc F n).g F < 2 ^ 32 ∧ ∀ a, a ≠ F.addr → (s.addc F n).reg a = s.reg a) ∧
  (∀ (s : State) (f : Fin 6) (n : Nat), (s.addc (Reg.ARR_PARITY_CNT f) n).g (Reg.ARR_PARITY_CNT f) = min (s.g (Reg.ARR_PARITY_CNT f) + n) 0xFFFFFFFF) ∧
  (∀ (s : State) (q : XqRef) (n : Nat), (sget 0 (s.stallXq q n).stalls (xqKey q.cross q.inst q.queue)).toNat =
    min ((sget 0 s.stalls (xqKey q.cross q.inst q.queue)).toNat + n) 0xFFFFFFFF) ∧
  (∀ (s : State) (F : Fld), s.held = false → F ∈ deviceCounters ++ indexedCounters → ∃ t, exec (.rcCounterRead ⟨0x70, BitVec.ofNat 48 F.addr, 4⟩) s = .next t ∧
    t.readOut = s.readOut ++ [s.reg F.addr] ∧ t.g F = 0 ∧ t.mem = s.mem ∧ ∀ a, a ≠ F.addr → t.reg a = s.reg a)

/-- Each queue of each crossing has a stall counter of its own. TEL_XQ_SEL names a queue: CROSS is the row of R25, 0 to 8; INST the frond 0 to 5 for rows 0 to 2, the port 0 to 3 for rows 3 and 4, 0 for rows 5 to 8; QUEUE one of four. A read of TEL_XQ_STALL_CNT gives the counter of that queue and clears that counter only; with CROSS or INST naming nothing it gives 0 and clears nothing. A write to TEL_XQ_SEL changes no counter. -/
def Obligations.SelectedStallCounterReadsAndClears : Prop :=
  (∀ c i : Nat, c < 16 → i < 8 → (xqExists c i = true ↔ (c ≤ 2 ∧ i ≤ 5) ∨ ((c = 3 ∨ c = 4) ∧ i ≤ 3) ∨ (5 ≤ c ∧ c ≤ 8 ∧ i = 0))) ∧
  (∀ (s : State) (g : Byte), s.held = false → s.agentJob g.toNat = none → xqExists (s.g Reg.TEL_XQ_SEL_CROSS) (s.g Reg.TEL_XQ_SEL_INST) = true →
    ∃ t, exec (.telXqStallRead g) s = .next t ∧
      t.readOut = s.readOut ++ [sget 0 s.stalls (xqKey (s.g Reg.TEL_XQ_SEL_CROSS) (s.g Reg.TEL_XQ_SEL_INST) (s.g Reg.TEL_XQ_SEL_QUEUE))] ∧
      sget 0 t.stalls (xqKey (s.g Reg.TEL_XQ_SEL_CROSS) (s.g Reg.TEL_XQ_SEL_INST) (s.g Reg.TEL_XQ_SEL_QUEUE)) = 0 ∧ t.regs = s.regs ∧ t.mem = s.mem ∧
      ∀ k, k ≠ xqKey (s.g Reg.TEL_XQ_SEL_CROSS) (s.g Reg.TEL_XQ_SEL_INST) (s.g Reg.TEL_XQ_SEL_QUEUE) → sget 0 t.stalls k = sget 0 s.stalls k) ∧
  (∀ (s : State) (g : Byte), s.held = false → s.agentJob g.toNat = none → xqExists (s.g Reg.TEL_XQ_SEL_CROSS) (s.g Reg.TEL_XQ_SEL_INST) = false →
    ∃ t, exec (.telXqStallRead g) s = .next t ∧ t.readOut = s.readOut ++ [0] ∧ t.stalls = s.stalls ∧ t.regs = s.regs ∧ t.mem = s.mem) ∧
  (∀ (s : State) (g : Byte) (v : Word), s.held = false → ∃ t, exec (.registerWrite ⟨g, 0xB0000, 4⟩ v) s = .next t ∧ t.stalls = s.stalls) ∧
  (∀ (a b : XqRef), xqKey a.cross a.inst a.queue = xqKey b.cross b.inst b.queue ↔ a = b)

/-- A write by an agent of no job to a register without an effect of its own: each field the agent may write takes the value (a W1C field loses the bits written 1), every other bit keeps its value; the write counts once in SYS_WR_IGN_CNT exactly when a field it may not write, or a reserved bit, would have changed what the register shows. Firmware and management advance SYS_EVR_RD_IDX, which moves nothing else. An access that is no aligned word of a register changes nothing but SYS_UNMAPPED_CNT and the record, and reads 0. -/
def Obligations.RegisterWritesGoFieldByField : Prop :=
  (∀ (s : State) (a : RegAcc) (v : Word), s.held = false → a.width = 4 → isReg a.addr.toNat = true → frondOfReg a.addr.toNat = none →
    s.deviceWrite a.agent a.addr.toNat v = none → s.agentJob a.agent.toNat = none →
    exec (.registerWrite a v) s = .next (s.settle (s.writeSeen (s.peek a.addr.toNat).toNat a.agent.toNat a.addr.toNat v.toNat))) ∧
  (∀ (s : State) (w g a v : Nat) (r : RegSpec) (f : FieldSpec), regSpecAt a = some r → f ∈ r.fields → a ≠ Reg.SYS_WR_IGN_CNT.addr →
    bits ((s.writeSeen w g a v).reg a).toNat f.lo f.width =
      if s.mayWrite g f.acc = false then bits (s.reg a).toNat f.lo f.width
      else if f.acc = .w1c then bits (s.reg a).toNat f.lo f.width &&& (2 ^ f.width - 1 - bits v f.lo f.width)
      else bits v f.lo f.width) ∧
  (∀ (s : State) (w g a v : Nat) (r : RegSpec), regSpecAt a = some r → a ≠ Reg.SYS_WR_IGN_CNT.addr → v < 2 ^ 32 →
    (s.writeSeen w g a v).g Reg.SYS_WR_IGN_CNT = (if (∃ f ∈ r.fields, s.mayWrite g f.acc = false ∧ bits v f.lo f.width ≠ bits w f.lo f.width) ∨
      (∃ i < 32, v.testBit i = true ∧ ∀ f ∈ r.fields, ¬(f.lo ≤ i ∧ i < f.lo + f.width)) then min (s.g Reg.SYS_WR_IGN_CNT + 1) 0xFFFFFFFF else s.g Reg.SYS_WR_IGN_CNT)) ∧
  (∀ (s : State) (v : Word) (g : Byte), s.held = false → (g = 0 ∨ g = 0x70) → ∃ t, exec (.registerWrite ⟨g, 0x108, 4⟩ v) s = .next t ∧
    t.g Reg.SYS_EVR_RD_IDX = v.toNat % 4096 ∧ t.g Reg.SYS_EVR_WR_IDX = s.g Reg.SYS_EVR_WR_IDX ∧ t.mem = s.mem) ∧
  (∀ (s : State) (v : Word), s.held = false → ∃ t, exec (.registerWrite ⟨0x70, 0, 4⟩ v) s = .next t ∧ t.reg 0 = s.reg 0 ∧ t.mem = s.mem) ∧
  (∀ (s : State) (a : RegAcc) (v : Word), s.held = false → (a.width ≠ 4 ∨ isReg a.addr.toNat = false) → ∃ t, exec (.registerWrite a v) s = .next t ∧
    t.g Reg.SYS_UNMAPPED_CNT = min (s.g Reg.SYS_UNMAPPED_CNT + 1) 0xFFFFFFFF ∧ t.g Reg.SYS_UNMAPPED_ADDR_LO = a.addr.toNat % 2 ^ 32 ∧
    t.g Reg.SYS_UNMAPPED_ADDR_HI_ADDR_HI = a.addr.toNat / 2 ^ 32 ∧ t.g Reg.SYS_UNMAPPED_ADDR_HI_AGENT = a.agent.toNat ∧
    t.g Reg.SYS_UNMAPPED_ADDR_HI_WRITE = 1 ∧ t.mem = s.mem ∧ ∀ b, b ≠ 0x120 → b ≠ 0x124 → b ≠ 0x128 → t.reg b = s.reg b) ∧
  (∀ (s : State) (a : RegAcc), s.held = false → s.agentJob a.agent.toNat = none → (a.width ≠ 4 ∨ isReg a.addr.toNat = false) →
    ∃ t, exec (.rcCounterRead a) s = .next t ∧ t.readOut = s.readOut ++ [0] ∧ t.g Reg.SYS_UNMAPPED_CNT = min (s.g Reg.SYS_UNMAPPED_CNT + 1) 0xFFFFFFFF ∧
      t.g Reg.SYS_UNMAPPED_ADDR_HI_WRITE = 0 ∧ t.mem = s.mem)

/-- In POR every register field has the value of its Reset column. A reset source acting on some registers gives each of their fields whose Reset column names that source or a narrower one (JOB, IMG, WARM, POR, narrowest first) the value of that column, and every other field keeps its value: a field marked POR keeps it across all sources but POR. -/
def Obligations.ResetSourcesRestoreTheirFields : Prop :=
  (∀ (a : Nat) (t : RegSpec) (f : FieldSpec), regSpecAt a = some t → f ∈ t.fields → bits (State.reset.reg a).toNat f.lo f.width = f.reset) ∧
  (∀ (s : State) (r : Src) (p : Nat → Bool) (a : Nat) (t : RegSpec) (f : FieldSpec), regSpecAt a = some t → f ∈ t.fields →
    bits ((s.resetRegs r p).reg a).toNat f.lo f.width = if p a = true ∧ f.src.rank ≤ r.rank then f.reset else bits (s.reg a).toNat f.lo f.width) ∧
  (∀ (s : State) (r : Src) (p : Nat → Bool) (a : Nat) (t : RegSpec) (f : FieldSpec), regSpecAt a = some t → f ∈ t.fields → f.src = .por → r ≠ .por →
    bits ((s.resetRegs r p).reg a).toNat f.lo f.width = bits (s.reg a).toNat f.lo f.width)

/-- Every event raised uses SYS_EVR_SEQ, which rises by 1 and wraps. With the ring in use, its bank ON and nothing held: while fewer than 4,095 entries are unread it is written as the 32 bytes of R33 at SYS_EVR_WR_IDX, which advances modulo 4,096, and no other byte of memory changes; with 4,095 unread nothing is written and SYS_EVR_OVF_CNT rises. With the ring not in use it goes to the 16-entry hold buffer, or is lost and counted when that is full, and memory stays. SYS_EVR_RD_IDX never moves. Its class bit in SYS_EVR_MIRROR_MASK sends it to MG, or counts it when MG has no room; without the bit MG is untouched. The journal takes it when R430 says so. -/
def Obligations.EventsTakeSeqAndGoToRingOrHold : Prop :=
  (∀ (s : State) (code src job arg : Nat), (s.raise code src job arg).g Reg.SYS_EVR_SEQ = (s.g Reg.SYS_EVR_SEQ + 1) % 2 ^ 32 ∧
    (s.raise code src job arg).g Reg.SYS_EVR_RD_IDX = s.g Reg.SYS_EVR_RD_IDX ∧ (s.raise code src job arg).jobs = s.jobs ∧
    (s.raise code src job arg).flt.waiting = s.flt.waiting ++ (if journalled code then
      [⟨eventEntry code src job (s.g Reg.SYS_EVR_SEQ) (s.stamp code job).1 (s.stamp code job).2 arg, true⟩] else [])) ∧
  (∀ (s : State) (code src job arg : Nat), s.ringReady = true → s.hold = [] → (s.g Reg.SYS_EVR_WR_IDX + 4096 - s.g Reg.SYS_EVR_RD_IDX) % 4096 < 4095 →
    (s.raise code src job arg).ld (s.ringBase + 32 * s.g Reg.SYS_EVR_WR_IDX) 32 =
      eventEntry code src job (s.g Reg.SYS_EVR_SEQ) (s.stamp code job).1 (s.stamp code job).2 arg ∧
    (s.raise code src job arg).g Reg.SYS_EVR_WR_IDX = (s.g Reg.SYS_EVR_WR_IDX + 1) % 4096 ∧ (s.raise code src job arg).g Reg.SYS_EVR_OVF_CNT = s.g Reg.SYS_EVR_OVF_CNT ∧
    ∀ a, (a < s.ringBase + 32 * s.g Reg.SYS_EVR_WR_IDX ∨ s.ringBase + 32 * s.g Reg.SYS_EVR_WR_IDX + 32 ≤ a) → (s.raise code src job arg).ld1 a = s.ld1 a) ∧
  (∀ (s : State) (code src job arg : Nat), s.ringReady = true → s.hold = [] → (s.g Reg.SYS_EVR_WR_IDX + 4096 - s.g Reg.SYS_EVR_RD_IDX) % 4096 = 4095 →
    (s.raise code src job arg).g Reg.SYS_EVR_WR_IDX = s.g Reg.SYS_EVR_WR_IDX ∧
    (s.raise code src job arg).g Reg.SYS_EVR_OVF_CNT = min (s.g Reg.SYS_EVR_OVF_CNT + 1) 0xFFFFFFFF ∧ (s.raise code src job arg).mem = s.mem) ∧
  (∀ (s : State) (code src job arg : Nat), s.ringReady = false → s.hold.length < 16 → (s.raise code src job arg).hold =
      s.hold ++ [eventEntry code src job (s.g Reg.SYS_EVR_SEQ) (s.stamp code job).1 (s.stamp code job).2 arg] ∧
    (s.raise code src job arg).mem = s.mem ∧ (s.raise code src job arg).g Reg.SYS_EVR_WR_IDX = s.g Reg.SYS_EVR_WR_IDX) ∧
  (∀ (s : State) (code src job arg : Nat), s.ringReady = false → 16 ≤ s.hold.length → (s.raise code src job arg).hold = s.hold ∧
    (s.raise code src job arg).g Reg.SYS_EVR_OVF_CNT = min (s.g Reg.SYS_EVR_OVF_CNT + 1) 0xFFFFFFFF ∧ (s.raise code src job arg).mem = s.mem) ∧
  (∀ (s : State) (code src job arg : Nat), (s.g Reg.SYS_EVR_MIRROR_MASK).testBit (code / 256) = true → if s.mgRoom then
      (s.raise code src job arg).mg.queue = s.mg.queue ++
        [⟨0x0011, s.mg.devSeq.toNat, 0, eventEntry code src job (s.g Reg.SYS_EVR_SEQ) (s.stamp code job).1 (s.stamp code job).2 arg⟩]
    else (s.raise code src job arg).mg = s.mg ∧
      (s.raise code src job arg).g Reg.SYS_EVR_MIRROR_DROP_CNT = min (s.g Reg.SYS_EVR_MIRROR_DROP_CNT + 1) 0xFFFFFFFF) ∧
  (∀ (s : State) (code src job arg : Nat), (s.g Reg.SYS_EVR_MIRROR_MASK).testBit (code / 256) = false → (s.raise code src job arg).mg = s.mg)

/-- A step with an empty queue is one tick of the time island (the model's choice, assumption log 7): in POR nothing changes; elsewhere the tick count rises by 1, the counter of a domain that does not follow the other gains its INCR in 2^-40 ns with its nanoseconds kept below 10^9, the head of the MG queue leaves when the link is up, FLT_UPTIME counts whole seconds, and no other register and no byte of memory changes. -/
def Obligations.IdleStepIsOneNanosecond : Prop :=
  (∀ s : State, s.pending = [] → s.boot.phase = .por → step s = .next s) ∧
  (∀ s : State, s.pending = [] → s.boot.phase ≠ .por → ∃ t, step s = .next t ∧ t.ticks = s.ticks + 1 ∧ t.mem = s.mem ∧ t.jobs = s.jobs ∧
    (∀ a, a ≠ Reg.FLT_UPTIME.addr → t.reg a = s.reg a) ∧
    (s.ticks % 1000000000 ≠ 999999999 → t.regs = s.regs) ∧ (s.ticks % 1000000000 = 999999999 → t.g Reg.FLT_UPTIME = (s.g Reg.FLT_UPTIME + 1) % 2 ^ 32)) ∧
  (∀ (s : State) (m : MgMsg) (q : List MgMsg), s.pending = [] → s.boot.phase ≠ .por → s.mg.up = true → s.mg.queue = m :: q →
    ∃ t, step s = .next t ∧ t.mg.queue = q ∧ t.mgOut = s.mgOut ++ [m]) ∧
  (∀ (s : State) (d : Dom), s.pending = [] → s.boot.phase ≠ .por → s.follows d = false → (s.dom d).ns.toNat < 1000000000 → (s.dom d).sec.toNat + 1000 < 2 ^ 64 →
    ∃ t, step s = .next t ∧ (t.dom d).units = (s.dom d).units + (s.dom d).incr.toNat ∧ (t.dom d).ns.toNat < 1000000000)

/-- A read of TIME_d_NOW_SEC_LO captures the domain's full time into the four NOW words of that domain and gives the low seconds. An island whose input queues are empty is recorded as gated, and nothing else changes. Under the open scopes debug reads memory without changing a byte, writes the bytes given and no other byte, halts and resumes a controller, and reads key RAM as a free value (assumption log 5); fuse test has no effect the spec gives (assumption log 32). With no scope open nothing changes. -/
def Obligations.CapturesGatesAndDebugAct : Prop :=
  (∀ (s : State) (d : Dom) (g : Byte), s.held = false → s.agentJob g.toNat = none → ∃ t, exec (.timeNowCapture g d) s = .next t ∧
    t.g (Reg.TIME_d_NOW_SEC_LO (domNo d)) = (s.dom d).full.sec.toNat % 2 ^ 32 ∧ t.g (Reg.TIME_d_NOW_SEC_HI (domNo d)) = (s.dom d).full.sec.toNat / 2 ^ 32 ∧
    t.g (Reg.TIME_d_NOW_NS (domNo d)) = (s.dom d).full.ns.toNat ∧ t.g (Reg.TIME_d_NOW_FR (domNo d)) = (s.dom d).full.frac.toNat ∧
    t.readOut = s.readOut ++ [BitVec.ofNat 32 ((s.dom d).full.sec.toNat % 2 ^ 32)] ∧ t.domA = s.domA ∧ t.domB = s.domB ∧ t.mem = s.mem) ∧
  (∀ (s : State) (i : Island), s.held = false → s.inputsEmpty (islandNo i) = true → s.gated.contains (islandNo i) = false →
    exec (.islandClockGate i) s = .next { s with gated := s.gated ++ [islandNo i] }) ∧
  (∀ (s : State) (a : Addr) (n : Nat), s.held = false → s.g Reg.PWR_STS_STATE ≠ 2 → s.scopes.getLsbD 1 = true → s.dbgReach a.toNat n = true →
    s.region a.toNat ≠ .reg → ∃ t, exec (.debugAccess (.read a n)) s = .next t ∧ t.mem = s.mem ∧
      t.readOut = s.readOut ++ readWords (s.ld a.toNat n) (ceilDiv n 4)) ∧
  (∀ (s : State) (a : Addr) (bs : List Byte), s.held = false → s.g Reg.PWR_STS_STATE ≠ 2 → s.scopes.getLsbD 2 = true → s.dbgReach a.toNat bs.length = true →
    s.region a.toNat ≠ .reg → ∃ t, exec (.debugAccess (.write a bs)) s = .next t ∧ t.ld a.toNat bs.length = bs ∧
      ∀ b, (b < a.toNat ∨ a.toNat + bs.length ≤ b) → t.ld1 b = s.ld1 b) ∧
  (∀ (s : State) (c : Fin 7), s.held = false → s.g Reg.PWR_STS_STATE ≠ 2 → s.scopes.getLsbD 0 = true → s.dbgCtl c = true → s.sec.halted.contains c.val = false →
    ∃ t, exec (.debugAccess (.halt c)) s = .next t ∧ t.sec.halted = s.sec.halted ++ [c.val] ∧ t.regs = s.regs ∧ t.mem = s.mem) ∧
  (∀ (s : State) (c : Fin 7), s.held = false → s.g Reg.PWR_STS_STATE ≠ 2 → s.scopes.getLsbD 0 = true →
    ∃ t, exec (.debugAccess (.resume c)) s = .next t ∧ t.sec.halted.contains c.val = false ∧ t.regs = s.regs ∧ t.mem = s.mem) ∧
  (∀ s : State, s.held = false → s.g Reg.PWR_STS_STATE ≠ 2 → s.scopes.getLsbD 4 = true → ∃ t, exec (.debugAccess .secKeyRam) s = .next t ∧
    t.readOut = s.readOut ++ [Config.freeWord s.freeCtr] ∧ t.regs = s.regs ∧ t.mem = s.mem) ∧
  (∀ s : State, s.held = false → exec (.debugAccess .fuseTest) s = .next s) ∧
  (∀ (s : State) (a : DbgAcc), s.held = false → s.scopes = 0 → exec (.debugAccess a) s = .next s)

/-- By an agent that may write it, of a domain that does not follow the other: a write to TIME_d_INCR_HI whose 48-bit value {INCR_HI, INCR_LO} lies from 0x00FF_E000_0000 to 0x0100_2000_0000 puts that value in force, the time itself stays, and the next tick adds it; outside that range the write changes neither the increment nor the time, and TIME_d_REJ_CNT rises. A write to TIME_d_INCR_LO alone changes no domain. -/
def Obligations.IncrementWritesApplyInRange : Prop :=
  (∀ (s : State) (g : Byte) (d : Dom) (v : Word) (x : Nat), s.held = false → (g = 0 ∨ g = 0x70) → s.follows d = false →
    x = s.g (Reg.TIME_d_INCR_LO (domNo d)) + v.toNat % 2 ^ 16 * 2 ^ 32 → 0x00FFE0000000 ≤ x → x ≤ 0x010020000000 →
    ∃ t, exec (.timeIncrWrite g d v) s = .next t ∧ t.dom d = { s.dom d with incr := BitVec.ofNat 48 x, servoAt := s.ticks } ∧ t.dom (other d) = s.dom (other d) ∧
      t.g (Reg.TIME_d_REJ_CNT (domNo d)) = s.g (Reg.TIME_d_REJ_CNT (domNo d)) ∧ t.mem = s.mem ∧
      ((s.dom d).ns.toNat < 1000000000 → (s.dom d).sec.toNat + 1000 < 2 ^ 64 → (t.tick.dom d).units = (s.dom d).units + x)) ∧
  (∀ (s : State) (g : Byte) (d : Dom) (v : Word), s.held = false → (g = 0 ∨ g = 0x70) → s.follows d = false →
    (s.g (Reg.TIME_d_INCR_LO (domNo d)) + v.toNat % 2 ^ 16 * 2 ^ 32 < 0x00FFE0000000 ∨
      0x010020000000 < s.g (Reg.TIME_d_INCR_LO (domNo d)) + v.toNat % 2 ^ 16 * 2 ^ 32) →
    ∃ t, exec (.timeIncrWrite g d v) s = .next t ∧ t.dom d = s.dom d ∧ t.dom (other d) = s.dom (other d) ∧
      t.g (Reg.TIME_d_INCR_HI (domNo d)) = s.g (Reg.TIME_d_INCR_HI (domNo d)) ∧
      t.g (Reg.TIME_d_REJ_CNT (domNo d)) = min (s.g (Reg.TIME_d_REJ_CNT (domNo d)) + 1) 0xFFFFFFFF ∧ t.mem = s.mem) ∧
  (∀ (s : State) (g : Byte) (d : Dom) (v : Word), s.held = false → (g = 0 ∨ g = 0x70) → s.follows d = false →
    ∃ t, exec (.registerWrite ⟨g, BitVec.ofNat 48 (Reg.TIME_d_INCR_LO (domNo d)).addr, 4⟩ v) s = .next t ∧ t.dom d = s.dom d ∧ t.dom (other d) = s.dom (other d) ∧
      t.g (Reg.TIME_d_INCR_LO (domNo d)) = v.toNat ∧ t.g (Reg.TIME_d_INCR_HI (domNo d)) = s.g (Reg.TIME_d_INCR_HI (domNo d)))

/-- For a domain that does not follow the other, by an agent that may write it: a step backward in range moves the time by exactly its offset; a step of 10^9 ns or more is refused, changes no time and counts; a SET to a time not ahead of the present one loads the counter and shows ACQUIRING; a SET of 10^9 ns or more is refused and counts; LOCK shows LOCKED and valid, UNLOCK ACQUIRING and not valid; LOCK in UNSET and both at once are refused and count. TIME_SERVO does the same by its OP and answers OK, or STATE where LOCK or UNLOCK is refused; it is refused with STATE for a follower and with RANGE when its form is out of order. A step or SET ahead also fires what it passes over (R388), which is not stated here. -/
def Obligations.TimeCommandsStepSetAndLock : Prop :=
  (∀ (s : State) (g : Byte) (d : Dom) (v : Word) (o : Int), s.held = false → (g = 0 ∨ g = 0x70) → s.follows d = false → v.getLsbD 16 = true →
    o = stepUnits (sx 32 (s.g (Reg.TIME_d_STEP_NS (domNo d)))) (v.toNat % 2 ^ 16) → o ≤ 0 → 0 ≤ ((s.dom d).units : Int) + o →
    (sx 32 (s.g (Reg.TIME_d_STEP_NS (domNo d)))).natAbs ≤ 999999999 → o.natAbs ≤ s.g (Reg.TIME_d_CFG2_STEP_MAX (domNo d)) * 2 ^ 40 →
    (s.dom d).setAt ≠ s.ticks + 1 → s.follows (other d) = false → ∃ t, exec (.timeStep g d v) s = .next t ∧
      ((t.dom d).units : Int) = (s.dom d).units + o ∧ t.dom (other d) = s.dom (other d) ∧ t.g (Reg.TIME_d_REJ_CNT (domNo d)) = s.g (Reg.TIME_d_REJ_CNT (domNo d)) ∧
      t.g (Reg.TIME_d_STS_STATE (domNo d)) = s.g (Reg.TIME_d_STS_STATE (domNo d))) ∧
  (∀ (s : State) (g : Byte) (d : Dom) (v : Word), s.held = false → (g = 0 ∨ g = 0x70) → s.follows d = false → v.getLsbD 16 = true →
    999999999 < (sx 32 (s.g (Reg.TIME_d_STEP_NS (domNo d)))).natAbs → (s.dom d).setAt ≠ s.ticks + 1 →
    ∃ t, exec (.timeStep g d v) s = .next t ∧ t.dom d = s.dom d ∧ t.g (Reg.TIME_d_REJ_CNT (domNo d)) = min (s.g (Reg.TIME_d_REJ_CNT (domNo d)) + 1) 0xFFFFFFFF ∧
      t.g Reg.SYS_EVR_SEQ = (s.g Reg.SYS_EVR_SEQ + 1) % 2 ^ 32) ∧
  (∀ (s : State) (g : Byte) (d : Dom) (v : Word), s.held = false → (g = 0 ∨ g = 0x70) → s.follows d = false → s.follows (other d) = false → v.getLsbD 31 = true →
    v.toNat % 2 ^ 30 < 1000000000 → s.leads = false → s.domUsers d = [] → (s.dom d).stepAt ≠ s.ticks + 1 →
    s.g64 (Reg.TIME_d_SET_SEC_LO (domNo d)) (Reg.TIME_d_SET_SEC_HI (domNo d)) * 1000000000 + v.toNat % 2 ^ 30 ≤ (s.dom d).nanos →
    ∃ t, exec (.timeSet g d v) s = .next t ∧ (t.dom d).sec.toNat = s.g64 (Reg.TIME_d_SET_SEC_LO (domNo d)) (Reg.TIME_d_SET_SEC_HI (domNo d)) ∧
      (t.dom d).ns.toNat = v.toNat % 2 ^ 30 ∧ (t.dom d).frac = 0 ∧ t.g (Reg.TIME_d_STS_STATE (domNo d)) = 1 ∧ t.g (Reg.TIME_d_STS_VALID (domNo d)) = 0 ∧
      t.dom (other d) = s.dom (other d)) ∧
  (∀ (s : State) (g : Byte) (d : Dom) (v : Word), s.held = false → (g = 0 ∨ g = 0x70) → s.follows d = false → v.getLsbD 31 = true → 1000000000 ≤ v.toNat % 2 ^ 30 →
    ∃ t, exec (.timeSet g d v) s = .next t ∧ t.dom d = s.dom d ∧ t.g (Reg.TIME_d_REJ_CNT (domNo d)) = min (s.g (Reg.TIME_d_REJ_CNT (domNo d)) + 1) 0xFFFFFFFF) ∧
  (∀ (s : State) (g : Byte) (d : Dom) (v : Word), s.held = false → (g = 0 ∨ g = 0x70) → s.follows d = false → v.toNat % 4 = 1 → s.leads = false →
    s.g (Reg.TIME_d_STS_STATE (domNo d)) ≠ 0 → ∃ t, exec (.timeLock g d v) s = .next t ∧ t.g (Reg.TIME_d_STS_STATE (domNo d)) = 2 ∧
      t.g (Reg.TIME_d_STS_VALID (domNo d)) = 1 ∧ t.dom d = { s.dom d with servoAt := s.ticks, reached := true } ∧ t.mem = (if s.g (Reg.TIME_d_STS_STATE (domNo d)) = 2 ∧
      s.follows (other d) = false then s.mem else t.mem)) ∧
  (∀ (s : State) (g : Byte) (d : Dom) (v : Word), s.held = false → (g = 0 ∨ g = 0x70) → s.follows d = false → v.toNat % 4 = 2 → s.leads = false →
    1 < s.g (Reg.TIME_d_STS_STATE (domNo d)) → ∃ t, exec (.timeUnlock g d v) s = .next t ∧ t.g (Reg.TIME_d_STS_STATE (domNo d)) = 1 ∧
      t.g (Reg.TIME_d_STS_VALID (domNo d)) = 0 ∧ t.dom d = s.dom d) ∧
  (∀ (s : State) (g : Byte) (d : Dom) (v : Word) (c : Instr), s.held = false → (g = 0 ∨ g = 0x70) → s.follows d = false →
    (v.toNat % 4 = 3 ∨ (v.toNat % 4 = 1 ∧ s.g (Reg.TIME_d_STS_STATE (domNo d)) = 0)) → c ∈ [.timeLock g d v, .timeUnlock g d v] →
    ∃ t, exec c s = .next t ∧ t.dom d = s.dom d ∧ t.g (Reg.TIME_d_STS_STATE (domNo d)) = s.g (Reg.TIME_d_STS_STATE (domNo d)) ∧
      t.g (Reg.TIME_d_REJ_CNT (domNo d)) = min (s.g (Reg.TIME_d_REJ_CNT (domNo d)) + 1) 0xFFFFFFFF) ∧
  (∀ (s : State) (r : MgReq) (c : Instr), s.boot.phase = .started → s.mg.up = true → r.ver = 1 →
    c ∈ [.timeServoIncr r, .timeServoStep r, .timeServoSet r, .timeServoLock r, .timeServoUnlock r] →
    (servoForm r.payload = false ∨ s.follows (domOf (byteAt r.payload 0)) = true) → ∃ t, exec c s = .next t ∧ t.regs = s.regs ∧ t.domA = s.domA ∧ t.domB = s.domB ∧
      t.mg.queue = s.mg.queue ++ [⟨0x8030, r.seq.toNat, if servoForm r.payload = false then 4 else 3, []⟩]) ∧
  (∀ (s : State) (r : MgReq) (d : Dom), s.boot.phase = .started → s.mg.up = true → r.ver = 1 → servoForm r.payload = true → s.follows d = false →
    d = domOf (byteAt r.payload 0) → byteAt r.payload 1 = 1 → incrOk (le r.payload 8 8) = true → ∃ t, exec (.timeServoIncr r) s = .next t ∧
      t.dom d = { s.dom d with incr := BitVec.ofNat 48 (le r.payload 8 8), servoAt := s.ticks } ∧ t.mg.queue = s.mg.queue ++ [⟨0x8030, r.seq.toNat, 0, []⟩]) ∧
  (∀ (s : State) (r : MgReq) (d : Dom), s.boot.phase = .started → s.mg.up = true → r.ver = 1 → servoForm r.payload = true → s.follows d = false →
    d = domOf (byteAt r.payload 0) → byteAt r.payload 1 = 2 → stepUnits (sx 32 (le r.payload 8 4)) (le r.payload 12 2) ≤ 0 →
    0 ≤ ((s.dom d).units : Int) + stepUnits (sx 32 (le r.payload 8 4)) (le r.payload 12 2) → (sx 32 (le r.payload 8 4)).natAbs ≤ 999999999 →
    (stepUnits (sx 32 (le r.payload 8 4)) (le r.payload 12 2)).natAbs ≤ s.g (Reg.TIME_d_CFG2_STEP_MAX (domNo d)) * 2 ^ 40 →
    (s.dom d).setAt ≠ s.ticks + 1 → s.follows (other d) = false → ∃ t q, exec (.timeServoStep r) s = .next t ∧
      ((t.dom d).units : Int) = (s.dom d).units + stepUnits (sx 32 (le r.payload 8 4)) (le r.payload 12 2) ∧ t.mg.queue = q ++ [⟨0x8030, r.seq.toNat, 0, []⟩]) ∧
  (∀ (s : State) (r : MgReq) (d : Dom), s.boot.phase = .started → s.mg.up = true → r.ver = 1 → servoForm r.payload = true → s.follows d = false →
    d = domOf (byteAt r.payload 0) → byteAt r.payload 1 = 3 → le r.payload 16 4 < 1000000000 → s.follows (other d) = false → s.leads = false → s.domUsers d = [] →
    le r.payload 8 8 * 1000000000 + le r.payload 16 4 ≤ (s.dom d).nanos → ∃ t q, exec (.timeServoSet r) s = .next t ∧
      (t.dom d).sec.toNat = le r.payload 8 8 ∧ (t.dom d).ns.toNat = le r.payload 16 4 ∧ (t.dom d).frac = 0 ∧ t.g (Reg.TIME_d_STS_STATE (domNo d)) = 1 ∧
      t.mg.queue = q ++ [⟨0x8030, r.seq.toNat, 0, []⟩]) ∧
  (∀ (s : State) (r : MgReq) (d : Dom), s.boot.phase = .started → s.mg.up = true → r.ver = 1 → servoForm r.payload = true → s.follows d = false →
    d = domOf (byteAt r.payload 0) → byteAt r.payload 1 = 4 → s.leads = false → s.g (Reg.TIME_d_STS_STATE (domNo d)) ≠ 0 →
    ∃ t q, exec (.timeServoLock r) s = .next t ∧ t.g (Reg.TIME_d_STS_STATE (domNo d)) = 2 ∧ t.mg.queue = q ++ [⟨0x8030, r.seq.toNat, 0, []⟩]) ∧
  (∀ (s : State) (r : MgReq) (d : Dom), s.boot.phase = .started → s.mg.up = true → r.ver = 1 → servoForm r.payload = true → s.follows d = false →
    d = domOf (byteAt r.payload 0) → byteAt r.payload 1 = 5 → s.leads = false → 1 < s.g (Reg.TIME_d_STS_STATE (domNo d)) →
    ∃ t q, exec (.timeServoUnlock r) s = .next t ∧ t.g (Reg.TIME_d_STS_STATE (domNo d)) = 1 ∧ t.mg.queue = q ++ [⟨0x8030, r.seq.toNat, 0, []⟩]) ∧
  (∀ (s : State) (r : MgReq) (c : Instr), c ∈ [.timeServoStep r, .timeServoSet r, .timeServoLock r, .timeServoUnlock r] → exec c s = exec (.timeServoIncr r) s)

/-- Outside group leadership: FOLLOW 1 or 2 with the gap within HO_MAX sets the follower and shows the leader's state without a step; FOLLOW 3 is ignored and counted; FOLLOW 0 releases the follower with the leader's INCR, its time kept, into HOLDOVER; HANDOVER_COUPLED couples a slewing follower, whose time stays when the gap is already below 1 ns; 2 s without the servo lead from LOCKED to HOLDOVER, which stays valid; HOLD_S seconds of it to EXPIRED, not valid, when AUTO is 0; before those times neither happens. A regained source within STEP_MAX steps an internal servo's domain back by its offset and locks it; one within HO_MAX steers it by an increment in range, which is a free value (assumption logs 5 and 30). -/
def Obligations.HoldoverAndHandoverAct : Prop :=
  (∀ (s : State) (g : Byte) (v : Word) (f : Dom), s.held = false → (g = 0 ∨ g = 0x70) → s.g Reg.TIME_HO_CTL = 0 → v.toNat % 4 = domNo f + 1 → s.leads = false →
    (s.gap f).natAbs ≤ s.g Reg.TIME_HO_CFG_HO_MAX * 1000 * 2 ^ 40 → ∃ t, exec (.handoverFollow g v) s = .next t ∧ t.g Reg.TIME_HO_CTL = domNo f + 1 ∧
      t.follows f = true ∧ t.g (Reg.TIME_d_STS_STATE (domNo f)) = s.g (Reg.TIME_d_STS_STATE (domNo (other f))) ∧
      t.g (Reg.TIME_d_STS_COUPLED (domNo f)) = b2n (closed (s.gap f)) ∧ (t.dom f).units = (s.dom f).units ∧ t.dom (other f) = s.dom (other f)) ∧
  (∀ (s : State) (g : Byte) (v : Word) (c : Instr), s.held = false → (g = 0 ∨ g = 0x70) → v.toNat % 4 = 3 → c ∈ [.handoverFollow g v, .handoverRelease g v] →
    ∃ t, exec c s = .next t ∧ t.g Reg.TIME_HO_CTL = s.g Reg.TIME_HO_CTL ∧ t.domA = s.domA ∧ t.domB = s.domB ∧
      t.g Reg.SYS_WR_IGN_CNT = min (s.g Reg.SYS_WR_IGN_CNT + 1) 0xFFFFFFFF) ∧
  (∀ (s : State) (g : Byte) (v : Word) (f : Dom), s.held = false → (g = 0 ∨ g = 0x70) → v.toNat % 4 = 0 → s.follower = some f → s.leads = false →
    ∃ t, exec (.handoverRelease g v) s = .next t ∧ t.follower = none ∧ t.g (Reg.TIME_d_STS_COUPLED (domNo f)) = 0 ∧ (t.dom f).incr = (s.dom (other f)).incr ∧
      (t.dom f).units = (s.dom f).units ∧ t.g (Reg.TIME_d_STS_STATE (domNo f)) = 3) ∧
  (∀ (s : State) (f : Dom), s.held = false → s.follows f = true → s.g (Reg.TIME_d_STS_COUPLED (domNo f)) = 0 → ∃ t, exec (.handoverCoupled f) s = .next t ∧
    t.g (Reg.TIME_d_STS_COUPLED (domNo f)) = 1 ∧ t.dom (other f) = s.dom (other f) ∧
    ((s.dom f).ns.toNat < 1000000000 → closed (s.gap f) = true → (t.dom f).units = (s.dom f).units)) ∧
  (∀ (s : State) (d : Dom), s.held = false → s.follows d = false → s.leads = false → s.g (Reg.TIME_d_STS_STATE (domNo d)) = 2 → (s.dom d).servoAt + 2000000000 ≤ s.ticks →
    ∃ t, exec (.timeHoldoverEntry d) s = .next t ∧ t.g (Reg.TIME_d_STS_STATE (domNo d)) = 3 ∧ t.g (Reg.TIME_d_STS_VALID (domNo d)) = 1 ∧
      t.dom d = { s.dom d with holdAt := s.ticks }) ∧
  (∀ (s : State) (d : Dom), s.held = false → s.follows d = false → s.leads = false → s.g Reg.TIME_HO_CFG_AUTO = 0 → s.g (Reg.TIME_d_STS_STATE (domNo d)) = 3 →
    (s.dom d).holdAt + s.g (Reg.TIME_d_CFG3 (domNo d)) * 1000000000 ≤ s.ticks → ∃ t, exec (.timeHoldoverExpiry d) s = .next t ∧ t.g (Reg.TIME_d_STS_STATE (domNo d)) = 4 ∧ t.g (Reg.TIME_d_STS_VALID (domNo d)) = 0 ∧ t.dom d = s.dom d) ∧
  (∀ (s : State) (d : Dom), s.held = false → s.ticks < (s.dom d).servoAt + 2000000000 → exec (.timeHoldoverEntry d) s = .next (s.settle s)) ∧
  (∀ (s : State) (d : Dom), s.held = false → s.ticks < (s.dom d).holdAt + s.g (Reg.TIME_d_CFG3 (domNo d)) * 1000000000 →
    exec (.timeHoldoverExpiry d) s = .next (s.settle s)) ∧
  (∀ (s : State) (d : Dom) (o : Nat), s.held = false → s.follower = none → s.leads = false → s.g (Reg.TIME_d_CFG_SERVO (domNo d)) = 0 →
    (s.g (Reg.TIME_d_STS_STATE (domNo d)) = 3 ∨ s.g (Reg.TIME_d_STS_STATE (domNo d)) = 4) → o ≤ s.g (Reg.TIME_d_CFG2_STEP_MAX (domNo d)) → o ≤ (s.dom d).nanos →
    o ≤ 999999999 → (s.dom d).setAt ≠ s.ticks + 1 → ∃ t, exec (.servoSourceRegained d o) s = .next t ∧ (t.dom d).units + o * 2 ^ 40 = (s.dom d).units ∧
      t.g (Reg.TIME_d_STS_STATE (domNo d)) = 2) ∧
  (∀ (s : State) (d : Dom) (o : Int), s.held = false → s.follower = none → s.g (Reg.TIME_d_CFG_SERVO (domNo d)) = 0 →
    (s.g (Reg.TIME_d_STS_STATE (domNo d)) = 3 ∨ s.g (Reg.TIME_d_STS_STATE (domNo d)) = 4) → s.g (Reg.TIME_d_CFG2_STEP_MAX (domNo d)) < o.natAbs →
    o.natAbs ≤ s.g Reg.TIME_HO_CFG_HO_MAX * 1000 → ∃ t, exec (.servoSourceRegained d o) s = .next t ∧ (t.dom d).units = (s.dom d).units ∧
      0x00FFE0000000 ≤ (t.dom d).incr.toNat ∧ (t.dom d).incr.toNat ≤ 0x010020000000)

/-- For a domain with PTP enabled, over its own link that is up, in its PTP domain: the first Announce selects its master and shows SRC_OK; a Sync of the master is stamped; a Follow_Up gives a two-step Sync its t1; a Delay_Resp to the open Delay_Req writes the eight exchange words and counts, when the domain is not in HOLDOVER or EXPIRED; with a master selected the timer opens a new Delay_Req; the Announce timeout loses the master. A message of another PTP domain, or of a type not taken, is dropped and counted. At a second boundary of its domain PPS_OUT rises for WIDTH ms while the domain is valid. None of them moves a domain's time. -/
def Obligations.PtpMessagesAreServed : Prop :=
  (∀ (s : State) (d : Dom) (m : PtpMsg), s.held = false → s.ptpOn d m.link.val = true → m.typ = 0xB → m.ptpdom.toNat = s.g (Reg.TIME_d_CFG_PTPDOM (domNo d)) →
    (s.ptp d).master = none → ∃ t, exec (.ptpAnnounce d m) s = .next t ∧ (t.ptp d).master = some m.master ∧ (t.ptp d).announceRank = m.rank ∧
      t.g (Reg.TIME_d_STS_SRC_OK (domNo d)) = 1 ∧ t.domA = s.domA ∧ t.domB = s.domB ∧ t.mem = s.mem) ∧
  (∀ (s : State) (d : Dom) (m : PtpMsg), s.held = false → s.ptpOn d m.link.val = true → m.typ = 0 → m.ptpdom.toNat = s.g (Reg.TIME_d_CFG_PTPDOM (domNo d)) →
    (s.ptp d).master = some m.master → ∃ t, exec (.ptpSync d m) s = .next t ∧ (t.ptp d).t2 = some (s.rxStamp d) ∧ (t.ptp d).syncSeq = m.seq ∧
      (t.ptp d).t1 = (if m.twoStep then none else some m.stamp) ∧ t.regs = s.regs ∧ t.domA = s.domA ∧ t.domB = s.domB ∧ t.mem = s.mem) ∧
  (∀ (s : State) (d : Dom) (m : PtpMsg), s.held = false → s.ptpOn d m.link.val = true → m.typ = 8 → m.ptpdom.toNat = s.g (Reg.TIME_d_CFG_PTPDOM (domNo d)) →
    (s.ptp d).master = some m.master → (s.ptp d).twoStep = some m.seq → ∃ t, exec (.ptpFollowUp d m) s = .next t ∧ (t.ptp d).t1 = some m.stamp ∧
      (t.ptp d).t2 = (s.ptp d).t2 ∧ t.regs = s.regs ∧ t.mem = s.mem) ∧
  (∀ (s : State) (d : Dom) (m : PtpMsg) (t1 t2 t3 : FullTime), s.held = false → s.ptpOn d m.link.val = true → m.typ = 9 →
    m.ptpdom.toNat = s.g (Reg.TIME_d_CFG_PTPDOM (domNo d)) → (s.ptp d).master = some m.master → (s.ptp d).reqSeq = m.seq →
    (s.ptp d).t1 = some t1 → (s.ptp d).t2 = some t2 → (s.ptp d).t3 = some t3 → s.g (Reg.TIME_d_STS_STATE (domNo d)) ≤ 2 →
    ∃ t, exec (.ptpDelayResp d m) s = .next t ∧ t.reg (Reg.TIME_d_XCH0_NS (domNo d)).addr = BitVec.ofNat 32 (xchWord t1) ∧
      t.reg (Reg.TIME_d_XCH1_NS (domNo d)).addr = BitVec.ofNat 32 (xchWord t2) ∧ t.reg (Reg.TIME_d_XCH2_NS (domNo d)).addr = BitVec.ofNat 32 (xchWord t3) ∧
      t.reg (Reg.TIME_d_XCH3_NS (domNo d)).addr = BitVec.ofNat 32 (xchWord m.stamp) ∧
      t.reg (Reg.TIME_d_XCH7 (domNo d)).addr = BitVec.ofNat 32 ((s.ptp d).syncSeq.toNat + m.seq.toNat * 65536) ∧
      t.g (Reg.TIME_d_SYNC_CNT (domNo d)) = min (s.g (Reg.TIME_d_SYNC_CNT (domNo d)) + 1) 0xFFFFFFFF ∧ t.domA = s.domA ∧ t.domB = s.domB ∧ t.mem = s.mem) ∧
  (∀ (s : State) (d : Dom), s.held = false → s.ptpOn d (s.g (Reg.TIME_d_CFG_PORT (domNo d))) = true → (s.ptp d).master ≠ none →
    ∃ t, exec (.ptpDelayReqTimer d) s = .next t ∧ (t.ptp d).reqSeq = (s.ptp d).reqSeq + 1 ∧ (t.ptp d).master = (s.ptp d).master ∧ t.mem = s.mem) ∧
  (∀ (s : State) (d : Dom), s.held = false → (s.ptp d).master ≠ none → ∃ t, exec (.ptpAnnounceTimeout d) s = .next t ∧ (t.ptp d).master = none ∧
    (t.ptp d).t1 = none ∧ t.g (Reg.TIME_d_STS_SRC_OK (domNo d)) = 0) ∧
  (∀ (s : State) (d : Dom) (m : PtpMsg), s.held = false → s.ptpOn d m.link.val = true →
    (m.ptpdom.toNat ≠ s.g (Reg.TIME_d_CFG_PTPDOM (domNo d)) ∨ m.typ.toNat ∉ [0, 8, 9, 11]) → ∃ t, exec (.ptpFrameDrop d m) s = .next t ∧
      t.g (Reg.TIME_d_PTP_DROP_CNT (domNo d)) = min (s.g (Reg.TIME_d_PTP_DROP_CNT (domNo d)) + 1) 0xFFFFFFFF ∧ t.ptpA = s.ptpA ∧ t.ptpB = s.ptpB ∧ t.mem = s.mem) ∧
  (∀ s : State, s.boot.phase = .started → s.valid (domOf (s.g Reg.TIME_PPS_CFG_DOM)) = true → (s.dom (domOf (s.g Reg.TIME_PPS_CFG_DOM))).ns.toNat ≤ 2 → ∃ t, exec .ppsOutPulse s = .next t ∧ t.pps.outLevel = true ∧
    t.pps.outUntil = s.ticks + s.g Reg.TIME_PPS_CFG_WIDTH * 1000000 ∧ t.regs = s.regs ∧ t.mem = s.mem)

/-- A decision on an island with no change under way aims one point up when the queues are at least three quarters full, one down when at most a quarter full and above the floor, and never above the ceiling; a change to the present point is none; while droop is present the change waits. A change under way that does not wait completes. Droop is counted and makes a change under way wait; its end lets it go on; a change that has waited 1 ms, and none before, is abandoned with its count and event, and the island keeps its point. No other island and no byte of memory changes, the ring apart. -/
def Obligations.OperatingPointsFollowOccupancyAndDroop : Prop :=
  (∀ (s : State) (i : Fin 13) (occ depth p : Nat), s.held = false → (s.isl i).target = none →
    p = min (if 3 * depth ≤ 4 * occ then (s.isl i).point + 1 else if 4 * occ ≤ depth ∧ s.islFloor i < (s.isl i).point then (s.isl i).point - 1 else (s.isl i).point)
      (s.islCeil i) → ∃ t, exec (.opPointDecision i occ depth) s = .next t ∧ (t.isl i).point = (s.isl i).point ∧ (t.isl i).droop = (s.isl i).droop ∧
      (t.isl i).target = (if (s.isl i).point = p then none else some p) ∧ ((t.isl i).waitAt.isSome = decide ((s.isl i).point ≠ p ∧ (s.isl i).droop = true)) ∧
      (∀ k : Fin 13, k ≠ i → t.isl k = s.isl k) ∧ t.regs = s.regs ∧ t.mem = s.mem) ∧
  (∀ (s : State) (i : Fin 13) (p : Nat), s.held = false → (s.isl i).target = some p → (s.isl i).waitAt = none → ∃ t, exec (.opPointChangeDone i) s = .next t ∧
    t.isl i = { s.isl i with point := p, target := none } ∧ (∀ k : Fin 13, k ≠ i → t.isl k = s.isl k) ∧ t.regs = s.regs ∧ t.mem = s.mem) ∧
  (∀ (s : State) (i : Fin 13), s.held = false → ∃ t, exec (.droopDetect i) s = .next t ∧ (t.isl i).droop = true ∧ (t.isl i).point = (s.isl i).point ∧
    (t.isl i).waitAt.isSome = (s.isl i).target.isSome ∧ t.g Reg.PWR_DROOP_CNT = min (s.g Reg.PWR_DROOP_CNT + 1) 0xFFFFFFFF ∧
    (∀ k : Fin 13, k ≠ i → t.isl k = s.isl k) ∧ t.mem = s.mem) ∧
  (∀ (s : State) (i : Fin 13), s.held = false → ∃ t, exec (.droopClear i) s = .next t ∧ t.isl i = { s.isl i with droop := false, waitAt := none } ∧
    (∀ k : Fin 13, k ≠ i → t.isl k = s.isl k) ∧ t.regs = s.regs ∧ t.mem = s.mem) ∧
  (∀ (s : State) (i : Fin 13) (w : Nat), s.held = false → (s.isl i).waitAt = some w → w + 1000000 ≤ s.ticks → ∃ t, exec (.opChangeAbandon i) s = .next t ∧
    t.isl i = { s.isl i with target := none, waitAt := none } ∧ t.g Reg.PWR_OP_ABANDON_CNT = min (s.g Reg.PWR_OP_ABANDON_CNT + 1) 0xFFFFFFFF ∧
    t.g Reg.SYS_EVR_SEQ = (s.g Reg.SYS_EVR_SEQ + 1) % 2 ^ 32 ∧ (∀ k : Fin 13, k ≠ i → t.isl k = s.isl k)) ∧
  (∀ (s : State) (i : Fin 13) (w : Nat), s.held = false → (s.isl i).waitAt = some w → s.ticks < w + 1000000 → exec (.opChangeAbandon i) s = .next (s.settle s))

/-- In RUN, no job shed, no alarm held and the floor not reached: a power above the effective cap lowers both compute ceilings by 1; with these at 0 it adds ceil(64 (P - C) / Pc) bubble cycles up to 56; with 56 it lowers the fabric ceiling. A power within 2 % below the cap changes no ceiling and no bubble; the tenth decision in a row further below raises the fabric ceiling, else takes a bubble away. PWR_POWER always shows the average. PWR_CAP takes 240 to 720 from firmware or MG and C follows; any other value is ignored and counted. The saving of a shed job is the fall of P, and its event is raised. -/
def Obligations.CapControllerTightensAndRelaxes : Prop :=
  (∀ (s : State) (rep : PowerRep), s.boot.phase = .started → s.g Reg.PWR_STS_STATE = 0 → s.pwr.sheds = [] → s.pwr.hold = false → s.pwr.floorAt = none → s.effCap < rep.p →
    (0 < s.g Reg.PWR_CEIL_AR_CEIL ∨ 0 < s.g Reg.PWR_CEIL_LN_CEIL) → ∃ t, exec (.capControlTick rep) s = .next t ∧ t.g Reg.PWR_POWER = rep.avg % 2 ^ 16 ∧
      t.g Reg.PWR_CEIL_AR_CEIL = s.g Reg.PWR_CEIL_AR_CEIL - 1 ∧ t.g Reg.PWR_CEIL_LN_CEIL = s.g Reg.PWR_CEIL_LN_CEIL - 1 ∧
      t.g Reg.PWR_CEIL_FB_CEIL = s.g Reg.PWR_CEIL_FB_CEIL ∧ t.g Reg.PWR_STS_DUTY = s.g Reg.PWR_STS_DUTY ∧ t.pwr.clock = s.pwr.clock + 1 ∧ t.mem = s.mem) ∧
  (∀ (s : State) (rep : PowerRep), s.boot.phase = .started → s.g Reg.PWR_STS_STATE = 0 → s.pwr.sheds = [] → s.pwr.hold = false → s.pwr.floorAt = none → s.effCap < rep.p →
    s.g Reg.PWR_CEIL_AR_CEIL = 0 → s.g Reg.PWR_CEIL_LN_CEIL = 0 → s.g Reg.PWR_STS_DUTY < 56 → rep.pc ≠ 0 → ∃ t, exec (.capControlTick rep) s = .next t ∧
      t.g Reg.PWR_STS_DUTY = min 56 (s.g Reg.PWR_STS_DUTY + ceilDiv (64 * (rep.p - s.effCap)) rep.pc) ∧
      t.g Reg.PWR_CEIL_FB_CEIL = s.g Reg.PWR_CEIL_FB_CEIL ∧ t.g Reg.PWR_CEIL_AR_CEIL = 0 ∧ t.mem = s.mem) ∧
  (∀ (s : State) (rep : PowerRep), s.boot.phase = .started → s.g Reg.PWR_STS_STATE = 0 → s.pwr.sheds = [] → s.pwr.hold = false → s.pwr.floorAt = none → s.effCap < rep.p →
    s.g Reg.PWR_CEIL_AR_CEIL = 0 → s.g Reg.PWR_CEIL_LN_CEIL = 0 → s.g Reg.PWR_STS_DUTY = 56 → 0 < s.g Reg.PWR_CEIL_FB_CEIL →
    ∃ t, exec (.capControlTick rep) s = .next t ∧ t.g Reg.PWR_CEIL_FB_CEIL = s.g Reg.PWR_CEIL_FB_CEIL - 1 ∧ t.g Reg.PWR_STS_DUTY = 56 ∧ t.mem = s.mem) ∧
  (∀ (s : State) (rep : PowerRep), s.boot.phase = .started → s.g Reg.PWR_STS_STATE = 0 → s.pwr.sheds = [] → s.pwr.hold = false → rep.p ≤ s.effCap →
    49 * s.effCap ≤ 50 * rep.p → ∃ t, exec (.capControlTick rep) s = .next t ∧ t.g Reg.PWR_CEIL_AR_CEIL = s.g Reg.PWR_CEIL_AR_CEIL ∧
      t.g Reg.PWR_CEIL_LN_CEIL = s.g Reg.PWR_CEIL_LN_CEIL ∧ t.g Reg.PWR_CEIL_FB_CEIL = s.g Reg.PWR_CEIL_FB_CEIL ∧ t.g Reg.PWR_STS_DUTY = s.g Reg.PWR_STS_DUTY ∧
      t.pwr.relax = 0 ∧ t.pwr.isl = s.pwr.isl ∧ t.mem = s.mem) ∧
  (∀ (s : State) (rep : PowerRep), s.boot.phase = .started → s.g Reg.PWR_STS_STATE = 0 → s.pwr.sheds = [] → s.pwr.hold = false → 50 * rep.p < 49 * s.effCap →
    s.pwr.relax = 9 → ∃ t, exec (.capControlTick rep) s = .next t ∧ t.pwr.relax = 0 ∧ t.mem = s.mem ∧
      (s.g Reg.PWR_CEIL_FB_CEIL < s.g Reg.PWR_ISL_CFG_FB_MAX → t.g Reg.PWR_CEIL_FB_CEIL = s.g Reg.PWR_CEIL_FB_CEIL + 1 ∧ t.g Reg.PWR_STS_DUTY = s.g Reg.PWR_STS_DUTY) ∧
      (s.g Reg.PWR_ISL_CFG_FB_MAX ≤ s.g Reg.PWR_CEIL_FB_CEIL → 0 < s.g Reg.PWR_STS_DUTY → t.g Reg.PWR_STS_DUTY = s.g Reg.PWR_STS_DUTY - 1)) ∧
  (∀ (s : State) (g : Byte) (v : Word), s.held = false → (g = 0 ∨ g = 0x70) → s.pwr.sheds = [] → s.pwr.hold = false → 240 ≤ v.toNat % 1024 → v.toNat % 1024 ≤ 720 →
    ∃ t, exec (.pwrCapWrite g v) s = .next t ∧ t.g Reg.PWR_CAP = v.toNat % 1024 ∧ t.g Reg.PWR_EFF_CAP = t.effCap ∧ t.mem = s.mem) ∧
  (∀ (s : State) (g : Byte) (v : Word), s.held = false → (g = 0 ∨ g = 0x70) → (v.toNat % 1024 < 240 ∨ 720 < v.toNat % 1024) → ∃ t, exec (.pwrCapWrite g v) s = .next t ∧
    t.g Reg.PWR_CAP = s.g Reg.PWR_CAP ∧ t.g Reg.SYS_WR_IGN_CNT = min (s.g Reg.SYS_WR_IGN_CNT + 1) 0xFFFFFFFF ∧ t.mem = s.mem) ∧
  (∀ (s : State) (p j p0 : Nat), s.held = false → s.pwr.measure = some (j, p0) → ∃ t, exec (.shedSavingMeasure p) s = .next t ∧ t.pwr.measure = none ∧
    t.pwr.sheds = s.pwr.sheds.map (fun x => if x.1 = j then (j, p0 - p) else x) ∧ t.g Reg.SYS_EVR_SEQ = (s.g Reg.SYS_EVR_SEQ + 1) % 2 ^ 32)

/-- A transition out of RUN does not complete while a unit of a background job is in flight. A transition to HOLD completes with every bank that was ON in RETENTION; one to KEEP with every link down; one to RUN with every bank that was in RETENTION ON. In KEEP, not tripped, a wake time reached starts the transition to RUN. A sample of the sensors shows the hottest and its sensor, and below 100 degrees changes nothing else; in RUN from 100 degrees it starts the thermal cap at 95 % of P, not below 120 W, counts, and alarms; from 115 degrees the device trips: TRIP_N and KEEP at once. -/
def Obligations.PowerStatesAndTemperatureAct : Prop :=
  (∀ (s : State) (c : Nat), s.held = false → s.pwr.trans = some ⟨1, c⟩ → (s.g Reg.PWR_STS_STATE = 0 → s.bgBusy = false) → ∃ t, exec .powerTransitionComplete s = .next t ∧ t.g Reg.PWR_STS_STATE = 1 ∧ t.pwr.trans = none ∧
    (∀ b : Fin 1024, t.bank b = if s.bank b = 1 then 2 else s.bank b) ∧ t.jobs = s.jobs) ∧
  (∀ (s : State) (c : Nat), s.held = false → s.pwr.trans = some ⟨2, c⟩ → (s.g Reg.PWR_STS_STATE = 0 → s.bgBusy = false) → s.pwr.wake = none → ∃ t, exec .powerTransitionComplete s = .next t ∧ t.g Reg.PWR_STS_STATE = 2 ∧
    t.pwr.trans = none ∧ t.mg.up = false ∧ t.sec.session = none ∧ t.mems.loft = [] ∧ t.fronds = Vector.replicate 6 Frond.idle) ∧
  (∀ (s : State) (x c : Nat), s.held = false → x ≠ 0 → s.pwr.trans = some ⟨x, c⟩ → s.g Reg.PWR_STS_STATE = 0 → s.bgBusy = true → exec .powerTransitionComplete s = .next s) ∧
  (∀ (s : State) (c : Nat), s.held = false → s.pwr.trans = some ⟨0, c⟩ → s.jobNums = [] → ∃ t, exec .powerTransitionComplete s = .next t ∧ t.g Reg.PWR_STS_STATE = 0 ∧
    t.pwr.trans = none ∧ t.pwr.wake = none ∧ ∀ b : Fin 1024, t.bank b = if s.bank b = 2 then 1 else s.bank b) ∧
  (∀ (s : State) (x y : Nat), s.held = false → s.pwr.wake = some (x, y) → s.g Reg.PWR_STS_STATE = 2 → s.pwr.trans = none → s.pwr.tripped = false →
    x * 1000000000 + y ≤ s.domA.nanos → ∃ t, exec .keepWakeTime s = .next t ∧ t.pwr.trans = some ⟨0, 1⟩ ∧ t.regs = s.regs ∧ t.mem = s.mem) ∧
  (∀ (s : State) (l : List (BitVec 16)), s.held = false → l ≠ [] → s.pwr.therm = none → (hottest l).1 < 800 → ∃ t, exec (.thermalSample l) s = .next t ∧
    t.g Reg.PWR_TEMP_T = toBits 16 (hottest l).1 ∧ t.g Reg.PWR_TEMP_SENSOR = (hottest l).2 % 32 ∧ t.flt.sensors = l ∧ t.pwr = { s.pwr with tclock := s.pwr.tclock + 1 } ∧
    t.jobs = s.jobs ∧ t.mem = s.mem ∧ ∀ a, a ≠ Reg.PWR_TEMP_T.addr → a ≠ Reg.PWR_TEMP_SENSOR.addr → t.reg a = s.reg a) ∧
  (∀ (s : State) (l : List (BitVec 16)), s.held = false → l ≠ [] → s.pwr.therm = none → 800 ≤ (hottest l).1 → (hottest l).1 < 920 → s.g Reg.PWR_STS_STATE = 0 →
    ∃ t, exec (.thermalSample l) s = .next t ∧ t.pwr.therm = some (max 960 (rneDiv (s.pwr.p * 95) 100)) ∧ t.g Reg.PWR_STS_THROTTLE = 1 ∧
      t.g Reg.PWR_THROTTLE_CNT = min (s.g Reg.PWR_THROTTLE_CNT + 1) 0xFFFFFFFF ∧ t.smbAlarms.getLsbD 1 = true ∧ t.g Reg.PWR_EFF_CAP = t.effCap % 2 ^ 12) ∧
  (∀ (s : State) (l : List (BitVec 16)), s.held = false → l ≠ [] → s.pwr.tripped = false → 920 ≤ (hottest l).1 → ∃ t, exec (.thermalSample l) s = .next t ∧
    t.pwr.tripped = true ∧ t.g Reg.PWR_STS_STATE = 2 ∧ t.g Reg.SYS_PIN_STS_TRIP = 1 ∧ t.mg.up = false ∧ t.mems.loft = [])

/-- A fabric timeout charged to an unowned location and a watchdog of an unowned unit are counted, and a first fault at a location not in the history is transient: counted, its entry added, its pattern test due. The hourly check empties the counts and makes a bank above the threshold due for its test. A test that passes is done; one that fails makes an unowned location permanent. The words that the copy to the spare cannot correct are poisoned. Expiry removes the location's entry once it is 86,400 s old; calibration changes nothing. MG returns the retired lanes whose bits it writes, any other agent's write is ignored. A record that programs is the next 32 bytes of the newest sector; an event record with no credit for a new sector is dropped and counted. The uptime record waits. -/
def Obligations.FaultCommandsClassifyAndJournal : Prop :=
  (∀ (s : State) (g : Byte) (j : Option (Fin 16)) (l : Loc) (a : Addr) (ok : Bool), s.held = false → chargeable (locOf l) = true → locKind (locOf l) ≠ 7 →
    s.locOwner (locOf l) = none → s.flt.hist.any (fun e => e.loc == locOf l) = false → s.flt.hist.length < 256 → ∃ t, exec (.fabricTimeout g j l a ok) s = .next t ∧
      t.g Reg.FLT_TIMEOUT_CNT = min (s.g Reg.FLT_TIMEOUT_CNT + 1) 0xFFFFFFFF ∧ t.g Reg.FLT_TRANSIENT_CNT = min (s.g Reg.FLT_TRANSIENT_CNT + 1) 0xFFFFFFFF ∧
      t.flt.hist = s.flt.hist ++ [⟨locOf l, s.g Reg.FLT_UPTIME⟩] ∧ t.flt.tests = s.flt.tests ++ [(locOf l, ok)] ∧ t.jobs = s.jobs) ∧
  (∀ (s : State) (g u : Byte) (l : Loc) (ok : Bool), s.held = false → locKind (locOf l) = 6 → locIndex (locOf l) ∈ [1, 3, 4, 6] → g.toNat % 16 = u.toNat % 16 →
    s.locOwner (locOf l) = none → s.flt.hist.any (fun e => e.loc == locOf l) = false → s.flt.hist.length < 256 → ∃ t, exec (.unitWatchdog g u l ok) s = .next t ∧
      t.g Reg.FLT_WD_CNT = min (s.g Reg.FLT_WD_CNT + 1) 0xFFFFFFFF ∧ t.flt.hist = s.flt.hist ++ [⟨locOf l, s.g Reg.FLT_UPTIME⟩] ∧
      t.flt.tests = s.flt.tests ++ [(locOf l, ok)] ∧ t.jobs = s.jobs) ∧
  (∀ (s : State) (b : Fin 1024) (n : Nat), s.held = false → s.flt.ce = [((locCode 1 15 b).toNat, n)] → s.g Reg.FLT_CFG_CE_THR < n →
    ∃ t, exec .ceRateCheck s = .next t ∧ t.flt.ce = [] ∧ t.flt.rateTests = s.flt.rateTests ++ [b.val] ∧ t.g Reg.SYS_EVR_SEQ = (s.g Reg.SYS_EVR_SEQ + 1) % 2 ^ 32) ∧
  (∀ (s : State) (b : Fin 1024) (l : List (Fin 8192)), s.held = false → s.flt.rateTests.contains b.val = true → ∃ t, exec (.granaryPatternTestDone b true l) s = .next t ∧
    t.flt.rateTests.contains b.val = false ∧ t.flt.perm = s.flt.perm ∧ t.jobs = s.jobs ∧ t.g Reg.FLT_PERM_CNT = s.g Reg.FLT_PERM_CNT) ∧
  (∀ (s : State) (b : Fin 1024) (k : Nat) (l : List (Fin 8192)), s.held = false → s.flt.rateTests.contains b.val = true → s.locOwner (locCode 1 15 b) = none →
    s.freeSpare = some k → ∃ t, exec (.granaryPatternTestDone b false l) s = .next t ∧
      (s.ringReady = false → ∀ w ∈ l, t.poisoned (grnBase + b.val * 0x40000 + 32 * w.val) 32 = true) ∧ t.g Reg.FLT_PERM_CNT = min (s.g Reg.FLT_PERM_CNT + 1) 0xFFFFFFFF ∧
      t.g (Reg.GRN_SPAREs_BANK k) = b.val ∧ t.g (Reg.GRN_SPAREs_USED k) = 1) ∧
  (∀ (s : State) (l : Loc), s.held = false → exec (.historyExpiry l) s =
    .next { s with flt := { s.flt with hist := s.flt.hist.filter (fun e => e.loc != locOf l || decide (s.g Reg.FLT_UPTIME - e.first < 86400)) } }) ∧
  (∀ s : State, s.held = false → exec .calibration s = .next s) ∧
  (∀ (s : State) (m : Word), s.held = false → ∃ t, exec (.laneReturn 0x70 m) s = .next t ∧
    (∀ i : Fin 32, (t.g Reg.FLT_LANE_RET).testBit i = ((s.g Reg.FLT_LANE_RET).testBit i && !m.getLsbD i)) ∧ t.mem = s.mem) ∧
  (∀ (s : State) (m : Word), s.held = false → m.toNat ≠ s.g Reg.FLT_LANE_RET → s.memw = false → ∃ t, exec (.laneReturn 0 m) s = .next t ∧
    t.g Reg.FLT_LANE_RET = s.g Reg.FLT_LANE_RET ∧ t.flt = s.flt ∧ t.g Reg.SYS_WR_IGN_CNT = min (s.g Reg.SYS_WR_IGN_CNT + 1) 0xFFFFFFFF) ∧
  (∀ (s : State) (r : JrnlRec) (e : Bool), s.held = false → s.jrnlOpen = true → s.jrnlHead = some r → match s.jrnlNewest with
      | some k => (if s.jrnlUsed k.1 < 127 ∧ s.flt.skipped.contains k.1 = false then (∃ t, exec (.journalRecordWrite true e) s = .next t ∧
          t.flash = (s.flSt (s.recAt k.1 (s.jrnlUsed k.1)) r.bytes).flash ∧ t.flt.waiting = s.flt.waiting.erase r ∧ t.regs = s.regs ∧ t.mem = s.mem)
        else exec (.journalRecordWrite true e) s = .next (s.settle (s.jrnlNew r (some k.1) (k.2 + 1) e)))
      | none => (if s.flt.credit = 0 ∧ r.event = true then (∃ t, exec (.journalRecordWrite true e) s = .next t ∧ t.flash = s.flash ∧ t.flt.waiting = s.flt.waiting.erase r ∧
          t.g Reg.FLT_JRNL_DROP_CNT = min (s.g Reg.FLT_JRNL_DROP_CNT + 1) 0xFFFFFFFF)
        else exec (.journalRecordWrite true e) s = .next (s.settle (s.jrnlNew r none 1 e)))) ∧
  (∀ s : State, s.held = false → ∃ t, exec .uptimeRecord s = .next t ∧ t.flt.waiting = s.flt.waiting ++ [⟨journalBytes 0xF004 0 (s.g Reg.FLT_UPTIME), false⟩] ∧
    t.flash = s.flash ∧ t.regs = s.regs ∧ t.mem = s.mem)

/-- With no pattern test or remedy waiting: a write of JOB and GO to JOB_RESTART by firmware or MG, of a job that exists, is not restarting and not shed, puts it into RESTARTING without counting toward its fault limit, and GO reads 0; of a job that does not exist or restarts already it is ignored and counted. A job whose restart completes, outside a re-binding and an adoption, its descriptor lists lying in its own space, is counted, has no restart left, and runs, or is SLICED_OUT when its ring runs another member. At the first slot boundary from AT on, and not before, every changed job of a re-binding has its new record and restarts. A restart that fails to start leaves the job RESTARTING. -/
def Obligations.JobsBecomeReadyAndRestart : Prop :=
  (∀ (s : State) (g : Byte) (v : Word) (j : Fin 16), s.held = false → (g = 0 ∨ g = 0x70) → v.getLsbD Reg.JOB_RESTART_GO.lo = true →
    bits v.toNat Reg.JOB_RESTART_JOB.lo Reg.JOB_RESTART_JOB.width = j.val → (s.job j).bind.valid = true → s.jst j ≠ 3 → s.jst j ≠ 4 → s.zeroLock = false →
    s.flt.tests = [] → s.flt.perm = [] → ∃ t, exec (.jobRestart g v) s = .next t ∧ t.jst j = 3 ∧ (t.job j).faults = (s.job j).faults ∧
      (t.job j).bind = (s.job j).bind ∧ (t.job j).restart.isSome = true ∧ t.g Reg.JOB_RESTART_GO = 0 ∧
      t.g Reg.SYS_EVR_SEQ = (s.g Reg.SYS_EVR_SEQ + 1) % 2 ^ 32 ∧ (∀ k : Fin 16, k ≠ j → t.job k = s.job k)) ∧
  (∀ (s : State) (g : Byte) (v : Word) (j : Fin 16), s.held = false → (g = 0 ∨ g = 0x70) → v.getLsbD Reg.JOB_RESTART_GO.lo = true →
    bits v.toNat Reg.JOB_RESTART_JOB.lo Reg.JOB_RESTART_JOB.width = j.val → ((s.job j).bind.valid = false ∨ s.jst j = 3) → v.toNat < 2 ^ 5 →
    ∃ t, exec (.jobRestart g v) s = .next t ∧ t.jobs = s.jobs ∧ t.fronds = s.fronds ∧ t.jst j = s.jst j ∧ t.mem = s.mem ∧
      t.g Reg.SYS_WR_IGN_CNT = min (s.g Reg.SYS_WR_IGN_CNT + 1) 0xFFFFFFFF) ∧
  (∀ (s : State) (j : Fin 16) (r : Restart), s.held = false → (s.job j).restart = some r → s.jst j = 3 → r.adopt = false → s.rebind = none → (s.job j).bind.role ≠ 3 →
    (∀ g, s.graph j = some g → ∀ x ∈ g.descriptors, s.access (unitSrc x.frond 6) j (grnBase + 32 * x.place.toNat) 32 true = .ok) →
    ∃ t, exec (.jobReady j true) s = .next t ∧ (t.job j).restart = none ∧
      t.jst j = (match s.rings.find? (fun x => x.fronds == (s.job j).bind.fronds) with
        | some x => (if (s.job j).bind.kind = true ∧ x.running ≠ j.val then 2 else 1)
        | none => 1) ∧
      t.g (Reg.JOB_jRESTART_CNT j) = min (s.g (Reg.JOB_jRESTART_CNT j) + 1) 0xFFFFFFFF ∧ (∀ k : Fin 16, k ≠ j → t.job k = s.job k)) ∧
  (∀ (s : State) (j : Fin 16) (r : Restart), s.held = false → (s.job j).restart = some r → s.jst j = 3 → s.adopt = none → exec (.jobReady j false) s = .next s) ∧
  (∀ (s : State) (b : Rebind), s.held = false → s.rebind = some b → b.recs ≠ [] → (b.recs.map (fun x => x.1)).Nodup → (∀ x ∈ b.recs, x.1 < 16 ∧ x.2.valid = true) →
    s.isMember = false → s.flt.tests = [] → s.flt.perm = [] → s.rebound b ≠ [] → s.slotBoundary = true → s.atReached false b.atSec b.atNs = true →
    ∃ t, exec .jobRebindBoundary s = .next t ∧
      (∀ x ∈ s.rebound b, (t.job x.1).bind = x.2 ∧ t.jst x.1 = 3) ∧ t.rebind = some { b with recs := [], named := (s.rebound b).map (fun x => x.1) }) ∧
  (∀ (s : State) (b : Rebind), s.held = false → s.rebind = some b → (s.slotBoundary = false ∨ s.atReached (s.isMember && b.recs.any (fun x => s.gjobs.testBit x.1)) b.atSec b.atNs = false) →
    exec .jobRebindBoundary s = .next (s.settle s))

/-- In RUN, a ring whose slice has lasted SLICE_MS less the overrun charged to it, in the time of domain A, and that has another member able to run, ends its slice, and none before. Once no unit of its fronds is busy the switch starts, and an overrun is counted. A ring still busy 100 us after the end sticks, and not before: the overrun counts and the switch starts, the outgoing job having faulted. A completed switch makes the next member run, shows it RUNNING when it was SLICED_OUT and the outgoing one SLICED_OUT when it was RUNNING, and counts. No other ring changes. -/
def Obligations.SlicesEndSwitchAndStick : Prop :=
  (∀ (s : State) (m : BitVec 6) (r : Ring) (n : Nat), s.held = false → s.ringBy m = some r → r.endedAt = none → s.ringNext r = some n → s.inRun = true →
    r.began + (s.job r.running).bind.sliceMs * 1000000 ≤ (s.dom .a).nanos + (s.job r.running).short →
    ∃ t, exec (.sliceEnd m) s = .next t ∧ t.ringBy m = some { r with endedAt := some s.ticks } ∧ (∀ q, q ≠ m → t.ringBy q = s.ringBy q) ∧ t.fronds = s.fronds ∧
      t.regs = s.regs ∧ t.mem = s.mem) ∧
  (∀ (s : State) (m : BitVec 6) (r : Ring) (n k : Nat), s.held = false → s.ringBy m = some r → r.endedAt = some k → s.ringNext r = some n → r.switch = false →
    s.ringBusy m = none → ∃ t, exec (.sliceSwitchStart m) s = .next t ∧ t.ringBy m = some { r with switch := true } ∧ (∀ q, q ≠ m → t.ringBy q = s.ringBy q) ∧
      t.g Reg.JOB_SLICE_OVR_CNT = (if s.jst r.running = 1 ∧ k < s.ticks then min (s.g Reg.JOB_SLICE_OVR_CNT + 1) 0xFFFFFFFF else s.g Reg.JOB_SLICE_OVR_CNT) ∧
      t.fronds = s.fronds ∧ t.mem = s.mem) ∧
  (∀ (s : State) (m : BitVec 6) (r : Ring) (k src : Nat), s.held = false → s.ringBy m = some r → r.endedAt = some k → r.switch = false → s.ringBusy m = some src →
    k + 100000 ≤ s.ticks → s.adopt = none → s.flt.tests = [] → s.flt.perm = [] → ∃ t, exec (.sliceStuck m) s = .next t ∧
      t.ringBy m = some { r with endedAt := some s.ticks, switch := true } ∧ t.g Reg.JOB_SLICE_OVR_CNT = min (s.g Reg.JOB_SLICE_OVR_CNT + 1) 0xFFFFFFFF) ∧
  (∀ (s : State) (m : BitVec 6) (r : Ring) (n : Nat), s.held = false → s.ringBy m = some r → r.switch = true → s.ringNext r = some n →
    ∃ t, exec (.sliceSwitchComplete m) s = .next t ∧ t.ringBy m = some ⟨m, n, (s.dom .a).nanos, none, false⟩ ∧ (∀ q, q ≠ m → t.ringBy q = s.ringBy q) ∧
      t.jst n = (if s.jst n = 2 then 1 else s.jst n) ∧ t.jst r.running = (if s.jst r.running = 1 then 2 else s.jst r.running) ∧
      t.g Reg.JOB_SWITCH_CNT = min (s.g Reg.JOB_SWITCH_CNT + 1) 0xFFFFFFFF ∧ (t.job n).saved = [] ∧ t.image = s.image) ∧
  (∀ (s : State) (m : BitVec 6) (r : Ring), s.held = false → s.ringBy m = some r →
    (s.dom .a).nanos + (s.job r.running).short < r.began + (s.job r.running).bind.sliceMs * 1000000 → exec (.sliceEnd m) s = .next (s.settle s)) ∧
  (∀ (s : State) (m : BitVec 6) (r : Ring) (k : Nat), s.held = false → s.ringBy m = some r → r.endedAt = some k → s.ticks < k + 100000 →
    exec (.sliceStuck m) s = .next (s.settle s))

/-- When a lane-wise instruction is the next of the running command, it runs: each lane of T(D) under the mask takes the result of R176, exact and rounded once for the arithmetic ones, NaN where an operand is NaN, every other lane keeps its value, every other temporary, the masks, scalars and slots stay, and the run moves to the next instruction or iteration; memory and all else stay. SEL takes T(A) or T(B) by the mask in every lane below VLEN. A comparison writes bit k of M(D) under the mask and keeps its other bits. NOP does nothing. With an infinite operand ADD, SUB, MUL, FMA, SCL and CMUL leave only the lanes of T(D) open; MIN, MAX, CLAMP, ABS and NEG keep an infinity, and SPL and CVT give the nearest limit (the model's reading, assumption log 5). -/
def Obligations.VectorLanesActUnderMask : Prop :=
  (∀ (s : State) (f : Fin 6) (r : VecRun) (o : VecOp), s.held = false → s.vecNext f = some (r, 0x05, o) → (∀ k ∈ r.lanes o, vecClosed [r.num o o.a k, r.num o o.b k] = true) → 
    ∃ t, exec (.vecAdd f) s = .next t ∧ s.vecWrote t f r o (fun k => (vtOf o.ty (vecExact [r.num o o.a k, r.num o o.b k] ((r.num o o.a k).add (r.num o o.b k)))).1)) ∧
  (∀ (s : State) (f : Fin 6) (r : VecRun) (o : VecOp), s.held = false → s.vecNext f = some (r, 0x06, o) → (∀ k ∈ r.lanes o, vecClosed [r.num o o.a k, r.num o o.b k] = true) → 
    ∃ t, exec (.vecSub f) s = .next t ∧ s.vecWrote t f r o (fun k => (vtOf o.ty (vecExact [r.num o o.a k, r.num o o.b k] ((r.num o o.a k).add (r.num o o.b k).neg))).1)) ∧
  (∀ (s : State) (f : Fin 6) (r : VecRun) (o : VecOp), s.held = false → s.vecNext f = some (r, 0x07, o) → (∀ k ∈ r.lanes o, vecClosed [r.num o o.a k, r.num o o.b k] = true) → 
    ∃ t, exec (.vecMul f) s = .next t ∧ s.vecWrote t f r o (fun k => (vtOf o.ty (vecExact [r.num o o.a k, r.num o o.b k] ((r.num o o.a k).mul (r.num o o.b k)))).1)) ∧
  (∀ (s : State) (f : Fin 6) (r : VecRun) (o : VecOp), s.held = false → s.vecNext f = some (r, 0x08, o) → (∀ k ∈ r.lanes o, vecClosed [r.num o o.a k, r.num o o.b k, r.num o o.c k] = true) → 
    ∃ t, exec (.vecFma f) s = .next t ∧ s.vecWrote t f r o (fun k => (vtOf o.ty (vecExact [r.num o o.a k, r.num o o.b k, r.num o o.c k] (((r.num o o.a k).mul (r.num o o.b k)).add (r.num o o.c k)))).1)) ∧
  (∀ (s : State) (f : Fin 6) (r : VecRun) (o : VecOp), s.held = false → s.vecNext f = some (r, 0x10, o) → (∀ k ∈ r.lanes o, vecClosed [r.num o o.a k] = true) → 
    ∃ t, exec (.vecScl f) s = .next t ∧ s.vecWrote t f r o (fun k => (vtOf o.ty (vecExact [r.num o o.a k] ((r.num o o.a k).scale o.imm.toInt))).1)) ∧
  (∀ (s : State) (f : Fin 6) (r : VecRun) (o : VecOp), s.held = false → s.vecNext f = some (r, 0x1E, o) → (∀ k ∈ r.lanes o, vecClosed [r.num o o.a (k / 2 * 2), r.num o o.a (k / 2 * 2 + 1), r.num o o.b (k / 2 * 2), r.num o o.b (k / 2 * 2 + 1)] = true) → 
    ∃ t, exec (.vecCmul f) s = .next t ∧ s.vecWrote t f r o (fun k =>
      (vtOf o.ty (vecExact [r.num o o.a (k / 2 * 2), r.num o o.a (k / 2 * 2 + 1), r.num o o.b (k / 2 * 2), r.num o o.b (k / 2 * 2 + 1)]
        (if k % 2 = 0 then ((r.num o o.a (k / 2 * 2)).mul (r.num o o.b (k / 2 * 2))).add ((r.num o o.a (k / 2 * 2 + 1)).mul (if o.imm.getLsbD 0 then (r.num o o.b (k / 2 * 2 + 1)).neg else r.num o o.b (k / 2 * 2 + 1))).neg else ((r.num o o.a (k / 2 * 2)).mul (if o.imm.getLsbD 0 then (r.num o o.b (k / 2 * 2 + 1)).neg else r.num o o.b (k / 2 * 2 + 1))).add ((r.num o o.a (k / 2 * 2 + 1)).mul (r.num o o.b (k / 2 * 2)))))).1)) ∧
  (∀ (s : State) (f : Fin 6) (r : VecRun) (o : VecOp), s.held = false → s.vecNext f = some (r, 0x09, o) → 
    ∃ t, exec (.vecMin f) s = .next t ∧ s.vecWrote t f r o (fun k => vecTaken o (numPick false (r.num o o.a k) (r.num o o.b k)))) ∧
  (∀ (s : State) (f : Fin 6) (r : VecRun) (o : VecOp), s.held = false → s.vecNext f = some (r, 0x0A, o) → 
    ∃ t, exec (.vecMax f) s = .next t ∧ s.vecWrote t f r o (fun k => vecTaken o (numPick true (r.num o o.a k) (r.num o o.b k)))) ∧
  (∀ (s : State) (f : Fin 6) (r : VecRun) (o : VecOp), s.held = false → s.vecNext f = some (r, 0x0B, o) → 
    ∃ t, exec (.vecAbs f) s = .next t ∧ s.vecWrote t f r o (fun k => vecTaken o ((r.num o o.a k).abs))) ∧
  (∀ (s : State) (f : Fin 6) (r : VecRun) (o : VecOp), s.held = false → s.vecNext f = some (r, 0x0C, o) → 
    ∃ t, exec (.vecNeg f) s = .next t ∧ s.vecWrote t f r o (fun k => vecTaken o ((r.num o o.a k).neg))) ∧
  (∀ (s : State) (f : Fin 6) (r : VecRun) (o : VecOp), s.held = false → s.vecNext f = some (r, 0x0D, o) → 
    ∃ t, exec (.vecClamp f) s = .next t ∧ s.vecWrote t f r o (fun k => vecTaken o (numPick false (numPick true (r.num o o.a k) (r.num o o.b k)) (r.num o o.c k)))) ∧
  (∀ (s : State) (f : Fin 6) (r : VecRun) (o : VecOp), s.held = false → s.vecNext f = some (r, 0x04, o) → 
    ∃ t, exec (.vecSpl f) s = .next t ∧ s.vecWrote t f r o (fun _ => (vtOf o.ty (scalarNum (vtFp o.ty).isSome (r.s.get o.a))).1)) ∧
  (∀ (s : State) (f : Fin 6) (r : VecRun) (o : VecOp), s.held = false → s.vecNext f = some (r, 0x11, o) → 
    ∃ t, exec (.vecCvt f) s = .next t ∧ s.vecWrote t f r o (fun k => (vtOf o.ty (vtNum ((vtype (o.imm.toNat % 8)).getD .int8) (laneOf (r.t.get o.a) (vtBytes ((vtype (o.imm.toNat % 8)).getD .int8)) k))).1)) ∧
  (∀ (s : State) (f : Fin 6) (r : VecRun) (o : VecOp), s.held = false → s.vecNext f = some (r, 0x03, o) → 
    ∃ t, exec (.vecMov f) s = .next t ∧ s.vecWrote t f r o (fun k => r.src o o.a k)) ∧
  (∀ (s : State) (f : Fin 6) (r : VecRun) (o : VecOp), s.held = false → s.vecNext f = some (r, 0x0E, o) → 
    ∃ t, exec (.vecShl f) s = .next t ∧ s.vecWrote t f r o (fun k => (vtOf o.ty ((r.num o o.a k).scale (o.imm.toNat % 32 : Nat))).1)) ∧
  (∀ (s : State) (f : Fin 6) (r : VecRun) (o : VecOp), s.held = false → s.vecNext f = some (r, 0x0F, o) → 
    ∃ t, exec (.vecShr f) s = .next t ∧ s.vecWrote t f r o (fun k => (vtOf o.ty ((r.num o o.a k).scale (-(o.imm.toNat % 32 : Nat)))).1)) ∧
  (∀ (s : State) (f : Fin 6) (r : VecRun) (o : VecOp), s.held = false → s.vecNext f = some (r, 0x12, o) → 
    ∃ t, exec (.vecAnd f) s = .next t ∧ s.vecWrote t f r o (fun k => r.src o o.a k &&& r.src o o.b k)) ∧
  (∀ (s : State) (f : Fin 6) (r : VecRun) (o : VecOp), s.held = false → s.vecNext f = some (r, 0x13, o) → 
    ∃ t, exec (.vecOr f) s = .next t ∧ s.vecWrote t f r o (fun k => r.src o o.a k ||| r.src o o.b k)) ∧
  (∀ (s : State) (f : Fin 6) (r : VecRun) (o : VecOp), s.held = false → s.vecNext f = some (r, 0x14, o) → 
    ∃ t, exec (.vecXor f) s = .next t ∧ s.vecWrote t f r o (fun k => r.src o o.a k ^^^ r.src o o.b k)) ∧
  (∀ (s : State) (f : Fin 6) (r : VecRun) (o : VecOp), s.held = false → s.vecNext f = some (r, 0x19, o) → 
    ∃ t, exec (.vecRcp f) s = .next t ∧ s.vecWrote t f r o (fun k => vecFnCode 0x19 o (r.src o o.a k))) ∧
  (∀ (s : State) (f : Fin 6) (r : VecRun) (o : VecOp), s.held = false → s.vecNext f = some (r, 0x1A, o) → 
    ∃ t, exec (.vecRsq f) s = .next t ∧ s.vecWrote t f r o (fun k => vecFnCode 0x1A o (r.src o o.a k))) ∧
  (∀ (s : State) (f : Fin 6) (r : VecRun) (o : VecOp), s.held = false → s.vecNext f = some (r, 0x1B, o) → 
    ∃ t, exec (.vecExp2 f) s = .next t ∧ s.vecWrote t f r o (fun k => vecFnCode 0x1B o (r.src o o.a k))) ∧
  (∀ (s : State) (f : Fin 6) (r : VecRun) (o : VecOp), s.held = false → s.vecNext f = some (r, 0x1C, o) → 
    ∃ t, exec (.vecLog2 f) s = .next t ∧ s.vecWrote t f r o (fun k => vecFnCode 0x1C o (r.src o o.a k))) ∧
  (∀ (s : State) (f : Fin 6) (r : VecRun) (o : VecOp), s.held = false → s.vecNext f = some (r, 0x15, o) → 
    ∃ t, exec (.vecClt f) s = .next t ∧ s.vecMasked t f r o (fun a b => a.lt b)) ∧
  (∀ (s : State) (f : Fin 6) (r : VecRun) (o : VecOp), s.held = false → s.vecNext f = some (r, 0x16, o) → 
    ∃ t, exec (.vecCle f) s = .next t ∧ s.vecMasked t f r o (fun a b => a.lt b || a.eq b)) ∧
  (∀ (s : State) (f : Fin 6) (r : VecRun) (o : VecOp), s.held = false → s.vecNext f = some (r, 0x17, o) → 
    ∃ t, exec (.vecCeq f) s = .next t ∧ s.vecMasked t f r o (fun a b => a.eq b)) ∧
  (∀ (s : State) (f : Fin 6) (c : Instr) (op : Nat) (r : VecRun) (o : VecOp), (c, op) ∈ vecRoundCommands f → s.held = false → s.vecNext f = some (r, op, o) →
    ∃ t, exec c s = .next t ∧ t.vecRunOf f = { s.vecAfter f r with t := (t.vecRunOf f).t } ∧ (∀ x, x ≠ o.d → (t.vecRunOf f).t.get x = r.t.get x) ∧
      t.mem = s.mem ∧ t.jobs = s.jobs ∧ (∀ g, g ≠ f → t.fr g = s.fr g) ∧ (t.fr f).vec.queue = (s.fr f).vec.queue ∧ (t.fr f).vec.sums = (s.fr f).vec.sums) ∧
  (∀ (s : State) (f : Fin 6) (r : VecRun) (o : VecOp), s.held = false → s.vecNext f = some (r, 0x18, o) →
    ∃ t, exec (.vecSel f) s = .next t ∧ s.vecOnly f t ∧
      t.vecRunOf f = { s.vecAfter f r with t := (t.vecRunOf f).t } ∧ (∀ x, x ≠ o.d → (t.vecRunOf f).t.get x = r.t.get x) ∧
      ∀ k : Nat, k < 512 / vtBytes o.ty → laneOf ((t.vecRunOf f).t.get o.d) (vtBytes o.ty) k =
        (if r.vlen ≤ k then laneOf (r.t.get o.d) (vtBytes o.ty) k else if r.masked o k then r.src o o.a k else r.src o o.b k)) ∧
  (∀ (s : State) (f : Fin 6) (r : VecRun) (o : VecOp), s.held = false → s.vecNext f = some (r, 0x00, o) →
    ∃ t, exec (.vecNop f) s = .next t ∧ s.vecOnly f t ∧ t.vecRunOf f = s.vecAfter f r)

/-- LD gives each lane under the mask the element at the port's place for the iteration, converted to TYPE; a poisoned element faults the job instead. ST in TYPE's own format writes the code of each lane under the mask to its bytes, low byte first, and no other byte of memory changes; with IMM[7] it stores only in the last iteration. In every format no byte outside the port's vector and the BS8 shift map changes. LUT takes the entry numbered by the low 8 bits of the lane. PERM takes the lane that T(B) names, 0 at or beyond VLEN, and counts and marks those. Each retry of LD and ST at the window counts in LEAF_WIN_BUSY_CNT. -/
def Obligations.VectorMemoryInstructionsAct : Prop :=
  (∀ (s : State) (f : Fin 6) (b : Nat) (r : VecRun) (o : VecOp), s.held = false → s.vecNext f = some (r, 0x01, o) →
    (r.lanes o).any (fun k => s.lanePoison f (vport r.cmd (o.imm.toNat % 4)).fmt ((vport r.cmd (o.imm.toNat % 4)).at r.iter) k) = false →
    ∃ t, exec (.vecLd f b) s = .next t ∧ (s.addc (Reg.LEAF_WIN_BUSY_CNT f) b).vecOnly f t ∧
      t.vecRunOf f = { s.vecAfter f r with t := (t.vecRunOf f).t } ∧ (∀ x, x ≠ o.d → (t.vecRunOf f).t.get x = r.t.get x) ∧
      ∀ k : Nat, k < 512 / vtBytes o.ty → laneOf ((t.vecRunOf f).t.get o.d) (vtBytes o.ty) k = (if r.masked o k then
        s.loadLane f o.ty (vport r.cmd (o.imm.toNat % 4)).fmt ((vport r.cmd (o.imm.toNat % 4)).at r.iter) k % 2 ^ (8 * vtBytes o.ty)
        else laneOf (r.t.get o.d) (vtBytes o.ty) k)) ∧
  (∀ (s : State) (f : Fin 6) (ty : VType) (w k : Nat), s.loadLane f ty (ownFmt ty) w k = s.ldN (leafBase f + 0x500000 + w + vtBytes ty * k) (vtBytes ty)) ∧
  (∀ (s : State) (f : Fin 6) (b : Nat) (r : VecRun) (o : VecOp), s.held = false → s.vecNext f = some (r, 0x02, o) → (o.imm.getLsbD 7 = false ∨ r.iter + 1 = r.nv) →
    (vport r.cmd (3 + o.imm.toNat % 2)).fmt = ownFmt o.ty → ∃ t, exec (.vecSt f b) s = .next t ∧ t.vecRunOf f = s.vecAfter f r ∧
      t.g (Reg.LEAF_WIN_BUSY_CNT f) = min (s.g (Reg.LEAF_WIN_BUSY_CNT f) + b) 0xFFFFFFFF ∧ (∀ k ∈ r.lanes o, t.ldN (leafBase f + 0x500000 + (vport r.cmd (3 + o.imm.toNat % 2)).at r.iter + vtBytes o.ty * k) (vtBytes o.ty) = r.src o o.a k) ∧
      t.fronds = s.fronds.set f (t.fr f) ∧ t.jobs = s.jobs ∧
      ∀ a : Nat, (a < leafBase f + 0x500000 + (vport r.cmd (3 + o.imm.toNat % 2)).at r.iter ∨
        r.masked o ((a - (leafBase f + 0x500000 + (vport r.cmd (3 + o.imm.toNat % 2)).at r.iter)) / vtBytes o.ty) = false) → t.ld1 a = s.ld1 a) ∧
  (∀ (s : State) (f : Fin 6) (b : Nat) (r : VecRun) (o : VecOp), s.held = false → s.vecNext f = some (r, 0x02, o) → o.imm.getLsbD 7 = true → r.iter + 1 ≠ r.nv →
    ∃ t, exec (.vecSt f b) s = .next t ∧ s.vecOnly f t ∧ t.vecRunOf f = s.vecAfter f r) ∧
  (∀ (s : State) (f : Fin 6) (b : Nat) (r : VecRun) (o : VecOp) (p : VPort) (w : Nat), s.held = false → s.vecNext f = some (r, 0x02, o) → p = vport r.cmd (3 + o.imm.toNat % 2) →
    w = p.at r.iter → ∃ t, exec (.vecSt f b) s = .next t ∧ (t.vecRunOf f).t = r.t ∧ (t.vecRunOf f).m = r.m ∧ (t.vecRunOf f).s = r.s ∧
      ∀ a : Nat, (a < winAddr f w ∨ winAddr f w + ceilDiv (r.vlen * portBits p.fmt) 8 ≤ a) →
        (p.fmt = 0xB → ∀ i, i < r.vlen / 32 → a ≠ s.bs8Addr f (0x500000 + w + 32 * i)) → t.ld1 a = s.ld1 a) ∧
  (∀ (s : State) (f : Fin 6) (r : VecRun) (o : VecOp), s.held = false → s.vecNext f = some (r, 0x1F, o) →
    (∀ k ∈ r.lanes o, s.poisoned (leafBase f + 0x500000 + 32 * cfield r.cmd 2 16 15 + 32 + 1024 * (o.imm.toNat % 4) + vtBytes o.ty * (r.src o o.a k % 256)) (vtBytes o.ty) = false) →
    ∃ t, exec (.vecLut f) s = .next t ∧ s.vecOnly f t ∧
      t.vecRunOf f = { s.vecAfter f r with t := (t.vecRunOf f).t } ∧ (∀ x, x ≠ o.d → (t.vecRunOf f).t.get x = r.t.get x) ∧
      ∀ k : Nat, k < 512 / vtBytes o.ty → laneOf ((t.vecRunOf f).t.get o.d) (vtBytes o.ty) k = (if r.masked o k then
        s.ldN (leafBase f + 0x500000 + 32 * cfield r.cmd 2 16 15 + 32 + 1024 * (o.imm.toNat % 4) + vtBytes o.ty * (r.src o o.a k % 256)) (vtBytes o.ty)
        else laneOf (r.t.get o.d) (vtBytes o.ty) k)) ∧
  (∀ (s : State) (f : Fin 6) (r : VecRun) (o : VecOp), s.held = false → s.vecNext f = some (r, 0x1D, o) → (1 < vtBytes o.ty ∨ o.b.val % 2 = 0) →
    ∃ t, exec (.vecPerm f) s = .next t ∧ (∀ x, x ≠ o.d → (t.vecRunOf f).t.get x = r.t.get x) ∧ (t.vecRunOf f).m = r.m ∧ (t.vecRunOf f).s = r.s ∧
      t.g (Reg.VEC_OOR_CNT f) = min (s.g (Reg.VEC_OOR_CNT f) + (r.lanes o).countP (fun k => decide (r.vlen ≤ vecPermIndex r o k))) 0xFFFFFFFF ∧
      t.mem = s.mem ∧ ∀ k : Nat, k < 512 / vtBytes o.ty → laneOf ((t.vecRunOf f).t.get o.d) (vtBytes o.ty) k =
        (if r.masked o k = false then laneOf (r.t.get o.d) (vtBytes o.ty) k
          else if vecPermIndex r o k < r.vlen then r.src o o.a (vecPermIndex r o k) else 0)) ∧
  (∀ (s : State) (f : Fin 6) (b : Nat) (r : VecRun) (o : VecOp) (j : Nat), s.held = false → s.vecNext f = some (r, 0x01, o) → s.jobOf f = some j → s.plainJob j →
    (r.lanes o).any (fun k => s.lanePoison f (vport r.cmd (o.imm.toNat % 4)).fmt ((vport r.cmd (o.imm.toNat % 4)).at r.iter) k) = true →
    ∃ t, exec (.vecLd f b) s = .next t ∧ (t.jst j = 3 ∨ t.jst j = 5)) ∧
  (∀ (s : State) (f : Fin 6) (r : VecRun) (o : VecOp) (j k : Nat), s.held = false → s.vecNext f = some (r, 0x1F, o) → s.jobOf f = some j → s.plainJob j → k ∈ r.lanes o →
    s.poisoned (leafBase f + 0x500000 + 32 * cfield r.cmd 2 16 15 + 32 + 1024 * (o.imm.toNat % 4) + vtBytes o.ty * (r.src o o.a k % 256)) (vtBytes o.ty) = true →
    ∃ t, exec (.vecLut f) s = .next t ∧ (t.jst j = 3 ∨ t.jst j = 5))

/-- RSUM in an integer TYPE adds the lanes under the mask, and S(D) when IMM[0] is 1, saturating at INT32 at every addition and counting each; in an FP type with DET = 1 it folds the lanes below VLEN, 0 where the mask is off, by the pairwise FP32 tree, then adds S(D). RMAX, RMIN and their index forms take the extreme of the lanes under the mask that are not NaN, the lowest lane of equal ones; with IMM[0] = 1 only when it beats S(D). RMAXI and RMINI put iteration x VLEN + lane in S(D+1). SUMOUT puts S(A) in slot IMM[3:0]. Temporaries, masks and all other scalars stay, and so does memory. -/
def Obligations.VectorReductionsAct : Prop :=
  (∀ (s : State) (f : Fin 6) (r : VecRun) (o : VecOp), s.held = false → s.vecNext f = some (r, 0x20, o) → vtFp o.ty = none →
    ∃ t, exec (.vecRsum f) s = .next t ∧ t.vecRunOf f = { s.vecAfter f r with s := (t.vecRunOf f).s } ∧ (∀ x, x ≠ o.d → (t.vecRunOf f).s.get x = r.s.get x) ∧
      ((t.vecRunOf f).s.get o.d).toInt = ((r.lanes o).map (fun k => sx (8 * vtBytes o.ty) (r.src o o.a k))).foldl (fun a x => satS 32 (a + x))
        (if o.imm.getLsbD 0 = true then (r.s.get o.d).toInt else 0) ∧
      s.g (Reg.VEC_SAT_CNT f) ≤ t.g (Reg.VEC_SAT_CNT f) ∧ t.mem = s.mem ∧ t.jobs = s.jobs) ∧
  (∀ (s : State) (f : Fin 6) (r : VecRun) (o : VecOp), s.held = false → s.vecNext f = some (r, 0x20, o) → (vtFp o.ty).isSome = true → s.det = true →
    (∀ k ∈ r.lanes o, (r.num o o.a k).isInf = false) → (o.imm.getLsbD 0 = true → (scalarNum true (r.s.get o.d)).isInf = false) →
    ∃ t, exec (.vecRsum f) s = .next t ∧ s.vecOnly f t ∧ t.vecRunOf f = { s.vecAfter f r with s := (t.vecRunOf f).s } ∧
      (∀ x, x ≠ o.d → (t.vecRunOf f).s.get x = r.s.get x) ∧
      (t.vecRunOf f).s.get o.d = BitVec.ofNat 32 (if o.imm.getLsbD 0 = true
        then addF32 (r.s.get o.d).toNat (foldTree 10 ((List.range r.vlen).map (fun k => if r.masked o k then toF32 (r.num o o.a k) else 0)))
        else foldTree 10 ((List.range r.vlen).map (fun k => if r.masked o k then toF32 (r.num o o.a k) else 0)))) ∧
  (∀ (s : State) (f : Fin 6) (r : VecRun) (o : VecOp) (k : Nat) (x : Machine.Num), s.held = false → s.vecNext f = some (r, 0x21, o) →
    extreme true ((r.lanes o).map (fun k => (k, r.num o o.a k))) = some (k, x) → ∃ t, exec (.vecRmax f) s = .next t ∧ s.vecReduced t f r o true false k x) ∧
  (∀ (s : State) (f : Fin 6) (r : VecRun) (o : VecOp) (k : Nat) (x : Machine.Num), s.held = false → s.vecNext f = some (r, 0x22, o) →
    extreme false ((r.lanes o).map (fun k => (k, r.num o o.a k))) = some (k, x) → ∃ t, exec (.vecRmin f) s = .next t ∧ s.vecReduced t f r o false false k x) ∧
  (∀ (s : State) (f : Fin 6) (r : VecRun) (o : VecOp) (k : Nat) (x : Machine.Num), s.held = false → s.vecNext f = some (r, 0x23, o) →
    extreme true ((r.lanes o).map (fun k => (k, r.num o o.a k))) = some (k, x) → o.d.val % 2 = 0 → ∃ t, exec (.vecRmaxi f) s = .next t ∧ s.vecReduced t f r o true true k x) ∧
  (∀ (s : State) (f : Fin 6) (r : VecRun) (o : VecOp) (k : Nat) (x : Machine.Num), s.held = false → s.vecNext f = some (r, 0x24, o) →
    extreme false ((r.lanes o).map (fun k => (k, r.num o o.a k))) = some (k, x) → o.d.val % 2 = 0 → ∃ t, exec (.vecRmini f) s = .next t ∧ s.vecReduced t f r o false true k x) ∧
  (∀ (s : State) (f : Fin 6) (c : Instr) (op : Nat) (g i : Bool) (r : VecRun) (o : VecOp), (c, op, g, i) ∈ [(Instr.vecRmax f, 0x21, true, false), (Instr.vecRmin f, 0x22, false, false),
    (Instr.vecRmaxi f, 0x23, true, true), (Instr.vecRmini f, 0x24, false, true)] → s.held = false → s.vecNext f = some (r, op, o) →
    extreme g ((r.lanes o).map (fun k => (k, r.num o o.a k))) = none → o.imm.getLsbD 0 = true → ∃ t, exec c s = .next t ∧ s.vecOnly f t ∧ t.vecRunOf f = s.vecAfter f r) ∧
  (∀ (g : Bool) (l : List (Nat × Machine.Num)) (k : Nat) (x : Machine.Num), extreme g l = some (k, x) → (k, x) ∈ l ∧ x ≠ .nan) ∧
  (∀ (g : Bool) (l : List (Nat × Machine.Num)), extreme g l = none ↔ ∀ e ∈ l, e.2 = .nan) ∧
  (∀ (s : State) (f : Fin 6) (r : VecRun) (o : VecOp), s.held = false → s.vecNext f = some (r, 0x25, o) →
    ∃ t, exec (.vecSumout f) s = .next t ∧ s.vecOnly f t ∧ t.vecRunOf f = { s.vecAfter f r with slots := (t.vecRunOf f).slots } ∧
      (t.vecRunOf f).slots.get (Fin.ofNat 16 o.imm.toNat) = r.s.get o.a ∧ (∀ i, i ≠ Fin.ofNat 16 o.imm.toNat → (t.vecRunOf f).slots.get i = r.slots.get i))

/-- A push by a writer that may write FW fields enters the sixteen words in the queue; with 16 queued it is ignored and counted. A head command that passes the check starts with T0 to T7 zero, M0 with the bits below VLEN, S0 to S7 its constants; one that fails is not run, is recorded with its lowest code when it is the first, stops the engine, and the job faults. A finished command whose summary fits enters it, posts, counts and frees the engine; with a full summary queue it holds its completion. A pop removes the head record; on an empty queue it is ignored and counted. -/
def Obligations.VectorCommandsQueueRunAndComplete : Prop :=
  (∀ (s : State) (g : Byte) (f : Fin 6) (v : Word), s.held = false → s.agentJob g.toNat = none → s.mayWrite g.toNat .fw = true → v = 1 → (s.fr f).vec.queue.length < 16 →
    ∃ t, exec (.vecCmdPush g f v) s = .next t ∧ (t.fr f).vec = { (s.fr f).vec with queue := (s.fr f).vec.queue ++ [(List.range 16).map (fun i => s.reg (Reg.VEC_CMD_Ww f i).addr)] } ∧
      t.g (Reg.VEC_STS_FREE f) = 15 - (s.fr f).vec.queue.length ∧ t.mem = s.mem ∧ (∀ h, h ≠ f → t.fr h = s.fr h)) ∧
  (∀ (s : State) (g : Byte) (f : Fin 6) (v : Word), s.held = false → s.agentJob g.toNat = none → s.mayWrite g.toNat .fw = true → v = 1 → 16 ≤ (s.fr f).vec.queue.length →
    ∃ t, exec (.vecCmdPush g f v) s = .next t ∧ t.fronds = s.fronds ∧ t.g Reg.SYS_WR_IGN_CNT = min (s.g Reg.SYS_WR_IGN_CNT + 1) 0xFFFFFFFF) ∧
  (∀ (s : State) (f : Fin 6) (c : List Word) (q : List (List Word)) (j : Nat), s.held = false → (s.fr f).vec.queue = c :: q → (s.fr f).vec.run = none →
    (s.fr f).vec.halted = false → s.jobOf f = some j → s.frondRuns f = true → s.vecCheck f j c = 0 → s.poisoned (winAddr f (32 * cfield c 2 16 15)) 32 = false →
    ∃ t, exec (.vecCommandStart f) s = .next t ∧ (t.fr f).vec.queue = q ∧ (t.fr f).vec.run = some (t.vecRunOf f) ∧ (t.vecRunOf f).cmd = c ∧
      (t.vecRunOf f).iter = 0 ∧ (t.vecRunOf f).pc = 0 ∧ (∀ i, (t.vecRunOf f).t.get i = 0) ∧ (∀ i, (t.vecRunOf f).slots.get i = 0) ∧
      (∀ i, (t.vecRunOf f).s.get i = BitVec.ofNat 32 (s.ldN (winAddr f (32 * cfield c 2 16 15) + 4 * i.val) 4)) ∧ t.mem = s.mem ∧
      ∀ k : Nat, k < 512 → ((t.vecRunOf f).m.get 0).getLsbD k = decide (k < cfield c 0 9 10) ∧ ((t.vecRunOf f).m.get 3).getLsbD k = decide (k < cfield c 0 9 10)) ∧
  (∀ (s : State) (f : Fin 6) (c : List Word) (q : List (List Word)) (j : Nat), s.held = false → (s.fr f).vec.queue = c :: q → (s.fr f).vec.run = none →
    (s.fr f).vec.halted = false → s.jobOf f = some j → s.frondRuns f = true → s.vecCheck f j c ≠ 0 → s.plainJob j →
    ∃ t, exec (.vecCommandStart f) s = .next t ∧ (t.fr f).vec.run = none ∧ (t.jst j = 3 ∨ t.jst j = 5)) ∧
  (∀ (s : State) (f : Fin 6) (r : VecRun), s.held = false → (s.fr f).vec.run = some r → r.nv ≤ r.iter → (cfield r.cmd 0 19 1 = 0 ∨ (s.fr f).vec.sums.length < 16) →
    cfield r.cmd 2 12 4 = 0 → ∃ t, exec (.vecCommandComplete f none) s = .next t ∧ (t.fr f).vec.run = none ∧ (t.fr f).vec.queue = (s.fr f).vec.queue ∧
      (t.fr f).vec.sums = (s.fr f).vec.sums ++ (if cfield r.cmd 0 19 1 = 1 then [⟨BitVec.ofNat 16 (cfield r.cmd 1 16 16), r.slots⟩] else []) ∧
      t.g (Reg.VEC_CMD_CNT f) = min (s.g (Reg.VEC_CMD_CNT f) + 1) 0xFFFFFFFF ∧ t.mem = s.mem ∧ (∀ h, h ≠ f → t.fr h = s.fr h)) ∧
  (∀ (s : State) (f : Fin 6) (r : VecRun), s.held = false → (s.fr f).vec.run = some r → r.nv ≤ r.iter → cfield r.cmd 0 19 1 = 1 → 16 ≤ (s.fr f).vec.sums.length →
    ∃ t, exec (.vecCommandComplete f none) s = .next t ∧ t.fronds = s.fronds ∧ t.g (Reg.VEC_SUM_FULL_CNT f) = min (s.g (Reg.VEC_SUM_FULL_CNT f) + 1) 0xFFFFFFFF) ∧
  (∀ (s : State) (f : Fin 6) (r : VecRun), s.held = false → (s.fr f).vec.run = some r → r.nv ≤ r.iter → (cfield r.cmd 0 19 1 = 0 ∨ (s.fr f).vec.sums.length < 16) →
    cfield r.cmd 2 0 11 < 0x100 → cfield r.cmd 2 11 1 = 0 → s.g (Reg.STR_SEMs_FULL f (cfield r.cmd 2 0 11)) + cfield r.cmd 2 12 4 ≤ 65535 →
    ∃ t, exec (.vecCommandComplete f none) s = .next t ∧ (t.fr f).vec.run = none ∧
      t.g (Reg.STR_SEMs_FULL f (cfield r.cmd 2 0 11)) = s.g (Reg.STR_SEMs_FULL f (cfield r.cmd 2 0 11)) + cfield r.cmd 2 12 4) ∧
  (∀ (s : State) (g : Byte) (f : Fin 6) (v : Word) (x : SumRec) (l : List SumRec), s.held = false → s.agentJob g.toNat = none → s.mayWrite g.toNat .fw = true → v = 1 →
    (s.fr f).vec.sums = x :: l → ∃ t, exec (.vecSumPop g f v) s = .next t ∧ (t.fr f).vec = { (s.fr f).vec with sums := l } ∧ t.mem = s.mem) ∧
  (∀ (s : State) (g : Byte) (f : Fin 6) (v : Word), s.held = false → s.agentJob g.toNat = none → s.mayWrite g.toNat .fw = true → v = 1 → (s.fr f).vec.sums = [] →
    ∃ t, exec (.vecSumPop g f v) s = .next t ∧ t.fronds = s.fronds ∧ t.g Reg.SYS_WR_IGN_CNT = min (s.g Reg.SYS_WR_IGN_CNT + 1) 0xFFFFFFFF)

/-- An instruction that a running core executes, with moves that break no rule, writes D(DD), and D(DD+1) where it has two results, from values read at its start: complex and 32-bit arithmetic saturated, shifts and RNDA rounded half to even, MOVI sign-extended, RCP, RSQ, MFS. Registers that neither it nor a load names keep their values; so do accumulators, steps, lengths, phase, IX, IEN, IVEC, mailboxes and call stack. Busy and stall cycles count. CMAC2 adds the exact products to ACC(DD) and ACC(DD+1), each part saturating at 40 bits; CLRA clears one. Other cores, jobs and bytes not stored to stay. The operands of RNDA, CLRA, shifts and MOVI are read as assumption log 24 says. -/
def Obligations.SignalComputeWritesItsResult : Prop :=
  (∀ (s : State) (k : CoreRef) (o : SigOp) (st : Nat), s.sigGoes k o → (s.core k).flowBad .seq = [] → ∃ t, exec (.sigCmul2 k false st) s = .next t ∧ s.sigDone t k o (.sigCmul2 k false st) 1 st ∧ ∀ a : Nat, s.sigStores k o a = false → t.ld1 a = s.ld1 a) ∧
  (∀ (s : State) (k : CoreRef) (o : SigOp) (st : Nat), s.sigGoes k o → (s.core k).flowBad .seq = [] → ∃ t, exec (.sigCadd2 k false st) s = .next t ∧ s.sigDone t k o (.sigCadd2 k false st) 1 st ∧ ∀ a : Nat, s.sigStores k o a = false → t.ld1 a = s.ld1 a) ∧
  (∀ (s : State) (k : CoreRef) (o : SigOp) (st : Nat), s.sigGoes k o → (s.core k).flowBad .seq = [] → ∃ t, exec (.sigCsub2 k false st) s = .next t ∧ s.sigDone t k o (.sigCsub2 k false st) 1 st ∧ ∀ a : Nat, s.sigStores k o a = false → t.ld1 a = s.ld1 a) ∧
  (∀ (s : State) (k : CoreRef) (o : SigOp) (st : Nat), s.sigGoes k o → (s.core k).flowBad .seq = [] → ∃ t, exec (.sigAdd k false st) s = .next t ∧ s.sigDone t k o (.sigAdd k false st) 1 st ∧ ∀ a : Nat, s.sigStores k o a = false → t.ld1 a = s.ld1 a) ∧
  (∀ (s : State) (k : CoreRef) (o : SigOp) (st : Nat), s.sigGoes k o → (s.core k).flowBad .seq = [] → ∃ t, exec (.sigSub k false st) s = .next t ∧ s.sigDone t k o (.sigSub k false st) 1 st ∧ ∀ a : Nat, s.sigStores k o a = false → t.ld1 a = s.ld1 a) ∧
  (∀ (s : State) (k : CoreRef) (o : SigOp) (st : Nat), s.sigGoes k o → (s.core k).flowBad .seq = [] → ∃ t, exec (.sigAnd k false st) s = .next t ∧ s.sigDone t k o (.sigAnd k false st) 1 st ∧ ∀ a : Nat, s.sigStores k o a = false → t.ld1 a = s.ld1 a) ∧
  (∀ (s : State) (k : CoreRef) (o : SigOp) (st : Nat), s.sigGoes k o → (s.core k).flowBad .seq = [] → ∃ t, exec (.sigOr k false st) s = .next t ∧ s.sigDone t k o (.sigOr k false st) 1 st ∧ ∀ a : Nat, s.sigStores k o a = false → t.ld1 a = s.ld1 a) ∧
  (∀ (s : State) (k : CoreRef) (o : SigOp) (st : Nat), s.sigGoes k o → (s.core k).flowBad .seq = [] → ∃ t, exec (.sigXor k false st) s = .next t ∧ s.sigDone t k o (.sigXor k false st) 1 st ∧ ∀ a : Nat, s.sigStores k o a = false → t.ld1 a = s.ld1 a) ∧
  (∀ (s : State) (k : CoreRef) (o : SigOp) (st : Nat), s.sigGoes k o → (s.core k).flowBad .seq = [] → ∃ t, exec (.sigShl k false st) s = .next t ∧ s.sigDone t k o (.sigShl k false st) 1 st ∧ ∀ a : Nat, s.sigStores k o a = false → t.ld1 a = s.ld1 a) ∧
  (∀ (s : State) (k : CoreRef) (o : SigOp) (st : Nat), s.sigGoes k o → (s.core k).flowBad .seq = [] → ∃ t, exec (.sigShr k false st) s = .next t ∧ s.sigDone t k o (.sigShr k false st) 1 st ∧ ∀ a : Nat, s.sigStores k o a = false → t.ld1 a = s.ld1 a) ∧
  (∀ (s : State) (k : CoreRef) (o : SigOp) (st : Nat), s.sigGoes k o → (s.core k).flowBad .seq = [] → ∃ t, exec (.sigMov k false st) s = .next t ∧ s.sigDone t k o (.sigMov k false st) 1 st ∧ ∀ a : Nat, s.sigStores k o a = false → t.ld1 a = s.ld1 a) ∧
  (∀ (s : State) (k : CoreRef) (o : SigOp) (st : Nat), s.sigGoes k o → (s.core k).flowBad .seq = [] → ∃ t, exec (.sigMovi k false st) s = .next t ∧ s.sigDone t k o (.sigMovi k false st) 1 st ∧ ∀ a : Nat, s.sigStores k o a = false → t.ld1 a = s.ld1 a) ∧
  (∀ (s : State) (k : CoreRef) (o : SigOp) (st : Nat), s.sigGoes k o → (s.core k).flowBad .seq = [] → ∃ t, exec (.sigRcp k false st) s = .next t ∧ s.sigDone t k o (.sigRcp k false st) 4 st ∧ ∀ a : Nat, s.sigStores k o a = false → t.ld1 a = s.ld1 a) ∧
  (∀ (s : State) (k : CoreRef) (o : SigOp) (st : Nat), s.sigGoes k o → (s.core k).flowBad .seq = [] → ∃ t, exec (.sigRsq k false st) s = .next t ∧ s.sigDone t k o (.sigRsq k false st) 4 st ∧ ∀ a : Nat, s.sigStores k o a = false → t.ld1 a = s.ld1 a) ∧
  (∀ (s : State) (k : CoreRef) (o : SigOp) (reg : SpecReg) (st : Nat), s.sigGoes k o → (s.core k).flowBad .seq = [] → ∃ t, exec (.sigMfs k false reg st) s = .next t ∧ s.sigDone t k o (.sigMfs k false reg st) 1 st ∧ ∀ a : Nat, s.sigStores k o a = false → t.ld1 a = s.ld1 a) ∧
  (∀ (s : State) (k : CoreRef) (o : SigOp) (st : Nat), s.sigGoes k o → (s.core k).flowBad .seq = [] → ∃ t, exec (.sigRnda k false st) s = .next t ∧ s.sigDone t k o (.sigRnda k false st) 1 st ∧ ∀ a : Nat, s.sigStores k o a = false → t.ld1 a = s.ld1 a) ∧
  (∀ (s : State) (k : CoreRef) (o : SigOp) (st : Nat), o.dd.val % 2 = 0 → s.sigGoes k o → (s.core k).flowBad .seq = [] → 
    ∃ t, exec (.sigCmac2 k false st) s = .next t ∧ (∀ i : Fin 16, (∀ e ∈ ([] : List (Nat × Word)), e.1 ≠ i.val) → (∀ e ∈ s.sigLoads k o, e.1 ≠ i.val) → (t.core k).d.get i = (s.core k).d.get i) ∧ { (t.core k).apart (s.core k) with accRe := (s.core k).accRe, accIm := (s.core k).accIm } = s.core k ∧
      (∀ i : Fin 2, ((t.core k).accRe.get (Fin.ofNat 4 (o.dd.val + i.val))).toInt = satS 40 (((s.core k).accRe.get (Fin.ofNat 4 (o.dd.val + i.val))).toInt +
          (cmulI (o.imm.getLsbD 5) (ci16 ((s.core k).dr (o.sa.val + i.val))) (ci16 ((s.core k).dr (o.sb.val + i.val)))).1) ∧
        ((t.core k).accIm.get (Fin.ofNat 4 (o.dd.val + i.val))).toInt = satS 40 (((s.core k).accIm.get (Fin.ofNat 4 (o.dd.val + i.val))).toInt +
          (cmulI (o.imm.getLsbD 5) (ci16 ((s.core k).dr (o.sa.val + i.val))) (ci16 ((s.core k).dr (o.sb.val + i.val)))).2)) ∧
      (∀ i : Fin 4, i ≠ Fin.ofNat 4 o.dd.val → i ≠ Fin.ofNat 4 (o.dd.val + 1) → (t.core k).accRe.get i = (s.core k).accRe.get i ∧
        (t.core k).accIm.get i = (s.core k).accIm.get i) ∧ ((s.core k).delay = none → (s.core k).reps = [] → (t.core k).pc = (s.core k).pc + 1) ∧ s.sigSame t k ∧ ∀ a : Nat, s.sigStores k o a = false → t.ld1 a = s.ld1 a) ∧
  (∀ (s : State) (k : CoreRef) (o : SigOp) (st : Nat), s.sigGoes k o → (s.core k).flowBad .seq = [] → 
    ∃ t, exec (.sigClra k false st) s = .next t ∧ (∀ i : Fin 16, (∀ e ∈ ([] : List (Nat × Word)), e.1 ≠ i.val) → (∀ e ∈ s.sigLoads k o, e.1 ≠ i.val) → (t.core k).d.get i = (s.core k).d.get i) ∧ { (t.core k).apart (s.core k) with accRe := (s.core k).accRe, accIm := (s.core k).accIm } = s.core k ∧
      (∀ i : Fin 4, (t.core k).accRe.get i = (if i = Fin.ofNat 4 o.dd.val then 0 else (s.core k).accRe.get i) ∧
        (t.core k).accIm.get i = (if i = Fin.ofNat 4 o.dd.val then 0 else (s.core k).accIm.get i)) ∧ ((s.core k).delay = none → (s.core k).reps = [] → (t.core k).pc = (s.core k).pc + 1) ∧ s.sigSame t k ∧ ∀ a : Nat, s.sigStores k o a = false → t.ld1 a = s.ld1 a) ∧
  (∀ (s : State) (k : CoreRef) (o : SigOp) (st : Nat), s.sigGoes k o → (s.core k).flowBad .seq = [] → 
    (satS 16 (rneInt ((s.core k).accRe.get (Fin.ofNat 4 o.sa.val)).toInt (o.imm.toNat % 32)) ≠ rneInt ((s.core k).accRe.get (Fin.ofNat 4 o.sa.val)).toInt (o.imm.toNat % 32) ∨
      satS 16 (rneInt ((s.core k).accIm.get (Fin.ofNat 4 o.sa.val)).toInt (o.imm.toNat % 32)) ≠ rneInt ((s.core k).accIm.get (Fin.ofNat 4 o.sa.val)).toInt (o.imm.toNat % 32)) →
    ∃ t, exec (.sigRnda k false st) s = .next t ∧ t.g (Reg.SIG_Cc_STS_OVF_STK k.f k.c) = 1 ∧ t.g (Reg.SIG_OVF_CNT k.f) = min (s.g (Reg.SIG_OVF_CNT k.f) + 1) 0xFFFFFFFF)

/-- ROT2 turns D(SA) by PH and D(SA+1) by PH + FRQ into D(DD) and D(DD+1), and PH advances by twice FRQ. ANG gives the phase in 2^16 units a turn, 0x7FFF_FFFF for 0; the bits above the sixteen are open from half a turn on (assumption log 24). A search compares its two elements in turn with the value held; each that is strictly better replaces it, with its index IX or IX + 1 in D(DD+1); else both registers keep their values; IX rises by 2. MTS moves D(SA) to the special register at its width. All else of the core, the jobs, other cores and bytes not stored to stay. -/
def Obligations.SignalRotateSearchAndSpecialAct : Prop :=
  (∀ (s : State) (k : CoreRef) (o : SigOp) (st : Nat), s.sigGoes k o → (s.core k).flowBad .seq = [] → 
    ∃ t, exec (.sigRot2 k false st) s = .next t ∧ ((∀ l ∈ s.sigLoads k o, l.1 ≠ o.dd.val ∧ l.1 ≠ (o.dd.val + 1) % 16) →
        (t.core k).dr o.dd.val = rotate ((s.core k).dr o.sa.val) (s.core k).ph.toNat ∧
        (t.core k).dr (o.dd.val + 1) = rotate ((s.core k).dr (o.sa.val + 1)) ((s.core k).ph + (s.core k).frq).toNat) ∧
      (t.core k).ph = (s.core k).ph + 2 * (s.core k).frq ∧ (∀ i : Fin 16, o.dd.val ≠ i.val → (o.dd.val + 1) % 16 ≠ i.val → (∀ e ∈ s.sigLoads k o, e.1 ≠ i.val) → (t.core k).d.get i = (s.core k).d.get i) ∧ { (t.core k).apart (s.core k) with ph := (s.core k).ph } = s.core k ∧ ((s.core k).delay = none → (s.core k).reps = [] → (t.core k).pc = (s.core k).pc + 1) ∧ s.sigSame t k ∧ ∀ a : Nat, s.sigStores k o a = false → t.ld1 a = s.ld1 a) ∧
  (∀ (s : State) (k : CoreRef) (o : SigOp) (st : Nat), s.sigGoes k o → (s.core k).flowBad .seq = [] → (∀ l ∈ s.sigLoads k o, l.1 ≠ o.dd.val) →
    ∃ t, exec (.sigAng k false st) s = .next t ∧ (if (s.core k).dr o.sa.val = 0 then (t.core k).dr o.dd.val = 0x7FFFFFFF
        else ((t.core k).dr o.dd.val).toNat % 65536 = phase16 (ci16 ((s.core k).dr o.sa.val)) ∧
          (phase16 (ci16 ((s.core k).dr o.sa.val)) < 32768 → ((t.core k).dr o.dd.val).toNat = phase16 (ci16 ((s.core k).dr o.sa.val)))) ∧
      (∀ i : Fin 16, (∀ e ∈ [(o.dd.val, (0 : Word))], e.1 ≠ i.val) → (∀ e ∈ s.sigLoads k o, e.1 ≠ i.val) → (t.core k).d.get i = (s.core k).d.get i) ∧ (t.core k).apart (s.core k) = s.core k ∧ ((s.core k).delay = none → (s.core k).reps = [] → (t.core k).pc = (s.core k).pc + 1) ∧ s.sigSame t k ∧ ∀ a : Nat, s.sigStores k o a = false → t.ld1 a = s.ld1 a) ∧
  (∀ (s : State) (k : CoreRef) (o : SigOp) (st : Nat), o.dd.val % 2 = 0 → s.sigGoes k o → (s.core k).flowBad .seq = [] → (∀ l ∈ s.sigLoads k o, l.1 / 2 ≠ o.dd.val / 2) →
    ∃ t, exec (.sigMaxi k false st) s = .next t ∧ s.sigFound t k o 0 ∧ ∀ a : Nat, s.sigStores k o a = false → t.ld1 a = s.ld1 a) ∧
  (∀ (s : State) (k : CoreRef) (o : SigOp) (st : Nat), o.dd.val % 2 = 0 → s.sigGoes k o → (s.core k).flowBad .seq = [] → (∀ l ∈ s.sigLoads k o, l.1 / 2 ≠ o.dd.val / 2) →
    ∃ t, exec (.sigMini k false st) s = .next t ∧ s.sigFound t k o 1 ∧ ∀ a : Nat, s.sigStores k o a = false → t.ld1 a = s.ld1 a) ∧
  (∀ (s : State) (k : CoreRef) (o : SigOp) (st : Nat), o.dd.val % 2 = 0 → s.sigGoes k o → (s.core k).flowBad .seq = [] → (∀ l ∈ s.sigLoads k o, l.1 / 2 ≠ o.dd.val / 2) →
    ∃ t, exec (.sigMaxm k false st) s = .next t ∧ s.sigFound t k o 2 ∧ ∀ a : Nat, s.sigStores k o a = false → t.ld1 a = s.ld1 a) ∧
  (∀ (s : State) (k : CoreRef) (o : SigOp) (st : Nat), o.dd.val % 2 = 0 → s.sigGoes k o → (s.core k).flowBad .seq = [] → (∀ l ∈ s.sigLoads k o, l.1 / 2 ≠ o.dd.val / 2) →
    ∃ t, exec (.sigMinm k false st) s = .next t ∧ s.sigFound t k o 3 ∧ ∀ a : Nat, s.sigStores k o a = false → t.ld1 a = s.ld1 a) ∧
  (∀ (s : State) (k : CoreRef) (o : SigOp) (reg : SpecReg) (st : Nat), s.sigGoes k o → (s.core k).flowBad .seq = [] → (∀ i, reg = .p i → ∀ m ∈ sigMoves o, m.2.ptr ≠ i) →
    ∃ t, exec (.sigMts k false reg st) s = .next t ∧ (t.core k).spec reg = (match reg with
        | .p _ => BitVec.setWidth 32 (BitVec.setWidth 18 ((s.core k).dr o.sa.val))
        | .n _ => BitVec.signExtend 32 (BitVec.setWidth 18 ((s.core k).dr o.sa.val))
        | .ien => if (s.core k).shadow.isSome then 0 else BitVec.setWidth 32 (BitVec.setWidth 3 ((s.core k).dr o.sa.val))
        | .ivec => BitVec.setWidth 32 (BitVec.setWidth 13 ((s.core k).dr o.sa.val))
        | _ => (s.core k).dr o.sa.val) ∧
      (∀ q, q ≠ reg → (∀ i, q = .p i → ∀ m ∈ sigMoves o, m.2.ptr ≠ i) → (t.core k).spec q = (s.core k).spec q) ∧
      (∀ i : Fin 16, (∀ e ∈ ([] : List (Nat × Word)), e.1 ≠ i.val) → (∀ e ∈ s.sigLoads k o, e.1 ≠ i.val) → (t.core k).d.get i = (s.core k).d.get i) ∧ { (t.core k).apart (s.core k) with n := (s.core k).n, l := (s.core k).l, ph := (s.core k).ph, frq := (s.core k).frq, ix := (s.core k).ix, ien := (s.core k).ien, ivec := (s.core k).ivec } = s.core k ∧ ((s.core k).delay = none → (s.core k).reps = [] → (t.core k).pc = (s.core k).pc + 1) ∧ s.sigSame t k ∧ ∀ a : Nat, s.sigStores k o a = false → t.ld1 a = s.ld1 a)

/-- Beside any compute operation of R189: a register that one load slot and nothing else writes takes the bytes of the core's local memory as they were at the start; a store slot writes the registers as they were at the start; a pointer that one slot names takes the value of R188, one that no slot names keeps its value; no other byte of memory changes. A slot with a reserved size or modifier, an address outside its bus's memory or not aligned, or an invalid length stops the core with the lowest code of R200, and the job faults; so does a load of a poisoned word. -/
def Obligations.SignalMovesLoadStoreAndStep : Prop :=
  (∀ (s : State) (k : CoreRef) (o : SigOp) (c : Instr) (st : Nat) (reg : SpecReg), c ∈ sigValueCommands k reg st → s.sigGoes k o → (s.core k).flowBad .seq = [] → 
    ∃ t, exec c s = .next t ∧ (∀ l ∈ s.sigLoads k o, (∀ e ∈ sigValues c o (s.core k), e.1 ≠ l.1) → ((s.sigLoads k o).filter (fun e => e.1 == l.1)).length = 1 →
        (t.core k).dr l.1 = l.2) ∧
      (∀ m ∈ sigMoves o, ((sigMoves o).filter (fun e => e.2.ptr == m.2.ptr)).length = 1 → (t.core k).p.get m.2.ptr = BitVec.ofNat 18 (moveAddr (s.core k) m.2).2) ∧
      (∀ i, (∀ m ∈ sigMoves o, m.2.ptr ≠ i) → (t.core k).p.get i = (s.core k).p.get i) ∧
      (∀ m ∈ sigMoves o, m.2.store = true → t.ld (sigBase k.f k.c + (moveAddr (s.core k) m.2).1) (moveBytes m.2.size) = moveStore (s.core k) m.2) ∧
      ∀ a : Nat, s.sigStores k o a = false → t.ld1 a = s.ld1 a) ∧
  (∀ (s : State) (k : CoreRef) (o : SigOp) (c : Instr) (st j : Nat) (reg : SpecReg), c ∈ sigValueCommands k reg st → s.sigAt k o →
    (sigMoves o).flatMap (fun m => moveBad (s.core k) m.1 m.2) ≠ [] → s.jobOf k.f = some j → s.plainJob j →
    ∃ t, exec c s = .next t ∧ (t.jst j = 3 ∨ t.jst j = 5) ∧ t.g Reg.SYS_EVR_SEQ ≠ s.g Reg.SYS_EVR_SEQ) ∧
  (∀ (s : State) (k : CoreRef) (o : SigOp) (c : Instr) (st j : Nat) (reg : SpecReg), c ∈ sigValueCommands k reg st → s.sigAt k o →
    (sigMoves o).flatMap (fun m => moveBad (s.core k) m.1 m.2) = [] → s.movePoison k (s.core k) (sigMoves o) = true → (s.core k).flowBad .seq = [] →
    s.jobOf k.f = some j → s.plainJob j → ∃ t, exec c s = .next t ∧ (t.jst j = 3 ∨ t.jst j = 5)) ∧
  (∀ (s : State) (k : CoreRef) (code i : Nat), code < 16 → i < 2 ^ 13 → s.jobOf k.f = none → (s.sigFault k code i).coreSt k = 4 ∧
    (s.sigFault k code i).g (Reg.SIG_Cc_STS_FAULT k.f k.c) = code ∧ (s.sigFault k code i).g (Reg.SIG_Cc_STS_PC_AT k.f k.c) = i) ∧
  (∀ (x : SigCore) (b : Nat) (m : MoveSlot), (m.size = 3 ∨ m.modif = 7) → lowest (moveBad x b m) = 1) ∧
  (∀ (x : SigCore) (b : Nat) (m : MoveSlot), m.size ≠ 3 → m.modif ≠ 7 → m.modif ≠ 4 → m.modif ≠ 5 →
    (moveBad x b m = [] ↔ (busMem b).1 ≤ (moveAddr x m).1 ∧ (moveAddr x m).1 + moveBytes m.size ≤ (busMem b).2 ∧ (moveAddr x m).1 % moveBytes m.size = 0))

/-- Outside delay slots and repeat ends: a branch whose condition on D(SA) holds waits two instructions for its target, one not taken waits two and goes on; CALL also stacks the index after its slots, RET takes the newest, RETI will restore the shadow set. In the slots the count runs down; after the second the target is taken, repeat levels that do not hold it end, and RETI restores return index, repeat stack, IX and IEN and clears the pending source. REP and REPD start a level, or skip the body at count 0; its last instruction loops back or ends it. DI sets the hold-off count. A ninth CALL, RET on an empty stack, RETI outside a handler, a control instruction in a slot, a fifth level and a reserved OP fault the job. -/
def Obligations.SignalFlowTransfersControl : Prop :=
  (∀ (s : State) (k : CoreRef) (o : SigOp) (st : Nat) (tg : BitVec 13), s.sigGoes k o → (s.core k).delay = none → (s.core k).reps.any (fun r => r.last == (s.core k).pc.toNat) = false → 
    ∃ t, exec (.sigBr k false tg st) s = .next t ∧ s.sigBranched t k o (some tg) ∧ ∀ a : Nat, s.sigStores k o a = false → t.ld1 a = s.ld1 a) ∧
  (∀ (s : State) (k : CoreRef) (o : SigOp) (st : Nat) (tg : BitVec 13), s.sigGoes k o → (s.core k).delay = none → (s.core k).reps.any (fun r => r.last == (s.core k).pc.toNat) = false → 
    ∃ t, exec (.sigBrz k false tg st) s = .next t ∧ s.sigBranched t k o (if ((s.core k).dr o.sa.val == 0) then some tg else none) ∧ ∀ a : Nat, s.sigStores k o a = false → t.ld1 a = s.ld1 a) ∧
  (∀ (s : State) (k : CoreRef) (o : SigOp) (st : Nat) (tg : BitVec 13), s.sigGoes k o → (s.core k).delay = none → (s.core k).reps.any (fun r => r.last == (s.core k).pc.toNat) = false → 
    ∃ t, exec (.sigBrnz k false tg st) s = .next t ∧ s.sigBranched t k o (if ((s.core k).dr o.sa.val != 0) then some tg else none) ∧ ∀ a : Nat, s.sigStores k o a = false → t.ld1 a = s.ld1 a) ∧
  (∀ (s : State) (k : CoreRef) (o : SigOp) (st : Nat) (tg : BitVec 13), s.sigGoes k o → (s.core k).delay = none → (s.core k).reps.any (fun r => r.last == (s.core k).pc.toNat) = false → 
    ∃ t, exec (.sigBrn k false tg st) s = .next t ∧ s.sigBranched t k o (if decide (((s.core k).dr o.sa.val).toInt < 0) then some tg else none) ∧ ∀ a : Nat, s.sigStores k o a = false → t.ld1 a = s.ld1 a) ∧
  (∀ (s : State) (k : CoreRef) (o : SigOp) (st : Nat) (tg : BitVec 13), s.sigGoes k o → (s.core k).delay = none → (s.core k).reps.any (fun r => r.last == (s.core k).pc.toNat) = false → 
    ∃ t, exec (.sigBrnn k false tg st) s = .next t ∧ s.sigBranched t k o (if decide (0 ≤ ((s.core k).dr o.sa.val).toInt) then some tg else none) ∧ ∀ a : Nat, s.sigStores k o a = false → t.ld1 a = s.ld1 a) ∧
  (∀ (s : State) (k : CoreRef) (o : SigOp) (st : Nat) (tg : BitVec 13), s.sigGoes k o → (s.core k).delay = none → (s.core k).reps.any (fun r => r.last == (s.core k).pc.toNat) = false → (s.core k).calls.length < 8 → ∃ t, exec (.sigCall k false tg st) s = .next t ∧
      (t.core k).delay = some ⟨2, some tg, 1⟩ ∧ (t.core k).pc = (s.core k).pc + 1 ∧ (t.core k).calls = ((s.core k).pc + 3) :: (s.core k).calls ∧ (∀ i : Fin 16, (∀ e ∈ s.sigLoads k o, e.1 ≠ i.val) → (t.core k).d.get i = (s.core k).d.get i) ∧ s.sigSame t k ∧ ∀ a : Nat, s.sigStores k o a = false → t.ld1 a = s.ld1 a) ∧
  (∀ (s : State) (k : CoreRef) (o : SigOp) (st : Nat) (r : BitVec 13) (l : List (BitVec 13)), s.sigGoes k o → (s.core k).delay = none → (s.core k).reps.any (fun r => r.last == (s.core k).pc.toNat) = false → (s.core k).calls = r :: l →
    ∃ t, exec (.sigRet k false st) s = .next t ∧ (t.core k).delay = some ⟨2, some r, 1⟩ ∧ (t.core k).pc = (s.core k).pc + 1 ∧ (t.core k).calls = l ∧ (∀ i : Fin 16, (∀ e ∈ s.sigLoads k o, e.1 ≠ i.val) → (t.core k).d.get i = (s.core k).d.get i) ∧ s.sigSame t k ∧ ∀ a : Nat, s.sigStores k o a = false → t.ld1 a = s.ld1 a) ∧
  (∀ (s : State) (k : CoreRef) (o : SigOp) (st : Nat) (h : Shadow), s.sigGoes k o → (s.core k).delay = none → (s.core k).reps.any (fun r => r.last == (s.core k).pc.toNat) = false → (s.core k).shadow = some h →
    ∃ t, exec (.sigReti k false st) s = .next t ∧ (t.core k).delay = some ⟨2, some h.ret, 2⟩ ∧ (t.core k).pc = (s.core k).pc + 1 ∧ (t.core k).shadow = some h ∧ (∀ i : Fin 16, (∀ e ∈ s.sigLoads k o, e.1 ≠ i.val) → (t.core k).d.get i = (s.core k).d.get i) ∧ s.sigSame t k ∧ ∀ a : Nat, s.sigStores k o a = false → t.ld1 a = s.ld1 a) ∧
  (∀ (s : State) (k : CoreRef) (o : SigOp) (c : Instr) (st : Nat) (reg : SpecReg) (d : Delay), c ∈ sigValueCommands k reg st → s.sigGoes k o →
    (s.core k).flowBad .seq = [] → (s.core k).delay = some d → (s.core k).reps.any (fun r => r.last == (s.core k).pc.toNat) = false → d.left = 2 →
    ∃ t, exec c s = .next t ∧ (t.core k).delay = some { d with left := 1 } ∧ (t.core k).pc = (s.core k).pc + 1) ∧
  (∀ (s : State) (k : CoreRef) (o : SigOp) (c : Instr) (st : Nat) (reg : SpecReg) (d : Delay) (tg : BitVec 13), c ∈ sigValueCommands k reg st → s.sigGoes k o →
    (s.core k).flowBad .seq = [] → (s.core k).delay = some d → d.left = 1 → d.target = some tg → ∃ t, exec c s = .next t ∧ (t.core k).delay = none ∧
      (d.kind = 0 → (t.core k).pc = tg ∧ ∀ r ∈ (t.core k).reps, r ∈ (s.core k).reps ∧ r.first ≤ tg.toNat ∧ tg.toNat ≤ r.last) ∧
      (d.kind = 1 → (t.core k).pc = tg ∧ (t.core k).reps = (s.core k).reps) ∧
      (d.kind = 2 → ∀ h, (s.core k).shadow = some h → (t.core k).pc = h.ret ∧ (t.core k).reps = h.reps ∧ (t.core k).ix = h.ix ∧ (t.core k).ien = h.ien ∧
        (t.core k).shadow = none ∧ (t.core k).pend.getLsbD h.src.val = false)) ∧
  (∀ (s : State) (k : CoreRef) (o : SigOp) (st : Nat), s.sigAt k o → (s.core k).delay = none → 0 < o.count.toNat → (s.core k).reps.length < 4 →
    ∃ t, exec (.sigRep k false st) s = .next t ∧ (t.core k).reps = ⟨((s.core k).pc + 1).toNat, o.last.toNat, o.count.toNat⟩ :: (s.core k).reps ∧
      (t.core k).pc = (s.core k).pc + 1 ∧ (t.core k).atRep = true ∧ (t.core k).d = (s.core k).d ∧ t.mem = s.mem) ∧
  (∀ (s : State) (k : CoreRef) (o : SigOp) (st : Nat), s.sigAt k o → (s.core k).delay = none → 0 < ((s.core k).dr o.sa.val).toNat % 65536 → (s.core k).reps.length < 4 →
    ∃ t, exec (.sigRepd k false st) s = .next t ∧ (t.core k).reps = ⟨((s.core k).pc + 1).toNat, o.last.toNat, ((s.core k).dr o.sa.val).toNat % 65536⟩ :: (s.core k).reps ∧
      (t.core k).pc = (s.core k).pc + 1 ∧ (t.core k).atRep = true ∧ (t.core k).d = (s.core k).d ∧ t.mem = s.mem) ∧
  (∀ (s : State) (k : CoreRef) (o : SigOp) (st : Nat), s.sigAt k o → (s.core k).delay = none → (s.core k).reps = [] → o.count = 0 →
    ∃ t, exec (.sigRep k false st) s = .next t ∧ (t.core k).reps = [] ∧ (t.core k).pc = o.last + 1 ∧ (t.core k).d = (s.core k).d ∧ t.mem = s.mem) ∧
  (∀ (s : State) (k : CoreRef) (o : SigOp) (c : Instr) (st : Nat) (reg : SpecReg) (r : RepLevel) (l : List RepLevel), c ∈ sigValueCommands k reg st → s.sigGoes k o →
    (s.core k).delay = none → (s.core k).reps = r :: l → r.last = (s.core k).pc.toNat → 1 < r.left →
    ∃ t, exec c s = .next t ∧ (t.core k).pc = BitVec.ofNat 13 r.first ∧ (t.core k).reps = { r with left := r.left - 1 } :: l) ∧
  (∀ (s : State) (k : CoreRef) (o : SigOp) (st : Nat), s.sigGoes k o → (s.core k).flowBad .seq = [] →
    ∃ t, exec (.sigDi k false st) s = .next t ∧ (t.core k).di = o.imm.toNat % 64 ∧ ((s.core k).delay = none → (s.core k).reps = [] → (t.core k).pc = (s.core k).pc + 1) ∧ (∀ i : Fin 16, (∀ e ∈ s.sigLoads k o, e.1 ≠ i.val) → (t.core k).d.get i = (s.core k).d.get i) ∧ s.sigSame t k ∧ ∀ a : Nat, s.sigStores k o a = false → t.ld1 a = s.ld1 a) ∧
  (∀ (s : State) (k : CoreRef) (o : SigOp) (c : Instr) (tg : BitVec 13) (st j : Nat), s.sigGoes k o → s.jobOf k.f = some j → s.plainJob j →
    ((c = .sigCall k false tg st ∧ 8 ≤ (s.core k).calls.length) ∨ (c = .sigRet k false st ∧ (s.core k).calls = []) ∨ (c = .sigReti k false st ∧ (s.core k).shadow = none) ∨
      (c = .sigBr k false tg st ∧ (s.core k).delay ≠ none)) → ∃ t, exec c s = .next t ∧ (t.jst j = 3 ∨ t.jst j = 5)) ∧
  (∀ (s : State) (k : CoreRef) (o : SigOp) (st j : Nat), s.sigAt k o → s.jobOf k.f = some j → s.plainJob j →
    ((s.core k).delay ≠ none ∨ (o.count ≠ 0 ∧ 4 ≤ (s.core k).reps.length)) → ∃ t, exec (.sigRep k false st) s = .next t ∧ (t.jst j = 3 ∨ t.jst j = 5)) ∧
  (∀ (s : State) (k : CoreRef) (o : SigOp) (c : Instr) (tg : BitVec 13) (st j : Nat), s.sigAt k o → s.jobOf k.f = some j → s.plainJob j →
    c ∈ [.sigAdd k true st, .sigMove k true st, .sigBr k true tg st, .sigRep k true st, .sigHalt k true st] → (s.core k).moves < 4 →
    ∃ t, exec c s = .next t ∧ (t.jst j = 3 ∨ t.jst j = 5))

/-- MBR takes the head of MBI into D(DD) and MBW puts D(SA) at the end of MBO; on an empty MBI, or a full MBO, the core waits in WAIT and nothing else changes. A PST of the job's own pair posts when no MOVE is queued, and else waits behind them; a reserved pair, or a word with bits [27:24] not 0, faults the job (assumption log 24). A MOVE with valid parameters enters the mover's queue, a fifth stalls the core, invalid parameters fault the job. HALT shows HALT and its index. WFI sleeps until an enabled source is pending. -/
def Obligations.SignalCommunicationAndHaltAct : Prop :=
  (∀ (s : State) (k : CoreRef) (o : SigOp) (st : Nat) (w : Word) (l : List Word), s.sigGoes k o → (s.core k).flowBad .seq = [] → (s.core k).mbi = w :: l → (∀ e ∈ s.sigLoads k o, e.1 ≠ o.dd.val) →
    ∃ t, exec (.sigMbr k false st) s = .next t ∧ (t.core k).mbi = l ∧ (t.core k).dr o.dd.val = w ∧ t.g (Reg.SIG_Cc_STS_MBI_CNT k.f k.c) = l.length % 16 ∧
      (∀ i : Fin 16, o.dd.val ≠ i.val → (∀ e ∈ s.sigLoads k o, e.1 ≠ i.val) → (t.core k).d.get i = (s.core k).d.get i) ∧ ((s.core k).delay = none → (s.core k).reps = [] → (t.core k).pc = (s.core k).pc + 1) ∧ s.sigSame t k ∧ ∀ a : Nat, s.sigStores k o a = false → t.ld1 a = s.ld1 a) ∧
  (∀ (s : State) (k : CoreRef) (o : SigOp) (st : Nat), s.sigGoes k o → (s.core k).flowBad .seq = [] → (s.core k).mbo.length < 8 →
    ∃ t, exec (.sigMbw k false st) s = .next t ∧ (t.core k).mbo = (s.core k).mbo ++ [(s.core k).dr o.sa.val] ∧ t.g (Reg.SIG_Cc_STS_MBO_CNT k.f k.c) = (s.core k).mbo.length + 1 ∧
      (∀ i : Fin 16, (∀ e ∈ s.sigLoads k o, e.1 ≠ i.val) → (t.core k).d.get i = (s.core k).d.get i) ∧ ((s.core k).delay = none → (s.core k).reps = [] → (t.core k).pc = (s.core k).pc + 1) ∧ s.sigSame t k ∧ ∀ a : Nat, s.sigStores k o a = false → t.ld1 a = s.ld1 a) ∧
  (∀ (s : State) (k : CoreRef) (st : Nat), s.held = false → s.coreRuns k = true → (s.core k).mbi = [] → exec (.sigMbr k false st) s = .next (s.setCoreSt k 2)) ∧
  (∀ (s : State) (k : CoreRef) (st : Nat), s.held = false → s.coreRuns k = true → 8 ≤ (s.core k).mbo.length → exec (.sigMbw k false st) s = .next (s.setCoreSt k 2)) ∧
  (∀ (s : State) (k : CoreRef) (o : SigOp) (st j : Nat), s.sigGoes k o → (s.core k).flowBad .seq = [] → s.jobOf k.f = some j → s.semBad j (o.at 8 11) = false → o.at 24 4 = 0 →
    (s.core k).mover = [] → o.at 8 11 < 0x100 → s.semGet k.f (o.at 8 11) (o.at 19 1 == 1) + o.at 20 4 ≤ 65535 →
    ∃ t, exec (.sigPst k false st) s = .next t ∧ t.semGet k.f (o.at 8 11) (o.at 19 1 == 1) = s.semGet k.f (o.at 8 11) (o.at 19 1 == 1) + o.at 20 4 ∧ (∀ i : Fin 16, (∀ e ∈ s.sigLoads k o, e.1 ≠ i.val) → (t.core k).d.get i = (s.core k).d.get i) ∧ ((s.core k).delay = none → (s.core k).reps = [] → (t.core k).pc = (s.core k).pc + 1) ∧ s.sigSame t k ∧ ∀ a : Nat, s.sigStores k o a = false → t.ld1 a = s.ld1 a) ∧
  (∀ (s : State) (k : CoreRef) (o : SigOp) (st j : Nat), s.sigGoes k o → (s.core k).flowBad .seq = [] → s.jobOf k.f = some j → s.semBad j (o.at 8 11) = false → o.at 24 4 = 0 →
    (s.core k).mover ≠ [] → ∃ t, exec (.sigPst k false st) s = .next t ∧
      (t.core k).mover = (s.core k).mover ++ [.post (o.at 8 11) (o.at 19 1 == 1) (o.at 20 4) (s.core k).pc.toNat] ∧
      t.semGet k.f (o.at 8 11) (o.at 19 1 == 1) = s.semGet k.f (o.at 8 11) (o.at 19 1 == 1) ∧ ((s.core k).delay = none → (s.core k).reps = [] → (t.core k).pc = (s.core k).pc + 1)) ∧
  (∀ (s : State) (k : CoreRef) (o : SigOp) (st : Nat) (m : MovItem), s.sigGoes k o → (s.core k).flowBad .seq = [] → (s.core k).moves < 4 → s.moveParams k (s.core k) o.sa.val = some m →
    ∃ t, exec (.sigMove k false st) s = .next t ∧ (t.core k).mover = (s.core k).mover ++ [m] ∧ (∀ i : Fin 16, (∀ e ∈ s.sigLoads k o, e.1 ≠ i.val) → (t.core k).d.get i = (s.core k).d.get i) ∧ ((s.core k).delay = none → (s.core k).reps = [] → (t.core k).pc = (s.core k).pc + 1) ∧ s.sigSame t k ∧ ∀ a : Nat, s.sigStores k o a = false → t.ld1 a = s.ld1 a) ∧
  (∀ (s : State) (k : CoreRef) (st : Nat), s.held = false → 4 ≤ (s.core k).moves → exec (.sigMove k false st) s = .next s) ∧
  (∀ (s : State) (k : CoreRef) (o : SigOp) (c : Instr) (st j : Nat), s.sigGoes k o → (s.core k).flowBad .seq = [] → s.jobOf k.f = some j → s.plainJob j →
    ((c = .sigMove k false st ∧ (s.core k).moves < 4 ∧ s.moveParams k (s.core k) o.sa.val = none) ∨ (c = .sigPst k false st ∧ (s.semBad j (o.at 8 11) = true ∨ o.at 24 4 ≠ 0))) →
    ∃ t, exec c s = .next t ∧ (t.jst j = 3 ∨ t.jst j = 5)) ∧
  (∀ (s : State) (k : CoreRef) (o : SigOp) (st : Nat), s.sigGoes k o → (s.core k).flowBad .seq = [] → (s.core k).stop = false →
    ∃ t, exec (.sigHalt k false st) s = .next t ∧ t.coreSt k = 3 ∧ t.g (Reg.SIG_Cc_STS_PC_AT k.f k.c) = (s.core k).pc.toNat ∧ (∀ i : Fin 16, (∀ e ∈ s.sigLoads k o, e.1 ≠ i.val) → (t.core k).d.get i = (s.core k).d.get i) ∧ s.sigSame t k ∧ ∀ a : Nat, s.sigStores k o a = false → t.ld1 a = s.ld1 a) ∧
  (∀ (s : State) (k : CoreRef) (o : SigOp) (st : Nat), s.sigGoes k o → (s.core k).flowBad .seq = [] → (s.core k).stop = false →
    ∃ t, exec (.sigWfi k false st) s = .next t ∧ (t.core k).asleep = ((s.core k).pending &&& (s.core k).ien == 0#3) ∧ t.coreSt k = 1 ∧ (∀ i : Fin 16, (∀ e ∈ s.sigLoads k o, e.1 ≠ i.val) → (t.core k).d.get i = (s.core k).d.get i) ∧ s.sigSame t k ∧ ∀ a : Nat, s.sigStores k o a = false → t.ld1 a = s.ld1 a)

/-- A writer that may write FW fields starts an idle or halted core at PC; in RUN, WAIT and FAULT START is ignored and counted. STOP ends a running core at a boundary that is not held off once its MOVEs are done, and is remembered else. IRQ makes HOST pending. A word written to MBI enters it, or is ignored and counted when 8 wait; a read of MBO takes its head. TIME fires when armed and due, and ARM clears. An enabled pending source is taken at a boundary that is not held off: TIME, MBOX, HOST in that order. A completed MOVE copies its bytes and no others. -/
def Obligations.SignalCoresAreControlledFromOutside : Prop :=
  (∀ (s : State) (g : Byte) (k : CoreRef) (v : Word), s.held = false → s.agentJob g.toNat = none → s.mayWrite g.toNat .fw = true → v.getLsbD 31 = true → v.getLsbD 30 = false → v.getLsbD 29 = false →
    (s.coreSt k = 0 ∨ s.coreSt k = 3) → ∃ t, exec (.sigCoreStart g k v) s = .next t ∧ t.coreSt k = 1 ∧ (t.core k).pc = BitVec.ofNat 13 v.toNat ∧ (t.core k).d = (s.core k).d ∧
      (t.core k).delay = none ∧ (∀ (f : Fin 6) (c : Fin 8), (⟨f, c⟩ : CoreRef) ≠ k → t.core ⟨f, c⟩ = s.core ⟨f, c⟩) ∧ t.mem = s.mem) ∧
  (∀ (s : State) (g : Byte) (k : CoreRef) (v : Word), s.held = false → s.agentJob g.toNat = none → s.mayWrite g.toNat .fw = true → v = 0x80000000 →
    (s.coreSt k = 1 ∨ s.coreSt k = 2 ∨ s.coreSt k = 4) → ∃ t, exec (.sigCoreStart g k v) s = .next t ∧ t.fronds = s.fronds ∧ t.coreSt k = s.coreSt k ∧ t.mem = s.mem ∧
      t.g Reg.SYS_WR_IGN_CNT = min (s.g Reg.SYS_WR_IGN_CNT + 1) 0xFFFFFFFF) ∧
  (∀ (s : State) (g : Byte) (k : CoreRef) (v : Word), s.held = false → s.agentJob g.toNat = none → s.mayWrite g.toNat .fw = true → v = 0x40000000 →
    (s.coreSt k = 1 ∨ s.coreSt k = 2) → ∃ t, exec (.sigCoreStop g k v) s = .next t ∧
      (if (s.core k).heldOff = false ∧ (s.core k).mover = [] then t.coreSt k = 0 else t.coreSt k = s.coreSt k ∧ (t.core k).stop = true) ∧ (t.core k).d = (s.core k).d ∧ t.mem = s.mem) ∧
  (∀ (s : State) (g : Byte) (k : CoreRef) (v : Word), s.held = false → s.agentJob g.toNat = none → s.mayWrite g.toNat .fw = true → v = 0x20000000 →
    ∃ t, exec (.sigHostIrq g k v) s = .next t ∧ (t.core k).pend = (s.core k).pend ||| 4 ∧ t.coreSt k = s.coreSt k ∧ ((s.core k).ien.getLsbD 2 = true → (t.core k).asleep = false) ∧
      (t.core k).d = (s.core k).d ∧ t.mem = s.mem) ∧
  (∀ (s : State) (g : Byte) (k : CoreRef) (v : Word), s.held = false → s.agentJob g.toNat = none → s.mayWrite g.toNat .fw = true →
    ∃ t, exec (.sigMbiWrite g k v) s = .next t ∧ t.mem = s.mem ∧ (if (s.core k).mbi.length < 8 then (t.core k).mbi = (s.core k).mbi ++ [v] ∧
        t.g (Reg.SIG_Cc_STS_MBI_CNT k.f k.c) = (s.core k).mbi.length + 1
      else t.fronds = s.fronds ∧ t.g Reg.SYS_WR_IGN_CNT = min (s.g Reg.SYS_WR_IGN_CNT + 1) 0xFFFFFFFF)) ∧
  (∀ (s : State) (g : Byte) (k : CoreRef), s.held = false → s.agentJob g.toNat = none → ∃ t, exec (.sigMboRead g k) s = .next t ∧ (t.core k).mbo = (s.core k).mbo.tail ∧
      t.readOut = s.readOut ++ [(s.core k).mbo.headD 0] ∧ t.mem = s.mem) ∧
  (∀ (s : State) (k : CoreRef), s.held = false → s.g (Reg.SIG_Cc_TCFG_ARM k.f k.c) = 1 →
    0 ≤ ctDiff (s.compact (domOf (s.g (Reg.SIG_Cc_TCFG_TDOM k.f k.c)))) (s.g (Reg.SIG_Cc_TCMP k.f k.c)) → ∃ t, exec (.sigTimeSourceFire k) s = .next t ∧
      t.g (Reg.SIG_Cc_TCFG_ARM k.f k.c) = 0 ∧ (t.core k).pend = (s.core k).pend ||| 2 ∧ (t.core k).d = (s.core k).d ∧ t.mem = s.mem) ∧
  (∀ (s : State) (k : CoreRef) (e : Fin 3), s.held = false → s.coreLive k = true → (s.core k).heldOff = false → ((s.core k).pending &&& (s.core k).ien).getLsbD e.val = true →
    (e = 0 → ((s.core k).pending &&& (s.core k).ien).getLsbD 1 = false) → (e = 2 → (s.core k).pending &&& (s.core k).ien = 4#3) → ∃ t, exec (.sigInterruptEntry k) s = .next t ∧
      (t.core k).shadow = some ⟨(s.core k).pc, (s.core k).reps, (s.core k).ix, (s.core k).ien, e⟩ ∧ (t.core k).pc = (s.core k).ivec ∧ (t.core k).ien = 0 ∧ (t.core k).di = 0 ∧
      (t.core k).reps = [] ∧ (t.core k).cache = none ∧ (t.core k).d = (s.core k).d ∧ t.mem = s.mem) ∧
  (∀ (s : State) (k : CoreRef) (loc dev len j : Nat), s.held = false → (s.core k).mover = [.move loc dev true len] → s.jobOf k.f = some j → s.poisoned dev len = false →
    leafBase k.f ≤ dev → dev + len ≤ leafBase k.f + 0x800000 → loc + len ≤ 0x40000 → ∃ t, exec (.sigMoveComplete k) s = .next t ∧
      (t.core k).mover = [] ∧ t.ld (sigBase k.f k.c + loc) len = s.ld dev len ∧ ∀ a : Nat, (a < sigBase k.f k.c + loc ∨ sigBase k.f k.c + loc + len ≤ a) → t.ld1 a = s.ld1 a)

/-- The head command of a pane that is not stopped, of the operation named and valid by R90, with no check failing and no poison: every element of its tile region takes the sums of the blocks that reach it, in order: MM_SET replaces with the first, MM_ACC adds, integers modulo 2^32 and FP32 rounded; element-wise passes multiply or add. Every byte outside the elements written is unchanged. The command leaves the queue and waits for its completion; a new pass makes its loaded stationary the current one; its tiles are HELD. A parity fault stops the pane, counts, and the job faults; so does poison. A tag mismatch in a block-scaled pass counts, and the block it is found at with those up to the next multiple of 64 counts as zero and marks its tile ERASED; a later mismatch beyond them counts again. -/
def Obligations.PassesWriteTheirElements : Prop :=
  (∀ (s : State) (f : Fin 6) (p : Fin 32) (rep : PassRep) (g : PaneCfg) (cmd : PassCmd) (q : List PassCmd) (sr : StatReg), s.held = false → cmd.op = 0 → s.passHead f p g cmd q sr →
    s.passCode f { cmd with pane := p.val } = 0 → rep.check = .clean → g.i0 + g.h ≤ 16 → g.j0 + g.w ≤ 16 → s.poison = [] → sr.poison = false → ((cmd.fmtS = 6 ∨ cmd.fmtS = 7) → cmd.blocks = 1 ∨ s.mapsLow f) → 
    ∃ t, exec (.passMmAcc f p rep) s = .next t ∧ s.passWrote t f p g cmd q sr []) ∧
  (∀ (s : State) (f : Fin 6) (p : Fin 32) (rep : PassRep) (g : PaneCfg) (cmd : PassCmd) (q : List PassCmd) (sr : StatReg), s.held = false → cmd.op = 1 → s.passHead f p g cmd q sr →
    s.passCode f { cmd with pane := p.val } = 0 → rep.check = .clean → g.i0 + g.h ≤ 16 → g.j0 + g.w ≤ 16 → s.poison = [] → sr.poison = false → ((cmd.fmtS = 6 ∨ cmd.fmtS = 7) → cmd.blocks = 1 ∨ s.mapsLow f) → 
    ∃ t, exec (.passMmSet f p rep) s = .next t ∧ s.passWrote t f p g cmd q sr []) ∧
  (∀ (s : State) (f : Fin 6) (p : Fin 32) (rep : PassRep) (g : PaneCfg) (cmd : PassCmd) (q : List PassCmd) (sr : StatReg), s.held = false → cmd.op = 2 → s.passHead f p g cmd q sr →
    s.passCode f { cmd with pane := p.val } = 0 → rep.check = .clean → g.i0 + g.h ≤ 16 → g.j0 + g.w ≤ 16 → s.poison = [] → sr.poison = false → ((cmd.fmtS = 6 ∨ cmd.fmtS = 7) → cmd.blocks = 1 ∨ s.mapsLow f) → 
    ∃ t, exec (.passEwMul f p rep) s = .next t ∧ s.passWrote t f p g cmd q sr []) ∧
  (∀ (s : State) (f : Fin 6) (p : Fin 32) (rep : PassRep) (g : PaneCfg) (cmd : PassCmd) (q : List PassCmd) (sr : StatReg), s.held = false → cmd.op = 3 → s.passHead f p g cmd q sr →
    s.passCode f { cmd with pane := p.val } = 0 → rep.check = .clean → g.i0 + g.h ≤ 16 → g.j0 + g.w ≤ 16 → s.poison = [] → sr.poison = false → ((cmd.fmtS = 6 ∨ cmd.fmtS = 7) → cmd.blocks = 1 ∨ s.mapsLow f) → 
    ∃ t, exec (.passEwAdd f p rep) s = .next t ∧ s.passWrote t f p g cmd q sr []) ∧
  (∀ (s : State) (f : Fin 6) (p : Fin 32) (c : Instr) (n j : Nat) (rep : PassRep) (row col : Fin 17) (ly : Fin 8) (kd : Fin 4) (g : PaneCfg) (cmd : PassCmd) (q : List PassCmd) (sr : StatReg),
    s.held = false → (c, n) ∈ passCommands f p rep → cmd.op = n → s.passHead f p g cmd q sr → rep.check = .parity row col ly kd true → s.jobOf f = some j → s.plainJob j →
    ∃ t, exec c s = .next t ∧ (t.jst j = 3 ∨ t.jst j = 5)) ∧
  (∀ (s : State) (f : Fin 6) (p : Fin 32) (c : Instr) (n j : Nat) (rep : PassRep) (g : PaneCfg) (cmd : PassCmd) (q : List PassCmd) (sr : StatReg), s.held = false → (c, n) ∈ passCommands f p rep → cmd.op = n → s.passHead f p g cmd q sr → 
    rep.check = .poison → s.jobOf f = some j → s.plainJob j → ∃ t, exec c s = .next t ∧ (t.jst j = 3 ∨ t.jst j = 5)) ∧
  (∀ (s : State) (f : Fin 6) (p : Fin 32) (c : Instr) (n : Nat) (l : List TagCheck) (rep : PassRep) (g : PaneCfg) (cmd : PassCmd) (q : List PassCmd) (sr : StatReg), s.held = false → (c, n) ∈ passCommands f p rep → cmd.op = n → s.passHead f p g cmd q sr → 
    s.passCode f { cmd with pane := p.val } = 0 → rep.check = .desync l → g.i0 + g.h ≤ 16 → g.j0 + g.w ≤ 16 → s.poison = [] → sr.poison = false → ((cmd.fmtS = 6 ∨ cmd.fmtS = 7) → cmd.blocks = 1 ∨ s.mapsLow f) → ∃ t, exec c s = .next t ∧
      t.g (Reg.STR_DESYNC_CNT f) = min (s.g (Reg.STR_DESYNC_CNT f) + (desyncAt cmd l).length) 0xFFFFFFFF ∧ s.passWrote t f p g cmd q sr ((desyncAt cmd l).map (·.block))) ∧
  (∀ (s : State) (f : Fin 6) (p : Fin 32) (c : Instr) (n : Nat) (rep : PassRep) (x : PassCmd) (l : List PassCmd), s.held = false → (c, n) ∈ passCommands f p rep →
    (s.pane f p).queue = x :: l → (x.op ≠ n ∨ (s.pane f p).stopped = true) → exec c s = .next s)

/-- A write of APPLY by a writer that may make it captures the 32 pane words; one while APPLY reads 1 has no effect. With no pass left in the panes, a captured plan that passes R79 is installed and clears APPLY and the error; one that fails changes no pane and shows the failing pane with its code. The head command dispatches to its pane's queue when it passes R90 and that queue has room, waits while it is full, and is rejected else: dispatch stops, the first rejection is recorded, and the job faults when the commands dispatched before are complete. A stationary load puts the bytes at STAT into the register of the next new pass under the next tag. A completion counts the oldest pass run, and makes its tiles READY with LAST_K when no other pass writes them. -/
def Obligations.PanePlansDispatchLoadsAndCompletions : Prop :=
  (∀ (s : State) (g : Byte) (f : Fin 6) (v : Word), s.held = false → s.agentJob g.toNat = none → s.mayWrite g.toNat .fw = true → v = 1 → s.g (Reg.ARR_PANE_APPLY_APPLY f) = 0 →
    ∃ t, exec (.panePlanApply g f v) s = .next t ∧ t.g (Reg.ARR_PANE_APPLY_APPLY f) = 1 ∧ (t.fr f).arr.panes = (s.fr f).arr.panes ∧
      (t.fr f).arr.captured = some ((List.range 32).map (fun n => (s.reg (Reg.ARR_PANE_CFGp_I0 f n).addr).toNat)) ∧ t.mem = s.mem ∧ (∀ i, i ≠ f → t.fr i = s.fr i)) ∧
  (∀ (s : State) (g : Byte) (f : Fin 6) (v : Word), s.held = false → s.agentJob g.toNat = none → s.mayWrite g.toNat .fw = true → v = 1 → s.g (Reg.ARR_PANE_APPLY_APPLY f) = 1 →
    ∃ t, exec (.panePlanApply g f v) s = .next t ∧ t.fronds = s.fronds ∧ t.g (Reg.ARR_PANE_APPLY_APPLY f) = 1) ∧
  (∀ (s : State) (f : Fin 6) (ws : List Nat), s.held = false → (s.fr f).arr.captured = some ws → (∀ p, (s.pane f p).queue = [] ∧ (s.pane f p).ran = []) →
    planFail (s.on (Reg.ARR_SPARE_STS_MASKED f)) [] ((List.range 32).zip ws) = none → ∃ t, exec (.panePlanInstall f) s = .next t ∧
      (∀ p, (t.pane f p).cfg = (if (ws.getD p.val 0).testBit 16 then some (paneOf (ws.getD p.val 0)) else none) ∧ (t.pane f p).loaded = [] ∧ (t.pane f p).nextTag = 0) ∧
      (t.fr f).arr.captured = none ∧ t.g (Reg.ARR_PANE_APPLY_APPLY f) = 0 ∧ t.g (Reg.ARR_PANE_APPLY_ERR f) = 0 ∧ t.mem = s.mem) ∧
  (∀ (s : State) (f : Fin 6) (ws : List Nat) (n code : Nat), s.held = false → (s.fr f).arr.captured = some ws → (∀ p, (s.pane f p).queue = [] ∧ (s.pane f p).ran = []) →
    planFail (s.on (Reg.ARR_SPARE_STS_MASKED f)) [] ((List.range 32).zip ws) = some (n, code) → ∃ t, exec (.panePlanInstall f) s = .next t ∧
      (t.fr f).arr = { (s.fr f).arr with captured := none } ∧ t.g (Reg.ARR_PANE_APPLY_APPLY f) = 0 ∧ t.g (Reg.ARR_PANE_APPLY_ERR f) = 1 ∧
      t.g (Reg.ARR_PANE_APPLY_ERR_PANE f) = n ∧ t.g (Reg.ARR_PANE_APPLY_ERR_CODE f) = code) ∧
  (∀ (s : State) (f : Fin 6) (c : PassCmd) (q : List PassCmd), s.held = false → (s.fr f).arr.queue = c :: q → (s.fr f).arr.halted = false → (s.fr f).arr.captured = none →
    s.passCode f c = 0 → (s.pane f (Fin.ofNat 32 c.pane)).queue.length < 4 → ∃ t, exec (.passDispatch f) s = .next t ∧ (t.fr f).arr.queue = q ∧
      (t.pane f (Fin.ofNat 32 c.pane)).queue = (s.pane f (Fin.ofNat 32 c.pane)).queue ++ [c] ∧ (∀ p, p ≠ Fin.ofNat 32 c.pane → t.pane f p = s.pane f p) ∧ t.mem = s.mem ∧ t.jobs = s.jobs) ∧
  (∀ (s : State) (f : Fin 6) (c : PassCmd) (q : List PassCmd), s.held = false → (s.fr f).arr.queue = c :: q → s.passCode f c = 0 →
    4 ≤ (s.pane f (Fin.ofNat 32 c.pane)).queue.length → exec (.passDispatch f) s = .next s) ∧
  (∀ (s : State) (f : Fin 6) (c : PassCmd) (q : List PassCmd) (j : Nat), s.held = false → (s.fr f).arr.queue = c :: q → (s.fr f).arr.halted = false → (s.fr f).arr.captured = none →
    s.passCode f c ≠ 0 → s.arrDrained f = true → s.jobOf f = some j → s.plainJob j → ∃ t, exec (.passDispatch f) s = .next t ∧ (t.jst j = 3 ∨ t.jst j = 5)) ∧
  (∀ (s : State) (f : Fin 6) (c : PassCmd) (q : List PassCmd), s.held = false → (s.fr f).arr.queue = c :: q → (s.fr f).arr.halted = false → (s.fr f).arr.captured = none →
    s.passCode f c ≠ 0 → s.arrDrained f = false → ∃ t, exec (.passDispatch f) s = .next t ∧ (t.fr f).arr = { (s.fr f).arr with queue := q, halted := true } ∧ t.jobs = s.jobs ∧ t.mem = s.mem ∧
      (s.g (Reg.ARR_CMD_ERR_CODE f) = 0 → t.g (Reg.ARR_CMD_ERR_CODE f) = s.passCode f c ∧ t.g (Reg.ARR_CMD_ERR_PANE f) = c.pane % 32 ∧ t.g (Reg.ARR_CMD_ERR_SEQ_LO f) = c.seq % 2 ^ 32) ∧
      (s.g (Reg.ARR_CMD_ERR_CODE f) ≠ 0 → t.g (Reg.ARR_CMD_ERR_CODE f) = s.g (Reg.ARR_CMD_ERR_CODE f))) ∧
  (∀ (s : State) (f : Fin 6), s.held = false → (s.fr f).arr.halted = true → exec (.passDispatch f) s = .next s) ∧
  (∀ (s : State) (f : Fin 6) (p : Fin 32) (c : PassCmd) (j : Nat), s.held = false → (s.pane f p).ran = [c] → (s.pane f p).queue = [] → (∀ i, i ≠ p → (s.pane f i).queue = [] ∧ (s.pane f i).ran = []) →
    (s.fr f).arr.halted = true → s.jobOf f = some j → s.plainJob j → ∃ t, exec (.passComplete f p) s = .next t ∧ (t.jst j = 3 ∨ t.jst j = 5)) ∧
  (∀ (s : State) (f : Fin 6) (p : Fin 32) (g : PaneCfg) (c : PassCmd) (h w b : Nat), s.held = false → (s.pane f p).cfg = some g → (s.pane f p).nextLoad = some c →
    ∃ t, exec (.stationaryLoad f p h w b) s = .next t ∧ (t.pane f p).loaded = (s.pane f p).loaded ++ [⟨(s.pane f p).nextTag, s.ld (leafBase f + c.stat) (statSize c g.w), (s.statShiftsAt f c g.w).map s.ld1,
        s.poisoned (leafBase f + c.stat) (statSize c g.w) || (s.statShiftsAt f c g.w).any (fun a => s.poisoned a 1)⟩] ∧ (t.pane f p).nextTag = (s.pane f p).nextTag + 1 ∧ (t.pane f p).queue = (s.pane f p).queue ∧
      t.g (Reg.ARR_STAT_HOLD_CNT f) = min (s.g (Reg.ARR_STAT_HOLD_CNT f) + h) 0xFFFFFFFF ∧ t.g (Reg.ARR_LANE_WAIT_CNT f) = min (s.g (Reg.ARR_LANE_WAIT_CNT f) + (w + b)) 0xFFFFFFFF ∧
      t.g (Reg.LEAF_BANK_CONF_CNT f) = min (s.g (Reg.LEAF_BANK_CONF_CNT f) + b) 0xFFFFFFFF ∧ t.mem = s.mem ∧ (∀ i, i ≠ p → t.pane f i = s.pane f i)) ∧
  (∀ (s : State) (f : Fin 6) (p : Fin 32) (c : PassCmd) (r : List PassCmd), s.held = false → (s.pane f p).ran = c :: r → (s.fr f).arr.halted = false → ∃ t, exec (.passComplete f p) s = .next t ∧
      (t.pane f p).ran = r ∧ t.g (Reg.ARR_PASS_CNT f) = min (s.g (Reg.ARR_PASS_CNT f) + 1) 0xFFFFFFFF ∧ t.mem = s.mem ∧
      (∀ k : Fin 128, t.g (Reg.STR_TILEt_STATE f k) = (if c.lastK = true ∧ (passTiles c).contains k.val = true ∧ t.tileOpen f k = false then 2 else s.g (Reg.STR_TILEt_STATE f k))))

/-- A write of GO with FIRST not above LAST by a writer that may make it adapts the records of the range; GO then reads 1 until the step is done; no byte outside those records changes. A record with ADAPT, a format that has a capacity C and a measure takes SHIFT + min(6, MMAX - C) when MMAX exceeds C, SHIFT - 1 when it is at most C - 2, clamped to -128 to 127; every record gets MMAX 0x8000, SAT_STEP 0 and OVR 0 and keeps FMT_OUT. A write while GO reads 1 is ignored and counted; an empty range changes no memory and leaves GO 0. At the end of the step only GO clears. -/
def Obligations.ScaleStepsAdaptRecords : Prop :=
  (∀ (s : State) (g : Byte) (f : Fin 6) (v : Word) (r : Nat), s.held = false → s.agentJob g.toNat = none → s.mayWrite g.toNat .fw = true → s.g (Reg.LEAF_SCL_STEP_GO f) = 0 →
    r < 256 → v.toNat = 0x10000 + 256 * r + r → ∃ t, exec (.leafSclStep g f v) s = .next t ∧ t.g (Reg.LEAF_SCL_STEP_GO f) = 1 ∧
      t.ld (s.sclAt f r) 16 = (adaptRecord (s.ld (s.sclAt f r) 16)).1 ∧ t.fronds = s.fronds ∧
      ∀ a : Nat, (a < s.sclAt f r ∨ s.sclAt f r + 16 ≤ a) → t.ld1 a = s.ld1 a) ∧
  (∀ (s : State) (g : Byte) (f : Fin 6) (v : Word) (x y : Nat), s.held = false → s.agentJob g.toNat = none → s.mayWrite g.toNat .fw = true → s.g (Reg.LEAF_SCL_STEP_GO f) = 0 →
    x ≤ y → y < 256 → v.toNat = 0x10000 + 256 * y + x → ∃ t, exec (.leafSclStep g f v) s = .next t ∧ t.g (Reg.LEAF_SCL_STEP_GO f) = 1 ∧
      (∀ r : Fin 256, x ≤ r.val → r.val ≤ y → t.ld (s.sclAt f r) 16 = (adaptRecord (s.ld (s.sclAt f r) 16)).1) ∧
      ∀ a : Nat, (a < s.sclAt f x ∨ s.sclAt f y + 16 ≤ a) → t.ld1 a = s.ld1 a) ∧
  (∀ (s : State) (g : Byte) (f : Fin 6) (v : Word) (x y : Nat), s.held = false → s.agentJob g.toNat = none → s.mayWrite g.toNat .fw = true → s.g (Reg.LEAF_SCL_STEP_GO f) = 0 →
    y < x → x < 256 → v.toNat = 0x10000 + 256 * y + x → ∃ t, exec (.leafSclStep g f v) s = .next t ∧ t.g (Reg.LEAF_SCL_STEP_GO f) = 0 ∧ t.mem = s.mem ∧ t.fronds = s.fronds) ∧
  (∀ (s : State) (g : Byte) (f : Fin 6) (v : Word), s.held = false → s.agentJob g.toNat = none → s.g (Reg.LEAF_SCL_STEP_GO f) = 1 →
    ∃ t, exec (.leafSclStep g f v) s = .next t ∧ t.mem = s.mem ∧ t.fronds = s.fronds ∧ t.g (Reg.LEAF_SCL_STEP_GO f) = 1 ∧ t.g Reg.SYS_WR_IGN_CNT = min (s.g Reg.SYS_WR_IGN_CNT + 1) 0xFFFFFFFF) ∧
  (∀ (s : State) (f : Fin 6), s.held = false → ∃ t, exec (.scaleStepDone f) s = .next t ∧ t.g (Reg.LEAF_SCL_STEP_GO f) = 0 ∧ t.mem = s.mem ∧ t.fronds = s.fronds ∧ t.jobs = s.jobs ∧
    ∀ a : Nat, a ≠ (Reg.LEAF_SCL_STEP_GO f).addr → t.reg a = s.reg a) ∧
  (∀ (r : List Byte) (c : Int), r.length = 16 → (byteAt r 1).testBit 4 = true → (outFmt (sclFmt r)).bind capacity = some c → sclMmax r ≠ -32768 →
    sclShift (adaptRecord r).1 = clampI (-128) 127 (if c < sclMmax r then sclShift r + min 6 (sclMmax r - c) else if sclMmax r ≤ c - 2 then sclShift r - 1 else sclShift r) ∧
      sclMmax (adaptRecord r).1 = -32768 ∧ le (adaptRecord r).1 4 4 = 0 ∧ (byteAt (adaptRecord r).1 8).testBit 0 = false ∧ byteAt (adaptRecord r).1 1 = byteAt r 1) ∧
  (∀ r : List Byte, r.length = 16 → ((byteAt r 1).testBit 4 = false ∨ sclMmax r = -32768 ∨ (outFmt (sclFmt r)).bind capacity = none) →
    sclShift (adaptRecord r).1 = sclShift r ∧ sclMmax (adaptRecord r).1 = -32768 ∧ le (adaptRecord r).1 4 4 = 0 ∧ (byteAt (adaptRecord r).1 8).testBit 0 = false)

/-- A stream that may issue runs on with its descriptor in flight. ARRAY_LOOP, its conditions met, claims its tiles and joins the loops that generate; the loop issued first generates its next command into the array queue while that has room. DRAIN, its tiles READY and its record sound, writes each row's converted elements packed at its place, changes no byte of the leaf store outside its rows, its record and the shift map of a block format, and frees its tiles with RELEASE. A spill copies a tile's values to its image and frees it, a reload brings them back HELD under the stream's claim; the correction state survives the way out and back. -/
def Obligations.LoopsDrainsAndTileMovesAct : Prop :=
  (∀ (s : State) (f : Fin 6) (n : Fin 32) (j pos : Nat) (d : BitVec 256), s.issues f n 2 j pos d → s.loopGate f n d = .go → ∃ t, exec (.arrayLoop f n) s = .next t ∧
      s.issued t f n pos { mkFlight d pos false with tmpl := s.tmplOf f d } ∧ (t.fr f).gens = (s.fr f).gens ++ [(n.val, pos)] ∧
      (∀ k ∈ loopClaim d (passOf (s.tmplOf f d) n.val pos), t.g (Reg.STR_TILEt_CLAIMED f k) = 1 ∧ t.g (Reg.STR_TILEt_CLAIMANT f k) = n.val) ∧
      (dWaitN d = 0 → t.mem = s.mem)) ∧
  (∀ (s : State) (f : Fin 6) (n : Fin 32) (pos k : Nat) (r : List (Nat × Nat)) (x : Flight), s.held = false → (s.fr f).gens = (n.val, pos) :: r → (s.fr f).arr.queue.length < 64 →
    s.genAt f n pos = some (k, x) → ∃ t, exec (.passCommandGenerate f n) s = .next t ∧ (t.fr f).arr.queue = (s.fr f).arr.queue ++ [loopCmd x.desc x.tmpl n.val pos x.gen] ∧
      (t.strm f n).flight[k]? = some { x with gen := x.gen + 1, open_ := x.open_ + 1 } ∧
      (t.fr f).gens = (if x.gen + 1 = loopKT x.desc * loopNT x.desc then r else (n.val, pos) :: r) ∧ t.mem = s.mem ∧ t.regs = s.regs) ∧
  (∀ (s : State) (f : Fin 6) (n : Fin 32) (j pos dst pitch : Nat) (d : BitVec 256) (o : OutFmt), s.issues f n 3 j pos d → s.drainGate f d = .go →
    s.recordBad f d = 0 → s.drainMix f d = none → s.drainPoison f d = false → outFmt (sclFmt (s.scl f (dfield d 96 8))) = some o → dbit d 93 = false →
    dst = 32 * dfield d 128 18 → pitch = 32 * dfield d 146 12 → dst + drainRows d * pitch ≤ 0x600000 →
    (leafBase f + dst + drainRows d * pitch ≤ s.sclAt f (dfield d 96 8) ∨ s.sclAt f (dfield d 96 8) + 16 ≤ leafBase f + dst) → capacity o ≠ none →
    ∃ t, exec (.drain f n) s = .next t ∧
      (∀ i : Fin 64, i.val < drainRows d → t.ld (leafBase f + dst + i.val * pitch) (ceilDiv (o.bits * drainCols d) 8) = packCodes o.bits ((drainRow o (sclShift (s.scl f (dfield d 96 8)))
        ((List.range (drainCols d)).map (fun c => s.drainValue f (drainMain d) (64 * dfield d 160 17) none i.val c))).1.map (·.code))) ∧
      (dbit d 91 = true → t.g (Reg.STR_TILEt_STATE f (drainMain d).tile) = 0) ∧ (t.strm f n).flight = (s.strm f n).flight ++ [mkFlight d pos true] ∧
      ∀ a : Nat, leafBase f ≤ a → a < leafBase f + 0x800000 → (a < leafBase f + dst ∨ leafBase f + dst + drainRows d * pitch ≤ a) →
        (a < s.sclAt f (dfield d 96 8) ∨ s.sclAt f (dfield d 96 8) + 16 ≤ a) → t.ld1 a = s.ld1 a) ∧
  (∀ (s : State) (f : Fin 6) (n : Fin 32) (j pos k : Nat) (d : BitVec 256), s.issues f n 4 j pos d → dbit d 79 = false → dfield d 71 8 = 1 → k = dfield d 64 7 →
    s.spillGate f d = .go → imageAt d 0 + 24576 ≤ 0x600000 → s.poison = [] → ∃ t, exec (.accMoveSpill f n) s = .next t ∧ t.ld (leafBase f + imageAt d 0) 0x4000 = s.ld (accAddr f k 0 0) 0x4000 ∧
      (∀ i : Fin 256, t.ld (leafBase f + imageAt d 0 + 0x4000 + 32 * i.val) 32 = cellBytes (s.cell f k (i.val / 16) (i.val % 16))) ∧
      t.g (Reg.STR_TILEt_STATE f k) = 0 ∧ t.g (Reg.STR_TILEt_CLAIMED f k) = 0 ∧ t.g (Reg.STR_SPILL_TILE_CNT f) = min (s.g (Reg.STR_SPILL_TILE_CNT f) + 1) 0xFFFFFFFF ∧
      ∀ a : Nat, leafBase f ≤ a → a < leafBase f + 0x800000 → (a < leafBase f + imageAt d 0 ∨ leafBase f + imageAt d 0 + 24576 ≤ a) → t.ld1 a = s.ld1 a) ∧
  (∀ (s : State) (f : Fin 6) (n : Fin 32) (j pos k : Nat) (d : BitVec 256), s.issues f n 4 j pos d → dbit d 79 = true → dfield d 71 8 = 1 → k = dfield d 64 7 →
    s.reloadGate f d = .go → imageAt d 0 + 24576 ≤ 0x600000 → s.poison = [] → ∃ t, exec (.accMoveReload f n) s = .next t ∧ t.ld (accAddr f k 0 0) 0x4000 = s.ld (leafBase f + imageAt d 0) 0x4000 ∧
      (∀ i : Fin 256, t.cell f k (i.val / 16) (i.val % 16) = cellOf (s.ld (leafBase f + imageAt d 0 + 0x4000 + 32 * i.val) 32)) ∧
      t.g (Reg.STR_TILEt_STATE f k) = 1 ∧ t.g (Reg.STR_TILEt_CLAIMED f k) = 1 ∧ t.g (Reg.STR_TILEt_CLAIMANT f k) = n.val ∧
      ∀ a : Nat, leafBase f ≤ a → a < leafBase f + 0x800000 → (a < accAddr f k 0 0 ∨ accAddr f k 0 0 + 0x4000 ≤ a) → t.ld1 a = s.ld1 a) ∧
  (∀ x : Cell, x.ty < 4 → cellOf (cellBytes x) = x)

/-- A writer that may write FW fields starts a stream that is IDLE, DONE, ACC_SHORT or ABORTED at HEAD; in RUN, WAIT and ERR the write is ignored and counted. ABORT on a stream with nothing in flight, in any state, takes it to ABORTED; else it issues nothing more. With 16 or fewer descriptors left, the next bale is read in order from the granary, ends after LINK or END, and counts. A post by the frond controller adds to the pair it names; a reserved number is ignored. ACC_LIMIT takes 1 to 128. A wait of 20 us counts and is reported. A re-tiled list is written where it is given and the stream restarts there; no other byte changes; a spill of a layer is reported once. -/
def Obligations.StreamsStartAbortAndFetch : Prop :=
  (∀ (s : State) (g : Byte) (f : Fin 6) (n : Fin 32) (v : Word), s.held = false → s.agentJob g.toNat = none → s.mayWrite g.toNat .fw = true → v.getLsbD 31 = true → (s.strSt f n = 0 ∨ s.strSt f n = 3 ∨ s.strSt f n = 4 ∨ s.strSt f n = 6) →
    ∃ t, exec (.streamStart g f n v) s = .next t ∧ t.strSt f n = 1 ∧ t.g (Reg.STR_Sn_CTL_RUN f n) = 1 ∧ t.g (Reg.STR_Sn_POS f n) = v.toNat % 2 ^ 23 ∧
      (t.strm f n).next = v.toNat % 2 ^ 23 ∧ (t.strm f n).fetched = [] ∧ (t.strm f n).flight = (s.strm f n).flight ∧ (∀ m, m ≠ n → t.strm f m = s.strm f m) ∧ t.mem = s.mem) ∧
  (∀ (s : State) (g : Byte) (f : Fin 6) (n : Fin 32) (v : Word), s.held = false → s.agentJob g.toNat = none → s.mayWrite g.toNat .fw = true → v.getLsbD 31 = true → (s.strSt f n = 1 ∨ s.strSt f n = 2 ∨ s.strSt f n = 5) →
    ∃ t, exec (.streamStart g f n v) s = .next t ∧ t.fronds = s.fronds ∧ t.mem = s.mem ∧ t.strSt f n = s.strSt f n ∧ t.g Reg.SYS_WR_IGN_CNT = min (s.g Reg.SYS_WR_IGN_CNT + 1) 0xFFFFFFFF) ∧
  (∀ (s : State) (g : Byte) (f : Fin 6) (n : Fin 32) (v : Word), s.held = false → s.agentJob g.toNat = none → s.mayWrite g.toNat .fw = true → v.getLsbD 31 = false → v.getLsbD 30 = true →
    ∃ t, exec (.streamAbort g f n v) s = .next t ∧ t.mem = s.mem ∧ (if (s.strm f n).flight = [] then t.strSt f n = 6 ∧ (t.strm f n).fetched = [] ∧ (t.g (Reg.STR_ERR_STK f)).testBit n.val = true
      else (t.strm f n) = { s.strm f n with aborting := true } ∧ t.strSt f n = s.strSt f n)) ∧
  (∀ (s : State) (f : Fin 6) (n : Fin 32) (j : Nat), s.held = false → s.jobOf f = some j → (s.strSt f n = 1 ∨ s.strSt f n = 2) → (s.strm f n).ended = false →
    (s.strm f n).aborting = false → (s.strm f n).fetched.length ≤ 16 → s.frondRuns f = true → s.access (unitSrc f 4) j (grnBase + 32 * (s.strm f n).next) (32 * (64 - (s.strm f n).next % 64)) false = .ok →
    ∃ t, exec (.baleFetch f n) s = .next t ∧ (t.strm f n).fetched = (s.strm f n).fetched ++ s.bale (s.strm f n).next (64 - (s.strm f n).next % 64) ∧
      (t.strm f n).next = (s.strm f n).next + (s.bale (s.strm f n).next (64 - (s.strm f n).next % 64)).length ∧ t.g (Reg.STR_BALE_CNT f) = min (s.g (Reg.STR_BALE_CNT f) + 1) 0xFFFFFFFF ∧
      t.mem = s.mem ∧ (∀ m, m ≠ n → t.strm f m = s.strm f m)) ∧
  (∀ (s : State) (pos k i : Nat) (e : Nat × BitVec 256), (s.bale pos k)[i]? = some e → e = (pos + i, s.ld256 (grnBase + 32 * (pos + i))) ∧ i < k ∧
    (i + 1 < (s.bale pos k).length → dKind e.2 ≠ 7 ∧ dEnd e.2 = false)) ∧
  (∀ (s : State) (g : Byte) (f : Fin 6) (v : Word) (k : Nat), s.held = false → s.agentJob g.toNat = none → s.mayWrite g.toNat .fw = true → k = v.toNat % 2 ^ 11 → k < 0x100 → v.getLsbD 12 = false → v.getLsbD 13 = false → v.getLsbD 14 = false → v.getLsbD 15 = false →
    s.semGet f k (v.getLsbD 11) + v.toNat / 65536 ≤ 65535 → ∃ t, exec (.strSemPost g f v) s = .next t ∧
      t.semGet f k (v.getLsbD 11) = s.semGet f k (v.getLsbD 11) + v.toNat / 65536 ∧ t.semGet f k (!v.getLsbD 11) = s.semGet f k (!v.getLsbD 11) ∧ t.mem = s.mem ∧ t.fronds = s.fronds) ∧
  (∀ (s : State) (g : Byte) (f : Fin 6) (v : Word), s.held = false → s.agentJob g.toNat = none → s.mayWrite g.toNat .fw = true → 0x100 ≤ v.toNat % 2 ^ 11 → v.toNat % 2 ^ 11 < 0x400 → ∃ t, exec (.strSemPost g f v) s = .next t ∧
      t.g Reg.SYS_WR_IGN_CNT = min (s.g Reg.SYS_WR_IGN_CNT + 1) 0xFFFFFFFF ∧ t.mem = s.mem ∧ t.fronds = s.fronds) ∧
  (∀ (s : State) (g : Byte) (f : Fin 6) (v : Word), s.held = false → s.agentJob g.toNat = none → s.mayWrite g.toNat .fw = true → (if 1 ≤ v.toNat % 256 ∧ v.toNat % 256 ≤ 128 then ∃ t, exec (.accLimitWrite g f v) s = .next t ∧ t.g (Reg.STR_CFG_ACC_LIMIT f) = v.toNat % 256 ∧ t.mem = s.mem
      else ∃ t, exec (.accLimitWrite g f v) s = .next t ∧ t.g (Reg.STR_CFG_ACC_LIMIT f) = s.g (Reg.STR_CFG_ACC_LIMIT f) ∧ t.fronds = s.fronds ∧ t.g Reg.SYS_WR_IGN_CNT = min (s.g Reg.SYS_WR_IGN_CNT + 1) 0xFFFFFFFF)) ∧
  (∀ (s : State) (f : Fin 6) (n : Fin 32) (w : Nat), s.held = false → (s.strm f n).waitAt = some w → s.strSt f n = 2 → 1 ≤ s.g (Reg.STR_Sn_STS_WKIND f n) → s.g (Reg.STR_Sn_STS_WKIND f n) ≤ 5 →
    w + 20000 * ((s.strm f n).reports + 1) ≤ s.ticks → ∃ t, exec (.streamWaitWatchdog f n) s = .next t ∧ (t.strm f n) = { s.strm f n with reports := (s.strm f n).reports + 1 } ∧
      t.g (Reg.STR_WAIT_WD_CNT f) = min (s.g (Reg.STR_WAIT_WD_CNT f) + 1) 0xFFFFFFFF ∧ t.strSt f n = 2 ∧ t.mem = s.mem) ∧
  (∀ (s : State) (f : Fin 6) (n : Fin 32) (h : BitVec 23) (b : List (BitVec 256)) (j : Nat), s.held = false → s.jobOf f = some j → s.strSt f n = 4 →
    s.access (unitSrc f 6) j (grnBase + 32 * h.toNat) (32 * b.length) true = .ok → ∃ t, exec (.tilerRetile f n h b none) s = .next t ∧ t.strSt f n = 1 ∧ (t.strm f n).next = h.toNat ∧
      t.ld (grnBase + 32 * h.toNat) (32 * b.length) = b.flatMap (fun d => toLE 32 d.toNat) ∧ ∀ a : Nat, (a < grnBase + 32 * h.toNat ∨ grnBase + 32 * h.toNat + 32 * b.length ≤ a) → t.ld1 a = s.ld1 a) ∧
  (∀ (s : State) (f : Fin 6) (n : Fin 32) (h : BitVec 23) (b : List (BitVec 256)) (r : SpillRep) (j : Nat), j < 32 → s.held = false → s.jobOf f = some j → s.strSt f n = 4 →
    s.access (unitSrc f 6) j (grnBase + 32 * h.toNat) (32 * b.length) true = .ok → ∃ t, exec (.tilerRetile f n h b (some r)) s = .next t ∧ t.strSt f n = 1 ∧ (t.strm f n).next = h.toNat ∧
      (t.job j).spilled = (if (s.job j).spilled.contains r.layer.toNat then (s.job j).spilled else (s.job j).spilled ++ [r.layer.toNat]))

/-- A SEM descriptor without END takes its wait count and posts its count, and its stream goes on. With DET = 1 a descriptor whose turn has not come changes nothing. One of a reserved kind stops the stream with error 1 and the job faults. A BARRIER whose partners have not arrived waits in kind 4; when the last arrives all complete. LINK with REPEAT 0 goes on at TARGET; a counted one goes to TARGET until its counter reaches 0, then after the LINK. A completed descriptor leaves flight and posts; with END the stream is DONE and its sticky bit set. A confirmed wait cycle faults the job. A multicast block reaches each receiver named whose wait is met, and no other frond; a receiver that would lag beyond the slack is detached and counted. -/
def Obligations.DescriptorsSynchroniseLinkAndComplete : Prop :=
  (∀ (s : State) (f : Fin 6) (n : Fin 32) (rep : XferRep) (c : Instr), s.detTurn f n = true → c ∈ [Instr.xfer f n rep, .arrayLoop f n, .drain f n, .accMoveSpill f n, .accMoveReload f n,
      .sem f n, .barrier f n, .link f n, .descriptorReservedKind f n] → exec c s = .next s) ∧
  (∀ (s : State) (f : Fin 6) (n : Fin 32) (j pos : Nat) (d : BitVec 256), s.issues f n 5 j pos d → dEnd d = false → dWsem d < 0x100 → dPsem d < 0x100 → (dWsem d ≠ dPsem d ∨ dWside d ≠ dPside d) →
    s.semGet f (dPsem d) (dPside d) + dPostN d ≤ 65535 → ∃ t, exec (.sem f n) s = .next t ∧ t.semGet f (dWsem d) (dWside d) = s.semGet f (dWsem d) (dWside d) - dWaitN d ∧
      t.semGet f (dPsem d) (dPside d) = s.semGet f (dPsem d) (dPside d) + dPostN d ∧ t.strSt f n = 1 ∧ (t.strm f n).flight = (s.strm f n).flight ∧
      (t.strm f n).fetched = (s.strm f n).fetched.tail ∧ t.mem = s.mem ∧ t.jobs = s.jobs) ∧
  (∀ (s : State) (f : Fin 6) (n : Fin 32) (j pos k : Nat) (d : BitVec 256), s.held = false → (k = 0 ∨ 8 ≤ k) → s.headOf f n [k] = some (j, pos, d) → s.detTurn f n = false → s.plainJob j →
    ∃ t, exec (.descriptorReservedKind f n) s = .next t ∧ (t.jst j = 3 ∨ t.jst j = 5)) ∧
  (∀ (s : State) (f : Fin 6) (n : Fin 32) (k pos : Nat), k < 16 → pos < 2 ^ 23 → s.jobOf f = none → (s.streamErr f n k 0 pos).strSt f n = 5 ∧
    (s.streamErr f n k 0 pos).g (Reg.STR_Sn_STS_ERR f n) = k ∧ (s.streamErr f n k 0 pos).g (Reg.STR_Sn_POS f n) = pos ∧ ((s.streamErr f n k 0 pos).g (Reg.STR_ERR_STK f)).testBit n.val = true) ∧
  (∀ (s : State) (f : Fin 6) (n m : Fin 32) (j pos : Nat) (d : BitVec 256), s.issues f n 6 j pos d → dWsem d < 0x100 → (dMask d).testBit m.val = true → m ≠ n → s.atBarrier f m (dBarId d) = false →
    (∀ q, (s.strm f q).flight = []) → ∃ t, exec (.barrier f n) s = .next t ∧ t.strSt f n = 2 ∧ t.g (Reg.STR_Sn_STS_WKIND f n) = 4 ∧ t.g (Reg.STR_Sn_STS_WOBJ f n) = dBarId d ∧
      (t.strm f n).flight = [mkFlight d pos false] ∧ t.mem = s.mem) ∧
  (∀ (s : State) (f : Fin 6) (n : Fin 32) (j pos : Nat) (d : BitVec 256), s.issues f n 6 j pos d → dWsem d < 0x100 → dMask d = 2 ^ n.val → dPostN d = 0 → dEnd d = false → (s.strm f n).flight = [] →
    (∀ q, (s.strm f q).flight = []) → ∃ t, exec (.barrier f n) s = .next t ∧ t.strSt f n = 1 ∧ (t.strm f n).flight = [] ∧ t.mem = s.mem) ∧
  (∀ (s : State) (f : Fin 6) (n : Fin 32) (j pos : Nat) (d : BitVec 256), s.issues f n 7 j pos d → dWsem d < 0x100 → dEnd d = false → dPostN d = 0 → s.linkGate f n d = .go →
    ∃ t, exec (.link f n) s = .next t ∧ t.strSt f n = 1 ∧ (t.strm f n).fetched = [] ∧ (t.strm f n).ended = false ∧ t.mem = s.mem ∧
      (if dRepeat d = 0 then (t.strm f n).next = dTarget d ∧ (t.strm f n).rep = (s.strm f n).rep
       else if (if (s.strm f n).rep = 0 then dRepeat d else (s.strm f n).rep) = 1 then (t.strm f n).next = pos + 1 ∧ (t.strm f n).rep = 0
       else (t.strm f n).next = dTarget d ∧ (t.strm f n).rep + 1 = (if (s.strm f n).rep = 0 then dRepeat d else (s.strm f n).rep) ∧ (t.strm f n).repAt = pos)) ∧
  (∀ (s : State) (f : Fin 6) (n : Fin 32) (k : Nat) (x : Flight), s.held = false → (s.strm f n).flight[k]? = some x → x.done = true → dEnd x.desc = false → isMcast x.desc = false →
    dKind x.desc ≠ 6 → (s.strm f n).aborting = false → (∀ q, ∀ y ∈ (s.strm f q).flight, dKind y.desc ≠ 6) → dPsem x.desc < 0x100 → s.semGet f (dPsem x.desc) (dPside x.desc) + dPostN x.desc ≤ 65535 →
    ∃ t, exec (.descriptorComplete f n k) s = .next t ∧ (t.strm f n).flight = (s.strm f n).flight.erase x ∧ t.strSt f n = s.strSt f n ∧ t.mem = s.mem ∧
      t.semGet f (dPsem x.desc) (dPside x.desc) = s.semGet f (dPsem x.desc) (dPside x.desc) + dPostN x.desc) ∧
  (∀ (s : State) (f : Fin 6) (n : Fin 32) (x : Flight), s.held = false → (s.strm f n).flight = [x] → x.done = true → dEnd x.desc = true → isMcast x.desc = false →
    dKind x.desc ≠ 6 → (s.strm f n).aborting = false → (∀ q, ∀ y ∈ (s.strm f q).flight, dKind y.desc ≠ 6) → dPostN x.desc = 0 →
    ∃ t, exec (.descriptorComplete f n 0) s = .next t ∧ (t.strm f n).flight = [] ∧ t.strSt f n = 3 ∧ (t.g (Reg.STR_DONE_STK f)).testBit n.val = true ∧ t.mem = s.mem) ∧
  (∀ (s : State) (f : Fin 6) (l : List (Fin 6 × Fin 32)) (j : Nat), s.held = false → s.jobOf f = some j → s.plainJob j → s.isCycle l = true →
    l.foldl (fun (m : Nat) e => max m (gStream e.1 e.2)) 0 / 32 = f.val → ∃ t, exec (.deadlockConfirm f l) s = .next t ∧ (t.jst j = 3 ∨ t.jst j = 5)) ∧
  (∀ (s : State) (f : Fin 6) (n : Fin 32) (k : Nat) (who : BitVec 6) (x : Flight) (r : McRx), s.held = false → (s.strm f n).flight[k]? = some x → isMcast x.desc = true → x.done = false →
    x.rx = [r] → r.detached = false → who.getLsbD r.frond.val = true → r.started = true → r.delivered < x.blocks.length → ∃ t, exec (.mcastBlockDelivery f n k who) s = .next t ∧
      (t.strm f n).flight[k]? = some { x with rx := [{ r with delivered := r.delivered + 1 }], done := decide (x.blocks.length ≤ r.delivered + 1) } ∧
      ∀ a : Nat, (∀ e ∈ x.blocks.getD r.delivered [], a ≠ leafBase r.frond + e.1) → t.ld1 a = s.ld1 a) ∧
  (∀ (s : State) (f : Fin 6) (n : Fin 32) (k lead : Nat) (who : BitVec 6) (x : Flight) (r q : McRx), s.held = false → (s.strm f n).flight[k]? = some x → isMcast x.desc = true → x.done = false →
    x.rx = [q, r] → q.detached = false → r.detached = false → q.started = true → q.frond ≠ r.frond → who = BitVec.twoPow 6 q.frond.val → q.delivered < x.blocks.length →
    lead = q.delivered + 1 - r.delivered → s.g (Reg.STR_CFG_MC_SLACK f) < lead → s.mcJob r.frond = none → ∃ t, exec (.mcastBlockDelivery f n k who) s = .next t ∧
      t.g (Reg.STR_MC_DETACH_CNT f) = min (s.g (Reg.STR_MC_DETACH_CNT f) + 1) 0xFFFFFFFF ∧ (t.g (Reg.STR_MC_RX_STS r.frond)).testBit f.val = true ∧
      ((t.strm f n).flight[k]?.map (·.rx)) = some [{ q with delivered := q.delivered + 1 }, { r with detached := true }])

/-- An XFER that may issue and whose records pass moves its rows in order: a one-row transfer writes the source bytes, and FILL past the source's end, at its destination, and no other byte; any transfer changes only bytes of its rows at the destination. It is then in flight, done, with the requests its pools have room for. A multicast that passes R145 changes no memory and holds its blocks for its receivers. A full request pool holds the stream in wait kind 7. A record that is not VALID, or breaks its job's resources, stops the stream with error 3 or 4 and the job faults. A row whose destination is unmapped writes nothing and counts; one in another job's resource counts, is recorded, and the job faults. -/
def Obligations.TransfersMoveTheirRows : Prop :=
  (∀ (s : State) (f : Fin 6) (n : Fin 32) (j pos : Nat) (d : BitVec 256) (rep : XferRep) (x : XRow), s.issues f n 1 j pos d → (dWaitN d = 0 ∨ dWsem d < 0x100) → isMcast d = false → s.xferGate f n j d = .go → s.poison = [] →
    rep.ecc = .clean → xferRows d (s.tns f (dfield d 64 6)) (s.tns f (dfield d 70 6)) = [x] → (x.n ≠ 0 → s.access (unitSrc f 4) j x.dst x.n true = .ok) → ∃ t, exec (.xfer f n rep) s = .next t ∧
      (0 < x.n → t.ld x.dst x.n = s.ld x.src x.nsrc ++ List.replicate (x.n - x.nsrc) (s.tns f (dfield d 64 6)).fill) ∧ s.issued t f n pos (s.xferFlight f pos d) ∧
      t.g (Reg.STR_OUTST_FULL_CNT f) = min (s.g (Reg.STR_OUTST_FULL_CNT f) + rep.poolHeld) 0xFFFFFFFF ∧ ∀ a : Nat, (a < x.dst ∨ x.dst + x.n ≤ a) → t.ld1 a = s.ld1 a) ∧
  (∀ (s : State) (f : Fin 6) (n : Fin 32) (j pos : Nat) (d : BitVec 256) (rep : XferRep), s.issues f n 1 j pos d → (dWaitN d = 0 ∨ dWsem d < 0x100) → isMcast d = false → s.xferGate f n j d = .go → rep.ecc = .clean →
    (∀ x ∈ xferRows d (s.tns f (dfield d 64 6)) (s.tns f (dfield d 70 6)), x.n ≠ 0 → s.access (unitSrc f 4) j x.dst x.n true = .ok) →
    ∃ t, exec (.xfer f n rep) s = .next t ∧ s.issued t f n pos (s.xferFlight f pos d) ∧
      ∀ a : Nat, (∀ x ∈ xferRows d (s.tns f (dfield d 64 6)) (s.tns f (dfield d 70 6)), a < x.dst ∨ x.dst + x.n ≤ a) → t.ld1 a = s.ld1 a) ∧
  (∀ (s : State) (f : Fin 6) (n : Fin 32) (j pos : Nat) (d : BitVec 256) (rep : XferRep), s.issues f n 1 j pos d → isMcast d = true → s.xferGate f n j d = .go → rep.ecc = .clean →
    ∃ t, exec (.xfer f n rep) s = .next t ∧ t.mem = s.mem ∧ (t.strm f n).flight.length = (s.strm f n).flight.length + 1 ∧
      ((t.strm f n).flight.getLast?.map (fun x => (x.rx.map (·.frond), x.blocks.flatten.map (fun e => e.2.1)))) = some (mcastFronds d,
        (xferRows d (s.tns f (dfield d 64 6)) (s.tns f (dfield d 70 6))).flatMap (fun x => s.rowBytes x (s.tns f (dfield d 64 6)).fill))) ∧
  (∀ (s : State) (f : Fin 6) (n : Fin 32) (j pos : Nat) (d : BitVec 256) (rep : XferRep), s.issues f n 1 j pos d → s.xferGate f n j d = .wait 7 0 → ∃ t, exec (.xfer f n rep) s = .next t ∧
    t.strSt f n = 2 ∧ t.g (Reg.STR_Sn_STS_WKIND f n) = 7 ∧ (t.strm f n).fetched = (s.strm f n).fetched ∧ (t.strm f n).flight = (s.strm f n).flight ∧ t.mem = s.mem ∧ t.jobs = s.jobs) ∧
  (∀ (s : State) (f : Fin 6) (n : Fin 32) (j pos : Nat) (d : BitVec 256) (rep : XferRep), s.issues f n 1 j pos d → (s.xferGate f n j d = .err 3 ∨ s.xferGate f n j d = .err 4 ∨ s.xferGate f n j d = .err 9) → s.plainJob j →
    ∃ t, exec (.xfer f n rep) s = .next t ∧ (t.jst j = 3 ∨ t.jst j = 5)) ∧
  (∀ (s : State) (f : Fin 6) (n : Fin 32) (j : Nat) (d : BitVec 256), (s.tns f (dfield d 64 6)).valid = false → s.xferGate f n j d = .err 3) ∧
  (∀ (s : State) (f : Fin 6) (n : Fin 32) (j pos : Nat) (d : BitVec 256) (rep : XferRep) (x : XRow), s.issues f n 1 j pos d → (dWaitN d = 0 ∨ dWsem d < 0x100) → isMcast d = false → s.xferGate f n j d = .go → rep.ecc = .clean →
    xferRows d (s.tns f (dfield d 64 6)) (s.tns f (dfield d 70 6)) = [x] → x.n ≠ 0 → s.access (unitSrc f 4) j x.dst x.n true = .unmapped → ∃ t, exec (.xfer f n rep) s = .next t ∧
      t.mem = s.mem ∧ s.issued t f n pos (s.xferFlight f pos d) ∧ t.g Reg.SYS_UNMAPPED_CNT = min (s.g Reg.SYS_UNMAPPED_CNT + 1) 0xFFFFFFFF ∧ t.g Reg.SYS_UNMAPPED_ADDR_LO = x.dst % 2 ^ 32 ∧
      t.g Reg.SYS_UNMAPPED_ADDR_HI_AGENT = unitSrc f 4 ∧ t.g Reg.SYS_UNMAPPED_ADDR_HI_WRITE = 1) ∧
  (∀ (s : State) (f : Fin 6) (n : Fin 32) (j k pos : Nat) (d : BitVec 256) (rep : XferRep) (x : XRow), s.issues f n 1 j pos d → (dWaitN d = 0 ∨ dWsem d < 0x100) → isMcast d = false → s.xferGate f n j d = .go → rep.ecc = .clean →
    xferRows d (s.tns f (dfield d 64 6)) (s.tns f (dfield d 70 6)) = [x] → x.n ≠ 0 → s.access (unitSrc f 4) j x.dst x.n true = .cross k → s.plainJob j → ∃ t, exec (.xfer f n rep) s = .next t ∧
      (t.jst j = 3 ∨ t.jst j = 5) ∧ t.g Reg.JOB_XACCESS_CNT = min (s.g Reg.JOB_XACCESS_CNT + 1) 0xFFFFFFFF ∧ t.g Reg.SYS_UNMAPPED_CNT = min (s.g Reg.SYS_UNMAPPED_CNT + 1) 0xFFFFFFFF)

/-- An atomic that its controller may make, with DET = 0, writes the value of its operation at its width and, when asked, returns the old value sign-extended; LR returns the value, writes nothing and reserves the 32-byte word; SC stores and returns 0 while its reservation lasts, else stores nothing and returns 1, and the reservation ends. No other byte changes; a word the read corrects counts. With DET = 1 an atomic that returns is not performed and the job faults. FADD by the set's own controller adds with one FP32 rounding; by another agent it is ignored and counted. A post through the port adds to a granary counter, and one that would overflow changes nothing. -/
def Obligations.AtomicsActAtTheGranary : Prop :=
  (∀ (s : State) (c : Fin 7) (ret dw : Bool) (op : AmoOp) (a : Addr) (v : BitVec 64) (n : Nat), s.held = false → n = (if dw then 8 else 4) → s.amoAccess c a.toNat n true = .ok →
    (s.det = false ∨ (ret = false)) → op ≠ .lr → op ≠ .sc → ∃ t, exec (.granaryAmo c ret op a dw v .clean) s = .next t ∧
      t.ldN a.toNat n = amoValue op (8 * n) (s.ldN a.toNat n) (v.toNat % 2 ^ (8 * n)) % 2 ^ (8 * n) ∧
      t.readOut = s.readOut ++ (if ret then amoResult dw (s.ldN a.toNat n) else []) ∧ t.jobs = s.jobs ∧ t.fronds = s.fronds ∧
      ∀ b : Nat, (b < a.toNat ∨ a.toNat + n ≤ b) → t.ld1 b = s.ld1 b) ∧
  (∀ (s : State) (c : Fin 7) (ret dw : Bool) (a : Addr) (v : BitVec 64) (n : Nat), s.held = false → n = (if dw then 8 else 4) → s.amoAccess c a.toNat n false = .ok → s.det = false →
    ∃ t, exec (.granaryAmo c ret .lr a dw v .clean) s = .next t ∧ t.mem = s.mem ∧ t.mems.resv.contains (c.val, a.toNat / 32 * 32) = true ∧
      t.readOut = s.readOut ++ amoResult dw (s.ldN a.toNat n) ∧ t.jobs = s.jobs) ∧
  (∀ (s : State) (c : Fin 7) (ret dw : Bool) (a : Addr) (v : BitVec 64) (n : Nat), s.held = false → n = (if dw then 8 else 4) → s.amoAccess c a.toNat n true = .ok → s.det = false →
    ∃ t, exec (.granaryAmo c ret .sc a dw v .clean) s = .next t ∧ (t.mems.resv.any (fun r => r.1 == c.val)) = false ∧
      (if s.mems.resv.contains (c.val, a.toNat / 32 * 32) = true then t.ldN a.toNat n = v.toNat % 2 ^ (8 * n) ∧ t.readOut = s.readOut ++ amoResult dw 0
       else t.mem = s.mem ∧ t.readOut = s.readOut ++ amoResult dw 1) ∧ ∀ b : Nat, (b < a.toNat ∨ a.toNat + n ≤ b) → t.ld1 b = s.ld1 b) ∧
  (∀ (s : State) (c : Fin 7) (ret dw : Bool) (op : AmoOp) (a : Addr) (v : BitVec 64) (e : CtlRead) (j : Nat), s.held = false → s.amoAccess c a.toNat (if dw then 8 else 4) (op != .lr) = .ok → s.det = true →
    (ret = true ∨ op = .lr ∨ op = .sc) → s.agentJob (ctlSrc c) = some j → s.plainJob j → ∃ t, exec (.granaryAmo c ret op a dw v e) s = .next t ∧ (t.jst j = 3 ∨ t.jst j = 5)) ∧
  (∀ (s : State) (c : Fin 7) (ret dw : Bool) (op : AmoOp) (a : Addr) (v : BitVec 64) (o : Nat), s.held = false → s.amoAccess c a.toNat (if dw then 8 else 4) (op != .lr) = .ok → s.region a.toNat = .granary o →
    s.det = false → ∃ u t, exec (.granaryAmo c ret op a dw v .clean) s = .next u ∧ exec (.granaryAmo c ret op a dw v .corrected) s = .next t ∧ t.mem = u.mem ∧ t.readOut = u.readOut ∧
      t.mems = u.mems ∧ t.g Reg.GRN_CE_CNT = min (s.g Reg.GRN_CE_CNT + 1) 0xFFFFFFFF) ∧
  (∀ (s : State) (c : Fin 7) (ret dw : Bool) (op : AmoOp) (a : Addr) (v : BitVec 64) (e : CtlRead), s.held = false → s.amoAccess c a.toNat (if dw then 8 else 4) (op != .lr) = .unmapped →
    ∃ t, exec (.granaryAmo c ret op a dw v e) s = .next t ∧ t.mem = s.mem ∧ t.mems = s.mems ∧ t.jobs = s.jobs ∧ t.g Reg.SYS_UNMAPPED_CNT = min (s.g Reg.SYS_UNMAPPED_CNT + 1) 0xFFFFFFFF ∧
      t.g Reg.SYS_UNMAPPED_ADDR_HI_WRITE = (if op = .lr then 0 else 1)) ∧
  (∀ (op : AmoOp) (w old v : Nat), amoValue .swap w old v = v ∧ amoValue .add w old v = (old + v) % 2 ^ w ∧ amoValue .minu w old v = min old v ∧ amoValue .maxu w old v = max old v ∧
    sx w (amoValue .min w old v) = min (sx w old) (sx w v) ∧ sx w (amoValue .max w old v) = max (sx w old) (sx w v) ∧ (amoValue op w old v = old ∨ op ≠ .lr)) ∧
  (∀ (s : State) (g : Byte) (c : Fin 7) (v : Word) (a : Nat), s.held = false → g.toNat = ctlSrc c → a = s.g64 (Reg.GRN_FADDc_ADDR_LO c) (Reg.GRN_FADDc_ADDR_HI c) → s.amoAccess c a 4 true = .ok → s.det = false →
    (FpFmt.decode ⟨8, 23, false, false⟩ false (s.ldN a 4)).isInf = false → (FpFmt.decode ⟨8, 23, false, false⟩ false v.toNat).isInf = false →
    ∃ t, exec (.grnFadd g c v .clean) s = .next t ∧ t.ldN a 4 = (FpFmt.encode ⟨8, 23, false, false⟩ ((FpFmt.decode ⟨8, 23, false, false⟩ false (s.ldN a 4)).add
        (FpFmt.decode ⟨8, 23, false, false⟩ false v.toNat))).1 % 2 ^ 32 ∧ ∀ b : Nat, (b < a ∨ a + 4 ≤ b) → t.ld1 b = s.ld1 b) ∧
  (∀ (s : State) (g : Byte) (c : Fin 7) (v : Word) (e : CtlRead), s.held = false → g.toNat ≠ ctlSrc c → ∃ t, exec (.grnFadd g c v e) s = .next t ∧ t.mem = s.mem ∧
      t.g Reg.SYS_WR_IGN_CNT = min (s.g Reg.SYS_WR_IGN_CNT + 1) 0xFFFFFFFF) ∧
  (∀ (s : State) (g : Byte) (k : BitVec 11) (side : Bool) (n : BitVec 16), s.held = false → s.inRun = true → 0x400 ≤ k.toNat → s.semGet 0 k.toNat side + n.toNat ≤ 65535 →
    ∃ t, exec (.semaphorePortPost g k side n) s = .next t ∧ t.semGet 0 k.toNat side = s.semGet 0 k.toNat side + n.toNat ∧ t.fronds = s.fronds ∧ t.jobs = s.jobs ∧
      ∀ b : Nat, (b < s.semAddr k.toNat + (if side then 2 else 0) ∨ s.semAddr k.toNat + (if side then 4 else 2) ≤ b) → t.ld1 b = s.ld1 b) ∧
  (∀ (s : State) (g : Byte) (k : BitVec 11) (side : Bool) (n : BitVec 16), s.held = false → 0x400 ≤ k.toNat → 65535 < s.semGet 0 k.toNat side + n.toNat →
    exec (.semaphorePortPost g k side n) s = .next s)

/-- In RUN a bank that may enter RETENTION does so and keeps its bytes. A barn access that missed counts, and its line comes into the lowest free way of the requester's mask in its set, dirty when it was a store; a corrected barn word is counted, an uncorrectable one counted and poisoned. A way mask is taken when it has at most 8 ways and meets no other job's, else ignored and counted. The gleaner leaves every byte; a corrected word counts in its memory, an uncorrectable one counts and is poisoned, and no job restarts for it unless its location becomes permanent. -/
def Obligations.BanksLoftCacheAndGleanerAct : Prop :=
  (∀ (s : State) (b : Fin 1024), s.held = false → s.inRun = true → s.mayRetain (.granary b) = true → ∃ t, exec (.bankRetentionEntry (.granary b)) s = .next t ∧ t.bank b = 2 ∧
      (∀ k : Fin 1024, k ≠ b → t.bank k = s.bank k) ∧ t.mem = s.mem ∧ t.regs = s.regs) ∧
  (∀ (s : State) (f : Fin 6) (k : Fin 32), s.held = false → s.inRun = true → s.mayRetain (.leaf f k) = true → ∃ t, exec (.bankRetentionEntry (.leaf f k)) s = .next t ∧
      t.bank (leafBankKey f k) = 2 ∧ t.mem = s.mem ∧ t.regs = s.regs) ∧
  (∀ (s : State) (f : Fin 6) (c : Fin 8), s.held = false → s.inRun = true → s.mayRetain (.sig f c) = true → ∃ t, exec (.bankRetentionEntry (.sig f c)) s = .next t ∧
      t.bank (leafBankKey f (32 + c.val)) = 2 ∧ t.mem = s.mem ∧ t.regs = s.regs) ∧
  (∀ (s : State) (b : BankRef), s.held = false → (s.inRun = false ∨ s.mayRetain b = false) → exec (.bankRetentionEntry b) s = .next s) ∧
  (∀ (s : State) (job : Option (Fin 16)) (off : Nat) (w : Fin 16) (st : Bool), s.held = false → off < s.barnBytes → s.loftHas (off / 256) = false →
    (List.finRange 16).find? (fun w => (s.waysOf (job.map (·.val))).testBit w.val && !(s.mems.loft.any (fun l => l.line % 512 == off / 256 % 512 && l.way == w))) = some w →
    ∃ t, exec (.loftMissFill job off st .clean) s = .next t ∧ t.g Reg.BRN_MISS_CNT = min (s.g Reg.BRN_MISS_CNT + 1) 0xFFFFFFFF ∧ t.mem = s.mem ∧
      t.mems.loft.any (fun l => l.line == off / 256 && l.way == w && l.stale.isSome == st) = true ∧ (∀ l ∈ s.mems.loft, t.mems.loft.contains l = true)) ∧
  (∀ (s : State) (job : Option (Fin 16)) (off : Nat) (st : Bool) (e : EccState), s.held = false → (s.barnBytes ≤ off ∨ s.loftHas (off / 256) = true) → exec (.loftMissFill job off st e) s = .next s) ∧
  (∀ (s : State) (job : Option (Fin 16)) (off : Nat), s.held = false → off < s.barnBytes → s.loftHas (off / 256) = false → s.poison = [] →
    (∃ t, exec (.loftMissFill job off false .uncorrectable) s = .next t ∧ t.g Reg.BRN_UE_CNT = min (s.g Reg.BRN_UE_CNT + 1) 0xFFFFFFFF) ∧
    (∃ t, exec (.loftMissFill job off false .corrected) s = .next t ∧ t.g Reg.BRN_CE_CNT = min (s.g Reg.BRN_CE_CNT + 1) 0xFFFFFFFF ∧ t.mem = s.mem ∧ t.jobs = s.jobs)) ∧
  (∀ (s : State) (g : Byte) (v : Word) (j : Fin 16), s.held = false → s.mayWrite g.toNat .fw = true → s.g Reg.BRN_WAY_SEL = j.val → v.toNat < 65536 →
    (if popCount 16 v.toNat ≤ 8 ∧ s.mems.ways.all (fun e => e.1 == j.val || e.2.toNat &&& v.toNat == 0) = true then
      ∃ t, exec (.brnWayMaskWrite g v) s = .next t ∧ (sget 0 t.mems.ways j.val).toNat = v.toNat ∧ (∀ k : Fin 16, k ≠ j → sget 0 t.mems.ways k = sget 0 s.mems.ways k) ∧ t.mem = s.mem
     else ∃ t, exec (.brnWayMaskWrite g v) s = .next t ∧ t.mems = s.mems ∧ t.g Reg.SYS_WR_IGN_CNT = min (s.g Reg.SYS_WR_IGN_CNT + 1) 0xFFFFFFFF)) ∧
  (∀ (s : State) (a : Addr) (l tok : Bool) (e : EccState), s.held = false → (s.inRun = false ∨ s.gleanable a.toNat l = false) → exec (.gleanerVisit a l e tok) s = .next s) ∧
  (∀ (s : State) (a : Addr) (tok : Bool) (o : Nat), s.held = false → s.inRun = true → s.gleanable a.toNat false = true → s.region a.toNat = .granary o →
    (∃ t, exec (.gleanerVisit a false .clean tok) s = .next t ∧ t.mem = s.mem ∧ t.g Reg.GRN_CE_CNT = s.g Reg.GRN_CE_CNT ∧ t.jobs = s.jobs) ∧
    (∃ t, exec (.gleanerVisit a false .corrected tok) s = .next t ∧ t.mem = s.mem ∧ t.g Reg.GRN_CE_CNT = min (s.g Reg.GRN_CE_CNT + 1) 0xFFFFFFFF ∧ t.jobs = s.jobs)) ∧
  (∀ (s : State) (a : Addr) (tok : Bool) (o : Nat), s.held = false → s.inRun = true → s.gleanable a.toNat false = true → s.region a.toNat = .granary o → s.poison = [] →
    ∃ t, exec (.gleanerVisit a false .uncorrectable tok) s = .next t ∧ t.g Reg.GRN_UE_CNT = min (s.g Reg.GRN_UE_CNT + 1) 0xFFFFFFFF ∧ t.g Reg.GRN_UE_ADDR_LO = eccWord a.toNat % 2 ^ 32 ∧
      t.poisoned (eccWord a.toNat) 1 = true)

/-- UL_PLAN: a plan that breaks no check opens a record of its slot with its allocations, nothing written or released, and no other slot's record changes; one that breaks a check leaves the receiver as it was and counts in JOB_RX_PLAN_REJ_CNT. A message that fails the control checks counts in FH_P_CTL_BAD_CNT; one of another kind, or over a link that is down, changes nothing. IQ_SECTION: a correct section of an open slot adds its samples to the grid and keeps every other; with no such slot, or over samples already written, it is stray; for a symbol already released, or past its window, it is late; for a slot that is over it is stray; a section that breaks R345 counts in FH_P_BAD_SECT_CNT. A section not placed leaves the receiver as it was. Memory is unchanged where no event is raised. -/
def Obligations.UplinkPlansAndSectionsAct : Prop :=
  (∀ (s : State) (m : FhMsg) (idx edge : Nat), s.held = false → s.fhLive m = true → ctlKind m = 1 → s.ctlWhy m = 0 →
    idx = le (m.body.drop 4) 0 2 % 1024 * spf (s.g Reg.JOB_RX_CFG_SCS) + byteAt (m.body.drop 4) 2 % 128 →
    edge = s.edgeOf s.rxDom (s.g Reg.JOB_RX_CFG_SCS) (s.dom s.rxDom).nanos idx → s.ulReason (m.body.drop 4) idx edge = (0, 0xFF) → s.macQuiet →
    ∃ t, exec (.ulPlan m) s = .next t ∧ t.rx.slots = s.rx.slots ++ [⟨idx, edge, le (m.body.drop 4) 4 2,
        assigned (match s.roleJob 1 with | some j => s.jobFronds j | none => []) ((planEntries (m.body.drop 4)).map entryAlloc), 0, [], false, 0, false, [], [], []⟩] ∧
      t.rx.heads = s.rx.heads ∧ t.mem = s.mem ∧ t.jobs = s.jobs ∧ t.g Reg.JOB_RX_PLAN_REJ_CNT = s.g Reg.JOB_RX_PLAN_REJ_CNT) ∧
  (∀ (s : State) (m : FhMsg) (idx edge : Nat), s.held = false → s.fhLive m = true → ctlKind m = 1 → s.ctlWhy m = 0 →
    idx = le (m.body.drop 4) 0 2 % 1024 * spf (s.g Reg.JOB_RX_CFG_SCS) + byteAt (m.body.drop 4) 2 % 128 →
    edge = s.edgeOf s.rxDom (s.g Reg.JOB_RX_CFG_SCS) (s.dom s.rxDom).nanos idx → (s.ulReason (m.body.drop 4) idx edge).1 ≠ 0 →
    ∃ t, exec (.ulPlan m) s = .next t ∧ t.rx = s.rx ∧ t.g Reg.JOB_RX_PLAN_REJ_CNT = min (s.g Reg.JOB_RX_PLAN_REJ_CNT + 1) 0xFFFFFFFF ∧ t.jobs = s.jobs) ∧
  (∀ (s : State) (m : FhMsg), s.held = false → s.fhLive m = true → ctlKind m = 1 → s.ctlWhy m ≠ 0 → ∃ t, exec (.ulPlan m) s = .next t ∧ t.rx = s.rx ∧
      t.g (Reg.FH_P_CTL_BAD_CNT (linkPort m.link.val)) = min (s.g (Reg.FH_P_CTL_BAD_CNT (linkPort m.link.val)) + 1) 0xFFFFFFFF) ∧
  (∀ (s : State) (m : FhMsg), s.held = false → (s.fhLive m = false ∨ ctlKind m ≠ 1) → exec (.ulPlan m) s = .next s) ∧
  (∀ (s : State) (m : FhMsg) (h : SectHdr) (x : RxSlot) (p : Nat), s.held = false → s.fhLive m = true → s.sectReason m = 0 → h = sectHdr m.body →
    s.rxOpen x → x.idx = h.sfn * spf (s.g Reg.JOB_RX_CFG_SCS) + h.slot → x.start = s.edgeOf s.rxDom (s.g Reg.JOB_RX_CFG_SCS) (s.dom s.rxDom).nanos x.idx →
    x.released.getLsbD h.sym = false → s.pastWin x h.sym = false → s.nextReady = none → x.grid.any (fun e => decide (gridKey h.sym h.antenna (12 * h.prb0) ≤ e.1 ∧ e.1 < gridKey h.sym h.antenna (12 * h.prb0) + 12 * h.nprb)) = false →
    p < s.g Reg.JOB_RX_CFG_NPORT → p ≠ h.antenna → s.absent p = false → x.grid.all (fun e => keyPort e.1 != p) = true →
    ∃ t, exec (.iqSection m) s = .next t ∧ (∃ y ∈ t.rx.slots, (∀ e ∈ (h.samples m.body).1, e ∈ y.grid) ∧ (∀ e ∈ x.grid, e ∈ y.grid) ∧
        y.grid.length = x.grid.length + 12 * h.nprb ∧ { y with grid := x.grid } = x) ∧ t.absent h.antenna = false ∧
      t.g (Reg.FH_P_DECOMP_SAT_CNT (linkPort m.link.val)) = min (s.g (Reg.FH_P_DECOMP_SAT_CNT (linkPort m.link.val)) + (h.samples m.body).2) 0xFFFFFFFF ∧ t.jobs = s.jobs) ∧
  (∀ (s : State) (m : FhMsg) (h : SectHdr) (x : RxSlot), s.held = false → s.fhLive m = true → s.sectReason m = 0 → h = sectHdr m.body →
    s.rxOpen x → x.idx = h.sfn * spf (s.g Reg.JOB_RX_CFG_SCS) + h.slot → x.start = s.edgeOf s.rxDom (s.g Reg.JOB_RX_CFG_SCS) (s.dom s.rxDom).nanos x.idx →
    (x.released.getLsbD h.sym = true ∨ s.pastWin x h.sym = true) → ∃ t, exec (.iqSection m) s = .next t ∧ t.rx = s.rx ∧ t.mem = s.mem ∧
      t.g Reg.JOB_RX_LATE_SECT_CNT = min (s.g Reg.JOB_RX_LATE_SECT_CNT + 1) 0xFFFFFFFF) ∧
  (∀ (s : State) (m : FhMsg) (h : SectHdr) (x : RxSlot), s.held = false → s.fhLive m = true → s.sectReason m = 0 → h = sectHdr m.body → s.rx.slots.filter (fun y => y.idx == x.idx) = [x] →
    x.idx = h.sfn * spf (s.g Reg.JOB_RX_CFG_SCS) + h.slot → x.start = s.edgeOf s.rxDom (s.g Reg.JOB_RX_CFG_SCS) (s.dom s.rxDom).nanos x.idx → x.edge = true → x.released.getLsbD h.sym = false →
    (x.ended = true ∨ (s.pastWin x h.sym = false ∧ x.grid.any (fun e => decide (gridKey h.sym h.antenna (12 * h.prb0) ≤ e.1 ∧ e.1 < gridKey h.sym h.antenna (12 * h.prb0) + 12 * h.nprb)) = true)) →
    ∃ t, exec (.iqSection m) s = .next t ∧ t.rx = s.rx ∧ t.mem = s.mem ∧ t.g Reg.JOB_RX_STRAY_SECT_CNT = min (s.g Reg.JOB_RX_STRAY_SECT_CNT + 1) 0xFFFFFFFF) ∧
  (∀ (s : State) (m : FhMsg) (h : SectHdr), s.held = false → s.fhLive m = true → s.sectReason m = 0 → h = sectHdr m.body →
    s.rx.slots.all (fun x => x.idx != h.sfn * spf (s.g Reg.JOB_RX_CFG_SCS) + h.slot) = true → ∃ t, exec (.iqSection m) s = .next t ∧ t.rx = s.rx ∧ t.mem = s.mem ∧
      t.g Reg.JOB_RX_STRAY_SECT_CNT = min (s.g Reg.JOB_RX_STRAY_SECT_CNT + 1) 0xFFFFFFFF) ∧
  (∀ (s : State) (m : FhMsg), s.held = false → s.fhLive m = true → s.sectReason m ≠ 0 → ∃ t, exec (.iqSection m) s = .next t ∧ t.rx = s.rx ∧
      t.g (Reg.FH_P_BAD_SECT_CNT (linkPort m.link.val)) = min (s.g (Reg.FH_P_BAD_SECT_CNT (linkPort m.link.val)) + 1) 0xFFFFFFFF)

/-- SLOT_START_EDGE of the receive job's domain opens the record of the slot that starts, once; while the job does not run the slot is over and its allocations are done; an edge of neither carrier's slot changes nothing. SYMBOL_RELEASE_TIMEOUT, its window over, releases the symbol once, and counts its unwritten REs in JOB_RX_ERASED_RE_CNT and in the allocations. REFERENCE_PATH_COMPLETE writes its LLR8 set to its buffer and records its values; with the learned path complete, or no learned path, the allocation is decided by the guard's rule. GUARD_TIME_EXPIRY, not before G(n), decides every allocation of the slot that is not decided, and no other. DEADLINE_EDGE, not before D(n), leaves the slot over, its grid empty and all its allocations done; each not delivered counts in JOB_RX_LATE_CNT. -/
def Obligations.SlotsReleaseDecideAndClose : Prop :=
  (∀ (s : State) (d : Dom) (f : BitVec 10) (n : BitVec 7) (x : RxSlot), s.held = false → (s.roleJob 1).isSome = true → s.groupSect = none → d = s.rxDom →
    n.toNat < spf (s.g Reg.JOB_RX_CFG_SCS) → x.idx = f.toNat * spf (s.g Reg.JOB_RX_CFG_SCS) + n.toNat → s.slotIdxAt d (s.g Reg.JOB_RX_CFG_SCS) (s.dom d).nanos = x.idx →
    x.start = s.edgeBefore d (s.g Reg.JOB_RX_CFG_SCS) (s.dom d).nanos → (s.dom d).edgeAt ≠ x.start + 1 → s.rx.slots.filter (fun y => y.idx == x.idx) = [x] → x.edge = false →
    ∃ t, exec (.slotStartEdge d f n) s = .next t ∧ (∃ y ∈ t.rx.slots, y.idx = x.idx ∧ y.start = x.start ∧ y.edge = true ∧ y.ended = !s.rxRuns ∧ y.grid = x.grid ∧
      (s.rxRuns = false → y.allocs.all (fun a => a.done) = true))) ∧
  (∀ (s : State) (d : Dom) (f : BitVec 10) (n : BitVec 7), s.held = false →
    (∀ c ∈ [s.g Reg.JOB_RX_CFG_SCS, s.g Reg.JOB_TX_CFG_SCS], ¬(n.toNat < spf c ∧ s.slotIdxAt d c (s.dom d).nanos = f.toNat * spf c + n.toNat)) →
    exec (.slotStartEdge d f n) s = .next s) ∧
  (∀ (s : State) (idx : BitVec 17) (m : Fin 14) (x : RxSlot), s.held = false → s.rxOpen x → x.idx = idx.toNat → x.released.getLsbD m.val = false → s.pastWin x m.val = true →
    (∀ y ∈ s.rx.slots, y.edge = true → y.ended = false → y = x) → (∀ k : Fin 14, k ≠ m → x.released.getLsbD k.val = true) → ∃ t, exec (.symbolReleaseTimeout idx m) s = .next t ∧
      (∃ y ∈ t.rx.slots, y.idx = x.idx ∧ y.start = x.start ∧ y.released = 0x3FFF ∧ y.grid.map (fun e => e.1) = x.grid.map (fun e => e.1) ∧
        y.allocs = x.allocs.map (fun a => a.addErased (s.g Reg.JOB_RX_CFG_NPORT) m.val (symEntries x.grid m.val))) ∧
      t.g Reg.JOB_RX_ERASED_RE_CNT = min (s.g Reg.JOB_RX_ERASED_RE_CNT + (s.g Reg.JOB_RX_CFG_NPORT * 12 * s.g Reg.JOB_RX_CFG_NPRB - (symEntries x.grid m.val).length)) 0xFFFFFFFF ∧ t.jobs = s.jobs) ∧
  (∀ (s : State) (idx : BitVec 17) (m : Fin 14) (x : RxSlot), s.held = false → s.rxOpen x → x.idx = idx.toNat → (s.pastWin x m.val = false ∨ (x.released = 0x3FFF ∧ s.nextReady = none)) →
    exec (.symbolReleaseTimeout idx m) s = .next s) ∧
  (∀ (s : State) (v : RefDone) (x : RxSlot) (a b : Alloc) (q : List Int), s.held = false → s.rxOpen x → a ∈ x.allocs → s.tagged v.tag.toNat = some (x, a) → a.frond = v.frond → a.refDone = false →
    s.pathOpen x a = true → q = (s.groupFor x a).llrs a → s.rxSpace a.frond v.buf.toNat q.length true = .ok →
    b = { a with refDone := true, resR := (s.groupFor x a).residual a (s.groupFor x a).hRef, mllrR := meanLlr q, tR := s.compact s.rxDom, bufR := v.buf.toNat } →
    (if a.path = 1 ∨ a.lrnDone = true then ∃ t, exec (.referencePathComplete v) s = .next t ∧
        t.alloc x.idx a.index = some { b with decision := some (guardRule s.guardCfg b).1, reason := (guardRule s.guardCfg b).2, tG := s.compact s.rxDom, buf := some (if (guardRule s.guardCfg b).1 = 0 then b.bufL else b.bufR) } ∧
        t.g Reg.JOB_RX_ALLOC_CNT = min (s.g Reg.JOB_RX_ALLOC_CNT + 1) 0xFFFFFFFF ∧ t.jobs = s.jobs
     else ∃ t, exec (.referencePathComplete v) s = .next t ∧ t.alloc x.idx a.index = some b ∧ t.jobs = s.jobs ∧
        t.ld (grnBase + 32 * v.buf.toNat) q.length = q.map (fun c => BitVec.ofInt 8 c) ∧ ∀ k : Nat, (k < grnBase + 32 * v.buf.toNat ∨ grnBase + 32 * v.buf.toNat + q.length ≤ k) → t.ld1 k = s.ld1 k)) ∧
  (∀ (s : State) (v : RefDone), s.held = false → s.tagged v.tag.toNat = none → exec (.referencePathComplete v) s = .next s) ∧
  (∀ (s : State) (v : RefDone) (x : RxSlot) (a : Alloc), s.held = false → s.tagged v.tag.toNat = some (x, a) → (a.refDone = true ∨ s.pathOpen x a = false) → exec (.referencePathComplete v) s = .next s) ∧
  (∀ (s : State) (idx : BitVec 17) (x : RxSlot) (a : Alloc), s.held = false → s.rxOpen x → x.idx = idx.toNat → a ∈ x.allocs → s.pastG x = true → ∃ t, exec (.guardTimeExpiry idx) s = .next t ∧
      (if a.decision = none ∧ a.done = false then ∃ b ∈ (t.alloc x.idx a.index).toList, b.decision = some (guardRule s.guardCfg a).1 ∧ b.reason = (guardRule s.guardCfg a).2 ∧
          b.done = decide ((guardRule s.guardCfg a).1 = 3)
       else t.alloc x.idx a.index = some a) ∧
      t.g Reg.JOB_RX_ALLOC_CNT = min (s.g Reg.JOB_RX_ALLOC_CNT + x.allocs.countP (fun a => a.decision.isNone && !a.done)) 0xFFFFFFFF ∧ t.jobs = s.jobs) ∧
  (∀ (s : State) (idx : BitVec 17) (x : RxSlot), s.held = false → s.rxOpen x → x.idx = idx.toNat → s.pastG x = false → exec (.guardTimeExpiry idx) s = .next s) ∧
  (∀ (s : State) (idx : BitVec 17) (x : RxSlot), s.held = false → s.rxOpen x → x.idx = idx.toNat → s.pastD x = true → (∀ a ∈ x.allocs, a.decision.isSome = true) → ∃ t, exec (.deadlineEdge idx) s = .next t ∧
      (∃ y ∈ t.rx.slots, y.idx = x.idx ∧ y.ended = true ∧ y.grid = [] ∧ y.allocs.all (fun a => a.done) = true) ∧
      t.g Reg.JOB_RX_LATE_CNT = min (s.g Reg.JOB_RX_LATE_CNT + x.allocs.countP (fun a => !a.done)) 0xFFFFFFFF ∧
      t.rx.slots.filter (fun y => y.idx != x.idx) = s.rx.slots.filter (fun y => y.idx != x.idx) ∧ t.jobs = s.jobs) ∧
  (∀ (s : State) (idx : BitVec 17) (x : RxSlot), s.held = false → s.rxOpen x → x.idx = idx.toNat → s.pastD x = false → s.digestDue idx.toNat = false → exec (.deadlineEdge idx) s = .next s)

/-- THR_CMD_PUSH appends W0 to W15 to the queue of 32, and is ignored and counted when it is full. DECODE and ENCODE take the head when nothing runs: one that breaks R257 is not run and the job faults; else the result of the code goes to DST and no other byte of memory changes, the counters count, the command waits for its completion. THR_CANCEL removes the queued commands with its TAG and marks a running one. An edge-class record takes the value written, unless a queued or running command names its bank: then ignored and counted. Other fronds are unchanged. -/
def Obligations.ThreshersQueueDecodeAndEncode : Prop :=
  (∀ (s : State) (g : Byte) (f : Fin 6) (v : Word), s.held = false → s.agentJob g.toNat = none → s.mayWrite g.toNat .fw = true → v = 1 → (s.fr f).thr.queue.length < 32 →
    ∃ t, exec (.thrCmdPush g f v) s = .next t ∧ (t.fr f).thr = { (s.fr f).thr with queue := (s.fr f).thr.queue ++ [(List.range 16).map (fun i => s.reg (Reg.THR_CMD_Ww f i).addr)] } ∧
      t.g (Reg.THR_STS_FREE f) = 31 - (s.fr f).thr.queue.length ∧ t.mem = s.mem ∧ (∀ h, h ≠ f → t.fr h = s.fr h)) ∧
  (∀ (s : State) (g : Byte) (f : Fin 6) (v : Word), s.held = false → s.agentJob g.toNat = none → s.mayWrite g.toNat .fw = true → v = 1 → 32 ≤ (s.fr f).thr.queue.length →
    ∃ t, exec (.thrCmdPush g f v) s = .next t ∧ t.fronds = s.fronds ∧ t.g Reg.SYS_WR_IGN_CNT = min (s.g Reg.SYS_WR_IGN_CNT + 1) 0xFFFFFFFF) ∧
  (∀ (s : State) (f : Fin 6) (c : List Word) (q : List (List Word)) (j dst n : Nat) (o : ThrOut), s.held = false → (s.fr f).thr = ⟨c :: q, none, false⟩ → s.jobOf f = some j → s.frondRuns f = true →
    cfield c 0 0 2 = 0 → s.thrCheck f j c = 0 → s.poisoned (grnBase + 32 * cfield c 2 0 23) (cfield c 5 0 24) = false →
    o = s.thrDecode f c ((s.ld (grnBase + 32 * cfield c 2 0 23) (cfield c 5 0 24)).map llr8) → dst = grnBase + 32 * cfield c 3 0 23 → n = 32 * ceilDiv (codeParam (thrParam c)).tbs 256 →
    ∃ t, exec (.decode f) s = .next t ∧ t.ld dst n = packLsb n o.out ++ zeros (n - (packLsb n o.out).length) ∧
      (t.fr f).thr = ⟨q, some ⟨c, true, false, thrStatus c (b2n !o.pass) (codeParam (thrParam c)).c o⟩, false⟩ ∧
      t.g (Reg.THR_CB_CNT f) = min (s.g (Reg.THR_CB_CNT f) + o.blocks) 0xFFFFFFFF ∧ t.g (Reg.THR_ITER_CNT f) = min (s.g (Reg.THR_ITER_CNT f) + o.iterSum) 0xFFFFFFFF ∧
      t.g (Reg.THR_TB_CRC_FAIL_CNT f) = min (s.g (Reg.THR_TB_CRC_FAIL_CNT f) + b2n !o.pass) 0xFFFFFFFF ∧ t.jobs = s.jobs ∧ (∀ h, h ≠ f → t.fr h = s.fr h) ∧
      ∀ a : Nat, (a < dst ∨ dst + n ≤ a) → t.ld1 a = s.ld1 a) ∧
  (∀ (s : State) (f : Fin 6) (c : List Word) (q : List (List Word)) (j dst : Nat) (l : List Bool), s.held = false → (s.fr f).thr = ⟨c :: q, none, false⟩ → s.jobOf f = some j → s.frondRuns f = true →
    cfield c 0 0 2 = 1 → s.thrCheck f j c = 0 → s.poisoned (grnBase + 32 * cfield c 2 0 23) (ceilDiv (codeParam (thrParam c)).tbs 8) = false →
    s.thrEncode f c ((lsbBits (s.ld (grnBase + 32 * cfield c 2 0 23) (ceilDiv (codeParam (thrParam c)).tbs 8))).take (codeParam (thrParam c)).tbs) = some l → dst = grnBase + 32 * cfield c 3 0 23 →
    ∃ t, exec (.encode f) s = .next t ∧ t.ld dst (packLsb (ceilDiv (cfield c 5 0 24) 8) l).length = packLsb (ceilDiv (cfield c 5 0 24) 8) l ∧
      (t.fr f).thr = ⟨q, some ⟨c, true, false, thrStatus c 3 (codeParam (thrParam c)).c ⟨[], true, 0, 0, 0, 0, 0, 0⟩⟩, false⟩ ∧
      t.g (Reg.THR_ENC_CB_CNT f) = min (s.g (Reg.THR_ENC_CB_CNT f) + (codeParam (thrParam c)).c) 0xFFFFFFFF ∧ t.jobs = s.jobs ∧ (∀ h, h ≠ f → t.fr h = s.fr h) ∧
      ∀ a : Nat, (a < dst ∨ dst + ceilDiv (cfield c 5 0 24) 8 ≤ a) → t.ld1 a = s.ld1 a) ∧
  (∀ (s : State) (f : Fin 6) (c : List Word) (q : List (List Word)) (j : Nat), s.held = false → (s.fr f).thr = ⟨c :: q, none, false⟩ → s.jobOf f = some j → s.frondRuns f = true →
    s.thrCheck f j c ≠ 0 → cfield c 0 0 2 ≠ 1 → s.plainJob j → ∃ t, exec (.decode f) s = .next t ∧ (t.fr f).thr.run = none ∧ (t.jst j = 3 ∨ t.jst j = 5)) ∧
  (∀ (s : State) (f : Fin 6), s.held = false → ((s.fr f).thr.queue = [] ∨ (s.fr f).thr.run.isSome = true) → exec (.decode f) s = .next s ∧ exec (.encode f) s = .next s) ∧
  (∀ (s : State) (g : Byte) (f : Fin 6) (v : Word) (n : Nat), s.held = false → s.agentJob g.toNat = none → s.mayWrite g.toNat .fw = true → v.getLsbD 16 = true → n = v.toNat % 65536 → ∃ t, exec (.thrCancel g f v) s = .next t ∧
      (t.fr f).thr.queue = (s.fr f).thr.queue.filter (fun c => thrTag c != n) ∧ (t.fr f).thr.run = (s.fr f).thr.run.map (fun r => if thrTag r.cmd = n then { r with cancelled := true } else r) ∧
      t.mem = s.mem ∧ (∀ h, h ≠ f → t.fr h = s.fr h)) ∧
  (∀ (s : State) (g : Byte) (f : Fin 6) (b : Fin 2) (c : Fin 64) (v : Word), s.held = false → s.agentJob g.toNat = none → s.mayWrite g.toNat .fw = true → v.toNat < 65536 → (s.fr f).thr.usesBank b.val = false → ∃ t, exec (.thrEtblWrite g f b c v) s = .next t ∧
      t.edgeBank f b.val = (s.edgeBank f b.val).set c.val (v.toNat % 256, v.toNat / 256) ∧ t.edgeBank f (1 - b.val) = s.edgeBank f (1 - b.val) ∧ t.fronds = s.fronds ∧ t.mem = s.mem) ∧
  (∀ (s : State) (g : Byte) (f : Fin 6) (b : Fin 2) (c : Fin 64) (v : Word), s.held = false → s.agentJob g.toNat = none → s.mayWrite g.toNat .fw = true → (s.fr f).thr.usesBank b.val = true → ∃ t, exec (.thrEtblWrite g f b c v) s = .next t ∧
      t.edgeBank f b.val = s.edgeBank f b.val ∧ t.fronds = s.fronds ∧ t.g Reg.SYS_WR_IGN_CNT = min (s.g Reg.SYS_WR_IGN_CNT + 1) 0xFFFFFFFF)

/-- A command whose work is done completes: its 12 status bytes, the time in domain A and 16 zero bytes go to STATUS and no other byte of memory changes, nothing runs any more, and THR_TB_CNT counts; RESULT is 2 for a cancelled command. Its post adds to the semaphore it names. With FAIL_EV off no event is raised. A completed DECODE of a decided allocation that is not delivered delivers it: OK or CRC_FAIL by its RESULT; that of a label ENCODE moves the label work on with the codeword. A post that would overflow is not made, and the job faults. Without a command whose work is done nothing changes. -/
def Obligations.ThresherCommandsCompleteAndDeliver : Prop :=
  (∀ (s : State) (f : Fin 6) (r : ThrRun) (st : List Byte) (a : Nat), s.held = false → (s.fr f).thr.run = some r → r.computed = true → r.status.length = 12 → cfield r.cmd 6 28 4 = 0 →
    s.on (Reg.THR_CFG_FAIL_EV f) = false → s.tagged (thrTag r.cmd) = none → st = (if r.cancelled = true then r.status.take 2 ++ [2] ++ r.status.drop 3 else r.status) → a = grnBase + 32 * cfield r.cmd 4 0 23 →
    ∃ t, exec (.thrCommandComplete f) s = .next t ∧ t.ld a 32 = st ++ toLE 4 (s.compact .a) ++ zeros 16 ∧ (t.fr f).thr = { (s.fr f).thr with run := none } ∧
      t.g (Reg.THR_TB_CNT f) = min (s.g (Reg.THR_TB_CNT f) + 1) 0xFFFFFFFF ∧ t.g (Reg.THR_STS_BUSY f) = 0 ∧ t.jobs = s.jobs ∧ t.rx = s.rx ∧ (∀ h, h ≠ f → t.fr h = s.fr h) ∧
      ∀ b : Nat, (b < a ∨ a + 32 ≤ b) → t.ld1 b = s.ld1 b) ∧
  (∀ (s : State) (f : Fin 6) (r : ThrRun), s.held = false → (s.fr f).thr.run = some r → r.computed = true → cfield r.cmd 6 16 11 < 0x100 → cfield r.cmd 6 27 1 = 0 →
    s.g (Reg.STR_SEMs_FULL f (cfield r.cmd 6 16 11)) + cfield r.cmd 6 28 4 ≤ 65535 → ∃ t, exec (.thrCommandComplete f) s = .next t ∧ (t.fr f).thr.run = none ∧
      t.g (Reg.STR_SEMs_FULL f (cfield r.cmd 6 16 11)) = s.g (Reg.STR_SEMs_FULL f (cfield r.cmd 6 16 11)) + cfield r.cmd 6 28 4) ∧
  (∀ (s : State) (f : Fin 6) (r : ThrRun) (j : Nat), s.held = false → (s.fr f).thr.run = some r → r.computed = true → cfield r.cmd 6 16 11 < 0x100 → cfield r.cmd 6 27 1 = 0 → cfield r.cmd 6 28 4 ≠ 0 →
    65535 < s.g (Reg.STR_SEMs_FULL f (cfield r.cmd 6 16 11)) + cfield r.cmd 6 28 4 → s.jobOf f = some j → s.plainJob j → ∃ t, exec (.thrCommandComplete f) s = .next t ∧
      (t.fr f).thr.run = none ∧ (t.jst j = 3 ∨ t.jst j = 5)) ∧
  (∀ (s : State) (f : Fin 6) (r : ThrRun) (x : RxSlot) (a : Alloc) (n : Nat), s.held = false → (s.fr f).thr.run = some r → r.computed = true → r.cancelled = false → r.status.length = 12 →
    cfield r.cmd 6 28 4 = 0 → s.tagged (thrTag r.cmd) = some (x, a) → a ∈ x.allocs → s.rxOpen x → a.frond = f → a.done = false → a.decision = some n → n ≠ 3 → byteAt r.status 2 ≤ 1 →
    thrParam r.cmd = a.decode → a.buf = some (cfield r.cmd 2 0 23) → s.pastD x = false → ∃ t, exec (.thrCommandComplete f) s = .next t ∧
      t.alloc x.idx a.index = some { a with done := true, crcOk := byteAt r.status 2 == 0, dec := some (cfield r.cmd 3 0 23) } ∧ (t.fr f).thr.run = none ∧ t.jobs = s.jobs) ∧
  (∀ (s : State) (f : Fin 6) (r : ThrRun) (x : RxSlot) (a : Alloc) (p d n : Nat), s.held = false → (s.fr f).thr.run = some r → r.computed = true → r.cancelled = false → r.status.length = 12 →
    cfield r.cmd 6 28 4 = 0 → s.tagged (thrTag r.cmd) = some (x, a) → a ∈ x.allocs → s.rxOpen x → a.frond = f → a.labelled = 1 → byteAt r.status 2 = 3 →
    thrParam r.cmd = a.decode → a.dec = some (cfield r.cmd 2 0 23) → cfield r.cmd 5 0 24 = a.coded → p = grnBase + 32 * cfield r.cmd 4 0 23 → d = grnBase + 32 * cfield r.cmd 3 0 23 →
    n = ceilDiv (cfield r.cmd 5 0 24) 8 → (p + 32 ≤ d ∨ d + n ≤ p) → ∃ t, exec (.thrCommandComplete f) s = .next t ∧
      t.alloc x.idx a.index = some { a with labelled := 2, bits := s.ld d n } ∧ (t.fr f).thr.run = none ∧ t.jobs = s.jobs) ∧
  (∀ (s : State) (f : Fin 6), s.held = false → (s.fr f).thr.run = none → exec (.thrCommandComplete f) s = .next s)

/-- DL_PLAN: a plan that breaks no check opens a record of its slot; one that breaks a check leaves every slot as it was and counts in JOB_TX_PLAN_REJ_CNT. DL_TB and PRECODER: a part that fits the allocation it names is placed at its OFFSET, a byte already received keeping its first value, and the allocation starts once its data is complete; a part that breaks R348, or comes after the cut-off time, is dropped and counts in FH_P_CTL_BAD_CNT. FH_CTL_BAD: a message that fails the control checks counts and leaves the plans and slots as they were. TB_LEAD_CUTOFF: once for its slot, when its time has come; each allocation without complete data is dropped and counts in JOB_TX_TB_LATE_CNT, each other counts in JOB_TX_ALLOC_CNT. -/
def Obligations.DownlinkPlansAndDataAct : Prop :=
  (∀ (s : State) (m : FhMsg) (idx edge : Nat), s.held = false → s.fhLive m = true → ctlKind m = 2 → s.ctlWhy m = 0 → idx = le (m.body.drop 4) 0 2 % 1024 * spf (s.g Reg.JOB_TX_CFG_SCS) + byteAt (m.body.drop 4) 2 % 128 →
    edge = s.edgeOf s.txDom (s.g Reg.JOB_TX_CFG_SCS) (s.dom s.txDom).nanos idx → s.dlReason (m.body.drop 4) idx edge = (0, 0xFF) → s.macQuiet →
    ∃ t, exec (.dlPlan m) s = .next t ∧ t.tx = s.tx ++ [⟨idx, edge, (planEntries (m.body.drop 4)).map (fun e => txAlloc (entryAlloc e)), false, [], []⟩] ∧ t.rx = s.rx ∧ t.mem = s.mem ∧ t.jobs = s.jobs) ∧
  (∀ (s : State) (m : FhMsg) (idx edge : Nat), s.held = false → s.fhLive m = true → ctlKind m = 2 → s.ctlWhy m = 0 → idx = le (m.body.drop 4) 0 2 % 1024 * spf (s.g Reg.JOB_TX_CFG_SCS) + byteAt (m.body.drop 4) 2 % 128 →
    edge = s.edgeOf s.txDom (s.g Reg.JOB_TX_CFG_SCS) (s.dom s.txDom).nanos idx → (s.dlReason (m.body.drop 4) idx edge).1 ≠ 0 → s.macQuiet →
    ∃ t, exec (.dlPlan m) s = .next t ∧ t.tx = s.tx ∧ t.rx = s.rx ∧ t.g Reg.JOB_TX_PLAN_REJ_CNT = min (s.g Reg.JOB_TX_PLAN_REJ_CNT + 1) 0xFFFFFFFF ∧ t.jobs = s.jobs) ∧
  (∀ (s : State) (m : FhMsg) (x : TxSlot) (a : TxAlloc), s.held = false → s.fhLive m = true → ctlKind m = 3 → s.ctlWhy m = 0 → s.partBad m = false → s.partOf m = some (x, a) → s.cutDue x = false →
    ∃ t, exec (.dlTb m) s = .next t ∧ (t.partOf m).map (fun e => e.2) = some (a.place false (le m.body 8 4) (m.body.drop 12) (s.g Reg.JOB_TX_CFG_GRAN) (s.g Reg.JOB_TX_CFG_NPORT)) ∧
      t.rx = s.rx ∧ t.mem = s.mem ∧ t.jobs = s.jobs) ∧
  (∀ (s : State) (m : FhMsg) (x : TxSlot) (a : TxAlloc), s.held = false → s.fhLive m = true → ctlKind m = 3 → s.ctlWhy m = 0 → (s.partBad m = true ∨ (s.partOf m = some (x, a) ∧ s.cutDue x = true)) → ∃ t, exec (.dlTb m) s = .next t ∧ t.tx = s.tx ∧
      t.g (Reg.FH_P_CTL_BAD_CNT (linkPort m.link.val)) = min (s.g (Reg.FH_P_CTL_BAD_CNT (linkPort m.link.val)) + 1) 0xFFFFFFFF ∧ t.jobs = s.jobs) ∧
  (∀ (s : State) (m : FhMsg) (x : TxSlot) (a : TxAlloc), s.held = false → s.fhLive m = true → ctlKind m = 4 → s.ctlWhy m = 0 → s.partBad m = false → s.partOf m = some (x, a) → s.cutDue x = false →
    ∃ t, exec (.precoder m) s = .next t ∧ (t.partOf m).map (fun e => e.2) = some (a.place true (le m.body 8 4) (m.body.drop 12) (s.g Reg.JOB_TX_CFG_GRAN) (s.g Reg.JOB_TX_CFG_NPORT)) ∧
      t.rx = s.rx ∧ t.mem = s.mem ∧ t.jobs = s.jobs) ∧
  (∀ (s : State) (m : FhMsg) (x : TxSlot) (a : TxAlloc), s.held = false → s.fhLive m = true → ctlKind m = 4 → s.ctlWhy m = 0 → (s.partBad m = true ∨ (s.partOf m = some (x, a) ∧ s.cutDue x = true)) → ∃ t, exec (.precoder m) s = .next t ∧ t.tx = s.tx ∧
      t.g (Reg.FH_P_CTL_BAD_CNT (linkPort m.link.val)) = min (s.g (Reg.FH_P_CTL_BAD_CNT (linkPort m.link.val)) + 1) 0xFFFFFFFF ∧ t.jobs = s.jobs) ∧
  (∀ (m : List (Nat × Option Byte)) (l : List Byte) (o i : Nat), sget none (placeBytes m o l) i =
    (if (sget none m i).isSome = true ∨ i < o ∨ o + l.length ≤ i then sget none m i else some (l.getD (i - o) 0))) ∧
  (∀ (s : State) (m : FhMsg), s.held = false → s.fhLive m = true → (s.ctlWhy m ≠ 0 ∨ ((ctlKind m = 3 ∨ ctlKind m = 4) ∧ s.partBad m = true)) → ∃ t, exec (.fhCtlBad m) s = .next t ∧ t.tx = s.tx ∧ t.rx = s.rx ∧
      t.g (Reg.FH_P_CTL_BAD_CNT (linkPort m.link.val)) = min (s.g (Reg.FH_P_CTL_BAD_CNT (linkPort m.link.val)) + 1) 0xFFFFFFFF ∧ t.jobs = s.jobs) ∧
  (∀ (s : State) (m : FhMsg), s.held = false → (s.fhLive m = false ∨ (s.ctlWhy m = 0 ∧ ctlKind m ≤ 2)) → exec (.fhCtlBad m) s = .next s) ∧
  (∀ (s : State) (idx : BitVec 17) (x : TxSlot), s.held = false → s.tx.filter (fun y => y.idx == idx.toNat) = [x] → x.cut = false → s.cutDue x = true → (x.allocs.map (fun a => a.index)).Nodup →
    ∃ t, exec (.tbLeadCutoff idx) s = .next t ∧ (∃ y ∈ t.tx, y.idx = x.idx ∧ y.cut = true ∧ y.allocs.map (fun a => (a.index, a.dropped)) = x.allocs.map (fun a => (a.index, a.dropped || !a.started))) ∧
      t.g Reg.JOB_TX_ALLOC_CNT = min (s.g Reg.JOB_TX_ALLOC_CNT + x.allocs.countP (fun a => a.started && !a.dropped)) 0xFFFFFFFF ∧
      t.g Reg.JOB_TX_TB_LATE_CNT = min (s.g Reg.JOB_TX_TB_LATE_CNT + x.allocs.countP (fun a => !a.started || a.dropped)) 0xFFFFFFFF ∧ t.jobs = s.jobs) ∧
  (∀ (s : State) (idx : BitVec 17), s.held = false → (∀ x ∈ s.tx, x.idx = idx.toNat → x.cut = true ∨ s.cutDue x = false) → exec (.tbLeadCutoff idx) s = .next s)

/-- EGRESS_SECTION_ENQUEUE puts a section's launch entry in the queue of its link's port; with the queue full it counts and is not queued; past its launch time it is late. LAUNCH_TIME_REACHED sends the first due entry with credit from an idle port, with its number, and marks the port busy; a section not queued by then is late once: FH_P_LATE_LAUNCH_CNT. FH_EGRESS_FRAME_END frees the port, which then sends the next control frame, or none. FH_FRAME_DROP: a frame that fails a check of R341 counts with its reason shown, an accepted one changes nothing. A one-way delay request waits in the control queue with the time in domain A; a request with follow-up is remembered; its follow-up is answered with that time; remote requests are sent; other types count only, those above 5 as bad. R261 maps the bits of a symbol one to one, with no component beyond 128 less its scale. -/
def Obligations.FronthaulFramesLaunchAndAnswer : Prop :=
  (∀ l r : List Bool, l.length = r.length → l.length % 2 = 0 → 2 ≤ l.length → l.length ≤ 12 → (qamSymbol l).1.natAbs + 2 ^ (7 - l.length / 2) ≤ 128 ∧
    (qamSymbol l).2.natAbs + 2 ^ (7 - l.length / 2) ≤ 128 ∧ (qamSymbol l = qamSymbol r → l = r)) ∧
  (∀ (s : State) (x : TxSection) (y : TxSlot) (j k : Nat) (a : BitVec 48) (l : Launch), s.held = false → s.roleJob 2 = some j → s.txLink x.antenna.toNat = some (k, a) → l = (s.launchOf x j k a).1 →
    0 < s.toLaunch l → (s.fhp (linkPort k)).launch.length < 4096 → s.txSlotOf l.idx = some y → ∃ t, exec (.egressSectionEnqueue x) s = .next t ∧ l ∈ (t.fhp (linkPort k)).launch ∧
      (t.txSlotOf l.idx).any (fun y => y.queued.contains l.range) = true ∧ t.jobs = s.jobs ∧ t.rx = s.rx ∧ t.g Reg.JOB_TX_COMP_SAT_CNT = min (s.g Reg.JOB_TX_COMP_SAT_CNT + (s.launchOf x j k a).2.1) 0xFFFFFFFF ∧
      t.g (Reg.LEAF_SAT_CNT (s.txFrond j)) = min (s.g (Reg.LEAF_SAT_CNT (s.txFrond j)) + (s.launchOf x j k a).2.2) 0xFFFFFFFF) ∧
  (∀ (s : State) (x : TxSection) (j k : Nat) (a : BitVec 48), s.held = false → s.roleJob 2 = some j → s.txLink x.antenna.toNat = some (k, a) →
    0 ≤ s.toLaunch (s.launchOf x j k a).1 → 4096 ≤ (s.fhp (linkPort k)).launch.length → ∃ t, exec (.egressSectionEnqueue x) s = .next t ∧ t.fh = s.fh ∧ t.tx = s.tx ∧ t.mem = s.mem ∧
      t.g (Reg.FH_P_EGQ_FULL_CNT (linkPort k)) = min (s.g (Reg.FH_P_EGQ_FULL_CNT (linkPort k)) + 1) 0xFFFFFFFF) ∧
  (∀ (s : State) (x : TxSection) (y : TxSlot) (j k : Nat) (a : BitVec 48) (l : Launch), s.held = false → s.roleJob 2 = some j → s.txLink x.antenna.toNat = some (k, a) → l = (s.launchOf x j k a).1 →
    s.toLaunch l < 0 → s.txSlotOf l.idx = some y → l.range.open_ y.late = true → ∃ t, exec (.egressSectionEnqueue x) s = .next t ∧ t.fh = s.fh ∧
      (t.txSlotOf l.idx).any (fun y => y.late.contains l.range) = true ∧ t.g (Reg.FH_P_LATE_LAUNCH_CNT (linkPort k)) = min (s.g (Reg.FH_P_LATE_LAUNCH_CNT (linkPort k)) + 1) 0xFFFFFFFF) ∧
  (∀ (s : State) (l : LaunchRef) (e : Launch), s.held = false → (s.fhp l.port).busy = false → s.standby = false → (s.fhp l.port).ptp = [] →
    s.firstLaunch ((s.fhp l.port).launch.filter (fun e => decide (s.toLaunch e ≤ 0))) = some e → s.fhCredit l.port e.job (s.frameLen l.port (4 + e.body.length)) = true →
    ∃ t, exec (.launchTimeReached l) s = .next t ∧ t.fhOut = s.fhOut ++ [⟨e.link, e.addr, s.fhTag l.port, 0, idBytes e.port (sget 0 s.fh.txSeq e.port) ++ e.body⟩] ∧
      (t.fhp l.port).launch = (s.fhp l.port).launch.erase e ∧ (t.fhp l.port).busy = true ∧ t.g (Reg.FH_P_TX_FRAME_CNT l.port) = min (s.g (Reg.FH_P_TX_FRAME_CNT l.port) + 1) 0xFFFFFFFF ∧ t.jobs = s.jobs) ∧
  (∀ (s : State) (l : LaunchRef) (x : TxSlot) (r : TxRange) (j : Nat), s.held = false → (s.fhp l.port).busy = true → s.standby = false → s.roleJob 2 = some j → s.txSlotOf l.idx.toNat = some x →
    r = ⟨l.antenna.toNat, l.sym.val, l.prb0.toNat, l.nprb.toNat⟩ → r.open_ x.queued = true → r.open_ x.late = true →
    launchNs x.start (s.g Reg.JOB_TX_CFG_SCS) l.sym.val (s.g Reg.JOB_TX_TIME_LEAD) ≤ (s.dom s.txDom).nanos → ∃ t, exec (.launchTimeReached l) s = .next t ∧ t.fh = s.fh ∧
      (t.txSlotOf l.idx.toNat).any (fun y => y.late.contains r) = true ∧
      t.g (Reg.FH_P_LATE_LAUNCH_CNT l.port) = min (s.g (Reg.FH_P_LATE_LAUNCH_CNT l.port) + 1) 0xFFFFFFFF) ∧
  (∀ (s : State) (l : LaunchRef), s.held = false → s.standby = true → exec (.launchTimeReached l) s = .next s) ∧
  (∀ (s : State) (p : Fin 4), s.held = false → (s.fhp p).ptp = [] → (s.fhp p).launch = [] → s.nextCtl p = none → ∃ t, exec (.fhEgressFrameEnd p) s = .next t ∧ (t.fhp p).busy = false ∧
      (t.fhp p).ctl = (s.fhp p).ctl ∧ t.fhOut = s.fhOut ∧ t.regs = s.regs ∧ t.mem = s.mem) ∧
  (∀ (s : State) (p : Fin 4) (c : CtlOut), s.held = false → s.standby = false → (s.fhp p).ptp = [] → (s.fhp p).launch = [] → s.nextCtl p = some c → ∃ t, exec (.fhEgressFrameEnd p) s = .next t ∧
      (t.fhp p).busy = true ∧ (t.fhp p).ctl = (s.fhp p).ctl.erase c ∧ (t.fhp p).lastJob = c.job ∧ t.fhOut = s.fhOut ++ [⟨c.link, c.addr, s.fhTag p, c.typ, c.body⟩] ∧
      t.g (Reg.FH_P_TX_FRAME_CNT p) = min (s.g (Reg.FH_P_TX_FRAME_CNT p) + 1) 0xFFFFFFFF ∧ t.mem = s.mem) ∧
  (∀ (s : State) (x : FhIn) (p : Fin 4), s.held = false → p = linkPort x.link.val → s.boot.phase = .started → (s.g (Reg.FH_Pp_STS_LINK_UP p)).testBit (x.link.val % 4) = true → s.dropWhy x ≠ 0 →
    ∃ t, exec (.fhFrameDrop x) s = .next t ∧ t.g (Reg.FH_P_RX_DROP_CNT p) = min (s.g (Reg.FH_P_RX_DROP_CNT p) + 1) 0xFFFFFFFF ∧
      t.g (Reg.FH_P_FCS_ERR_CNT p) = (if x.fcsOk = false then min (s.g (Reg.FH_P_FCS_ERR_CNT p) + 1) 0xFFFFFFFF else s.g (Reg.FH_P_FCS_ERR_CNT p)) ∧
      t.g (Reg.FH_Pp_STS_DROP_WHY p) = s.dropWhy x ∧ t.mem = s.mem ∧ t.rx = s.rx ∧ t.fh = s.fh) ∧
  (∀ (s : State) (x : FhIn), s.held = false → (s.boot.phase ≠ .started ∨ (s.g (Reg.FH_Pp_STS_LINK_UP (linkPort x.link.val))).testBit (x.link.val % 4) = false ∨ s.dropWhy x = 0) → exec (.fhFrameDrop x) s = .next s) ∧
  (∀ (s : State) (o : OwdMsg), s.held = false → s.boot.phase = .started → (s.g (Reg.FH_Pp_STS_LINK_UP (linkPort o.link.val))).testBit (o.link.val % 4) = true → o.act.toNat = 0 → (s.fhp (linkPort o.link.val)).busy = true → ∃ t, exec (.ecpriOwdRequest o) s = .next t ∧
      (t.fhp (linkPort o.link.val)).ctl = (s.fhp (linkPort o.link.val)).ctl ++ [⟨o.link.val, o.src, 16, 5, owdBody o.id.toNat 2 s.domA.full⟩] ∧ t.g (Reg.FH_P_RX_FRAME_CNT (linkPort o.link.val)) = min (s.g (Reg.FH_P_RX_FRAME_CNT (linkPort o.link.val)) + 1) 0xFFFFFFFF ∧ t.mem = s.mem) ∧
  (∀ (s : State) (o : OwdMsg), s.held = false → s.boot.phase = .started → (s.g (Reg.FH_Pp_STS_LINK_UP (linkPort o.link.val))).testBit (o.link.val % 4) = true → o.act.toNat = 1 → ∃ t, exec (.ecpriOwdRequestFollowUp o) s = .next t ∧ (⟨o.link.val, o.src, o.id.toNat, s.domA.full⟩ : Owd) ∈ t.fh.owd ∧ t.fh.ports = s.fh.ports ∧ t.g (Reg.FH_P_RX_FRAME_CNT (linkPort o.link.val)) = min (s.g (Reg.FH_P_RX_FRAME_CNT (linkPort o.link.val)) + 1) 0xFFFFFFFF ∧ t.mem = s.mem) ∧
  (∀ (s : State) (o : OwdMsg) (w : Owd), s.held = false → s.boot.phase = .started → (s.g (Reg.FH_Pp_STS_LINK_UP (linkPort o.link.val))).testBit (o.link.val % 4) = true → o.act.toNat = 5 → (s.fhp (linkPort o.link.val)).busy = true → s.fh.owd.find? (fun w => w.link == o.link.val && w.addr == o.src && w.id == o.id.toNat) = some w →
    ∃ t, exec (.ecpriOwdFollowUp o) s = .next t ∧ (t.fhp (linkPort o.link.val)).ctl = (s.fhp (linkPort o.link.val)).ctl ++ [⟨o.link.val, o.src, 16, 5, owdBody o.id.toNat 2 w.stamp⟩] ∧ t.fh.owd = s.fh.owd.erase w ∧ t.g (Reg.FH_P_RX_FRAME_CNT (linkPort o.link.val)) = min (s.g (Reg.FH_P_RX_FRAME_CNT (linkPort o.link.val)) + 1) 0xFFFFFFFF ∧ t.mem = s.mem) ∧
  (∀ (s : State) (o : OwdMsg), s.held = false → s.boot.phase = .started → (s.g (Reg.FH_Pp_STS_LINK_UP (linkPort o.link.val))).testBit (o.link.val % 4) = true → o.act.toNat = 3 → (s.fhp (linkPort o.link.val)).busy = true → ∃ t, exec (.ecpriOwdRemoteRequest o) s = .next t ∧
      (t.fhp (linkPort o.link.val)).ctl = (s.fhp (linkPort o.link.val)).ctl ++ [⟨o.link.val, o.src, 16, 5, owdBody o.id.toNat 0 s.domA.full⟩] ∧ t.g (Reg.FH_P_RX_FRAME_CNT (linkPort o.link.val)) = min (s.g (Reg.FH_P_RX_FRAME_CNT (linkPort o.link.val)) + 1) 0xFFFFFFFF ∧ t.mem = s.mem) ∧
  (∀ (s : State) (o : OwdMsg), s.held = false → s.boot.phase = .started → (s.g (Reg.FH_Pp_STS_LINK_UP (linkPort o.link.val))).testBit (o.link.val % 4) = true → o.act.toNat = 4 → (s.fhp (linkPort o.link.val)).busy = true → ∃ t, exec (.ecpriOwdRemoteRequestFollowUp o) s = .next t ∧
      (t.fhp (linkPort o.link.val)).ctl = (s.fhp (linkPort o.link.val)).ctl ++ [⟨o.link.val, o.src, 16, 5, owdBody o.id.toNat 1 ⟨0, 0, 0⟩⟩, ⟨o.link.val, o.src, 16, 5, owdBody o.id.toNat 5 s.domA.full⟩] ∧ t.g (Reg.FH_P_RX_FRAME_CNT (linkPort o.link.val)) = min (s.g (Reg.FH_P_RX_FRAME_CNT (linkPort o.link.val)) + 1) 0xFFFFFFFF ∧ t.mem = s.mem) ∧
  (∀ (s : State) (o : OwdMsg) (n : Nat), n = linkPort o.link.val → s.held = false → s.boot.phase = .started → (s.g (Reg.FH_Pp_STS_LINK_UP n)).testBit (o.link.val % 4) = true → ∃ t, exec (.ecpriOwdOther o) s = .next t ∧
      t.fh = s.fh ∧ t.g (Reg.FH_P_RX_FRAME_CNT (linkPort o.link.val)) = min (s.g (Reg.FH_P_RX_FRAME_CNT (linkPort o.link.val)) + 1) 0xFFFFFFFF ∧ t.g (Reg.FH_P_CTL_BAD_CNT n) = (if o.act.toNat ≤ 5 then s.g (Reg.FH_P_CTL_BAD_CNT n) else min (s.g (Reg.FH_P_CTL_BAD_CNT n) + 1) 0xFFFFFFFF) ∧ t.mem = s.mem)

/-- LABEL_WORK_START pushes the ENCODE of a passed, due allocation of a frond whose deliveries are made, not while PAUSE is 1 or the queue is full or holds a DECODE. LABEL_RECORD_WRITE writes a record that fits its slot, training or held-out, has credit and does not overwrite the snapshot: at its slot of the ring, with RSEQ advanced, LABEL_CNT counted, and no other byte changed; too large or without credit it is skipped and counted; over the snapshot it is skipped and counted in SILO_FULL_CNT. EPOCH_START takes the newest records as snapshot and a new epoch number, if they make a batch. TRAINING_STEP draws a batch of good records and updates every master and moment by R280 from their gradient, and the working copies; no byte but the drain scale records changes; with fewer draws left than a batch the epoch ends. CHECKPOINT_WRITE writes the body and its digest into the older area, and no other byte, once CKPT_STEPS steps are made. -/
def Obligations.LabelsEpochsAndStepsAct : Prop :=
  (∀ (s : State) (f : Fin 6) (idx : BitVec 17) (l : List LabelEnc) (x : RxSlot), s.held = false → s.rxOpen x → x.idx = idx.toNat → s.on Reg.JOB_TRN_CTL_PAUSE = false → s.pastD x = false → x.allocs.all (fun a => a.frond != f || a.done) = true → ∃ t, exec (.labelWorkStart f idx l) s = .next t ∧
      (∃ y ∈ t.rx.slots, { y with allocs := x.allocs } = x ∧ y.allocs.map (fun a => { a with labelled := 0 }) = x.allocs.map (fun a => { a with labelled := 0 })) ∧
      t.mem = s.mem ∧ t.trn = s.trn ∧ t.jobs = s.jobs ∧ ∀ h : Fin 6, h ≠ f → t.fr h = s.fr h) ∧
  (∀ (s : State) (f : Fin 6) (idx : BitVec 17) (w : LabelEnc) (x : RxSlot) (a : Alloc), s.held = false → s.rxOpen x → x.idx = idx.toNat → s.on Reg.JOB_TRN_CTL_PAUSE = false → s.pastD x = false → x.allocs.all (fun a => a.frond != f || a.done) = true → a ∈ x.allocs → a.index = w.index.toNat → a.frond = f → a.crcOk = true → a.labelled = 0 →
    (s.dueGroups x).any (fun g => (x.members g).any (fun m => m.index == a.index)) = true → (s.fr f).thr.queue.length < 32 → (s.fr f).thr.queue.all (fun c => cfield c 0 0 2 != 0) = true →
    ∃ t, exec (.labelWorkStart f idx [w]) s = .next t ∧ t.alloc x.idx a.index = some { a with labelled := 1 } ∧
      (t.fr f).thr.queue = (s.fr f).thr.queue ++ [encodeCmd (allocTag x.idx (s.g Reg.JOB_RX_CFG_SCS) a.index) a w]) ∧
  (∀ (s : State) (f : Fin 6) (idx : BitVec 17) (w : LabelEnc), s.held = false → (s.on Reg.JOB_TRN_CTL_PAUSE = true ∨ (s.fr f).thr.queue.any (fun c => cfield c 0 0 2 == 0) = true ∨ 32 ≤ (s.fr f).thr.queue.length) →
    exec (.labelWorkStart f idx [w]) s = .next s) ∧
  (∀ (s : State) (w : LabelRec) (x : RxSlot) (r : List Byte), s.held = false → s.rxOpen x → x.idx = w.idx.toNat → s.on Reg.JOB_TRN_CTL_PAUSE = false → s.heldOut x.idx = false → s.pastD x = false → (s.dueGroups x).contains w.group = true → (x.members w.group).any (fun m => m.crcOk) = true →
    (x.members w.group).all (fun m => m.done && (!m.crcOk || m.labelled == 2) && m.labelled != 3) = true →
    ((s.dueGroups x).filter (fun g => decide (g < w.group))).all (fun g => labelOver (x.members g)) = true → r = s.siloRecord x w s.rseq → r.length ≤ s.siloSlot false → s.snapHolds s.rseq = false → 4 * r.length ≤ s.siloCredit →
    ∃ t, exec (.labelRecordWrite w) s = .next t ∧ t.ld (s.siloAddr false s.rseq) r.length = r ∧ t.rseq = (s.rseq + 1) % 2 ^ 64 ∧
      t.g Reg.JOB_TRN_LABEL_CNT = min (s.g Reg.JOB_TRN_LABEL_CNT + 1) 0xFFFFFFFF ∧ t.trn.credit = s.siloCredit - 4 * r.length ∧
      ∀ a : Nat, (a < s.siloAddr false s.rseq ∨ s.siloAddr false s.rseq + r.length ≤ a) → t.ld1 a = s.ld1 a) ∧
  (∀ (s : State) (w : LabelRec) (x : RxSlot) (r : List Byte), s.held = false → s.rxOpen x → x.idx = w.idx.toNat → s.on Reg.JOB_TRN_CTL_PAUSE = false → s.heldOut x.idx = true → s.pastD x = false → (s.dueGroups x).contains w.group = true → (x.members w.group).any (fun m => m.crcOk) = true →
    (x.members w.group).all (fun m => m.done && (!m.crcOk || m.labelled == 2) && m.labelled != 3) = true →
    ((s.dueGroups x).filter (fun g => decide (g < w.group))).all (fun g => labelOver (x.members g)) = true → r = s.siloRecord x w s.trn.heldSeq → r.length ≤ s.siloSlot true → s.g Reg.JOB_TRN_HRING_NHREC ≠ 0 → 4 * r.length ≤ s.siloCredit →
    ∃ t, exec (.labelRecordWrite w) s = .next t ∧ t.ld (s.siloAddr true s.trn.heldSeq) r.length = r ∧ t.rseq = s.rseq ∧ t.trn.heldSeq = s.trn.heldSeq + 1 ∧
      t.g Reg.JOB_TRN_LABEL_CNT = min (s.g Reg.JOB_TRN_LABEL_CNT + 1) 0xFFFFFFFF ∧ t.trn.credit = s.siloCredit - 4 * r.length ∧
      ∀ a : Nat, (a < s.siloAddr true s.trn.heldSeq ∨ s.siloAddr true s.trn.heldSeq + r.length ≤ a) → t.ld1 a = s.ld1 a) ∧
  (∀ (s : State) (w : LabelRec) (x : RxSlot) (r : List Byte), s.held = false → s.rxOpen x → x.idx = w.idx.toNat → s.on Reg.JOB_TRN_CTL_PAUSE = false → s.heldOut x.idx = false → s.pastD x = false → (s.dueGroups x).contains w.group = true → (x.members w.group).any (fun m => m.crcOk) = true →
    (x.members w.group).all (fun m => m.done && (!m.crcOk || m.labelled == 2) && m.labelled != 3) = true →
    ((s.dueGroups x).filter (fun g => decide (g < w.group))).all (fun g => labelOver (x.members g)) = true → r = s.siloRecord x w s.rseq → (s.siloSlot false < r.length ∨ (s.snapHolds s.rseq = false ∧ s.siloCredit < 4 * r.length)) →
    ∃ t, exec (.labelRecordWrite w) s = .next t ∧ t.mem = s.mem ∧ t.rseq = s.rseq ∧ t.trn = s.trn ∧ t.g Reg.JOB_TRN_LABEL_SKIP_CNT = min (s.g Reg.JOB_TRN_LABEL_SKIP_CNT + 1) 0xFFFFFFFF) ∧
  (∀ (s : State) (w : LabelRec) (x : RxSlot) (r : List Byte), s.held = false → s.rxOpen x → x.idx = w.idx.toNat → s.on Reg.JOB_TRN_CTL_PAUSE = false → s.heldOut x.idx = false → s.pastD x = false → (s.dueGroups x).contains w.group = true → (x.members w.group).any (fun m => m.crcOk) = true →
    (x.members w.group).all (fun m => m.done && (!m.crcOk || m.labelled == 2) && m.labelled != 3) = true →
    ((s.dueGroups x).filter (fun g => decide (g < w.group))).all (fun g => labelOver (x.members g)) = true → r = s.siloRecord x w s.rseq → r.length ≤ s.siloSlot false → s.snapHolds s.rseq = true →
    ∃ t, exec (.labelRecordWrite w) s = .next t ∧ t.mem = s.mem ∧ t.rseq = s.rseq ∧ t.trn = s.trn ∧ t.g Reg.JOB_TRN_SILO_FULL_CNT = min (s.g Reg.JOB_TRN_SILO_FULL_CNT + 1) 0xFFFFFFFF) ∧
  (∀ (s : State) (n : Nat), s.held = false → s.trains = true → s.trn.running = false → n = min s.rseq (s.g Reg.JOB_TRN_TRING_NREC - s.g Reg.JOB_TRN_RES) →
    (if s.g Reg.JOB_TRN_CFG_BATCH ≤ n then ∃ t, exec .epochStart s = .next t ∧ t.trn = { s.trn with snap := some (s.rseq - n, n), running := true, draw := 0, epoch := s.trn.epoch + 1 } ∧
        t.g Reg.JOB_TRN_EPOCH = (s.trn.epoch + 1) % 2 ^ 32 ∧ t.mem = s.mem ∧ t.jobs = s.jobs
     else exec .epochStart s = .next s)) ∧
  (∀ (s : State) (lo n b : Nat) (q : List Nat), s.held = false → s.trainsOn = true → s.trn.running = true → s.trn.snap = some (lo, n) → b = s.g Reg.JOB_TRN_CFG_BATCH → s.trn.draw + b ≤ n →
    q = (List.range b).map (fun i => lo + perm (s.trn.draw + i) n (s.g Reg.JOB_TRN_SEED) s.trn.epoch) → (∀ k ∈ q, s.recBad false k = 0) → ∃ t, exec .trainingStep s = .next t ∧ t.trn.draw = s.trn.draw + b ∧ t.trn.running = true ∧
      t.trn.w.map (fun e => e.toNat) = (s.adamAll (s.g Reg.JOB_TRN_STEP) (s.rate (s.g Reg.JOB_TRN_STEP)) s.trn.w s.trn.mom1 s.trn.mom2 (s.gradOf q).1).map (fun e => e.1 % 2 ^ 32) ∧
      t.trn.mom1.map (fun e => e.toNat) = (s.adamAll (s.g Reg.JOB_TRN_STEP) (s.rate (s.g Reg.JOB_TRN_STEP)) s.trn.w s.trn.mom1 s.trn.mom2 (s.gradOf q).1).map (fun e => e.2.1 % 2 ^ 32) ∧
      t.trn.mom2.map (fun e => e.toNat) = (s.adamAll (s.g Reg.JOB_TRN_STEP) (s.rate (s.g Reg.JOB_TRN_STEP)) s.trn.w s.trn.mom1 s.trn.mom2 (s.gradOf q).1).map (fun e => e.2.2 % 2 ^ 32) ∧ t.trn.wb = workCopies t.trn.w ∧
      t.trn.since = s.trn.since + 1 ∧ t.g Reg.JOB_TRN_STEP = (s.g Reg.JOB_TRN_STEP + 1) % 2 ^ 32 ∧ t.jobs = s.jobs ∧
      ∀ a : Nat, (∀ (f : Fin 6), ∀ k ∈ s.trnRecords, a < s.sclAt f k ∨ s.sclAt f k + 16 ≤ a) → t.ld1 a = s.ld1 a) ∧
  (∀ (s : State) (j k : Nat) (f : Fin 6), s.roleJob 3 = some j → s.heldFronds j = [f] → s.trnRecords = [k] → s.trnAdapt.ld (s.sclAt f k) 16 = (adaptRecord (s.ld (s.sclAt f k) 16)).1) ∧
  (∀ (s : State) (lo n : Nat), s.held = false → s.trainsOn = true → s.trn.running = true → s.trn.snap = some (lo, n) → n < s.trn.draw + s.g Reg.JOB_TRN_CFG_BATCH → s.trn.draw ≤ n →
    ∃ t, exec .trainingStep s = .next t ∧ t.trn.running = false ∧ t.trn.snap = none ∧ t.trn.w = s.trn.w ∧ t.g Reg.JOB_TRN_STEP = s.g Reg.JOB_TRN_STEP) ∧
  (∀ (s : State) (a : Nat) (b : List Byte), s.held = false → s.trains = true → a = s.ckptArea (s.trn.ckpt % 2) → b = s.ckptBody ++ (Config.sha384 s.ckptBody ++ zeros 48).take 48 →
    (if s.g Reg.JOB_TRN_CKPT_CKPT_STEPS ≤ s.trn.since then ∃ t, exec .checkpointWrite s = .next t ∧ t.ld a b.length = b ∧ t.trn = { s.trn with ckpt := s.trn.ckpt + 1, since := 0 } ∧ t.jobs = s.jobs ∧
        ∀ c : Nat, (c < a ∨ a + b.length ≤ c) → t.ld1 c = s.ld1 c
     else exec .checkpointWrite s = .next s))

/-- CANDIDATE_SUBMIT writes the candidate layers into the candidate slots and leaves the active ones, or keeps the edge-class table. PROMOTION_GATE starts over the 2,000 newest good records when there are so many, else not. GATE_COMPLETE, while the training job runs: a set that passes R285 waits for its slot; one that fails is rejected and counts. At the slot edge a waiting promotion swaps the pointers of its roles, advances MSET beyond every value used and starts the watch; a waiting rollback swaps them back and restores MSET. WATCH_END, not before WATCH slots, settles the set or starts the rollback that the test of R287 asks for. ROLLBACK_REQUEST asks for a rollback in a watch, cancels a waiting promotion, and is ignored and counted otherwise. MODEL_PERSIST writes the settled set into its half of flash, MAGIC last; a set too large is not written. -/
def Obligations.CandidatesPromoteRollBackAndPersist : Prop :=
  (∀ (s : State) (r : BitVec 2), s.held = false → s.trains = true → s.trn.gate = none → s.trn.pending = none → s.trn.watch = none → s.pair.waiting = false → r = 1 → ∃ t, exec (.candidateSubmit (.models r)) s = .next t ∧
      t.slotLayers (s.candSlot 0) = some (overlay ((s.slotLayers (s.activeSlot 0)).getD []) (requantAll s.curShift (s.trainLayers 0) s.trn.w).1) ∧ t.slotLayers (s.activeSlot 0) = s.slotLayers (s.activeSlot 0) ∧
      t.trn.cand = some (.models r) ∧ t.trn.active = s.trn.active ∧ t.g Reg.JOB_TRN_STS_CAND = 1 ∧ t.jobs = s.jobs ∧ t.trn.w = s.trn.w) ∧
  (∀ (s : State) (e : List (Byte × Byte)), s.held = false → s.trains = true → s.trn.gate = none → s.trn.pending = none → s.trn.watch = none → s.pair.waiting = false → ∃ t, exec (.candidateSubmit (.edge e)) s = .next t ∧
      t.trn = { s.trn with edgeCand := some e, cand := some (.edge e) } ∧ t.g Reg.JOB_TRN_STS_CAND = 1 ∧ t.mem = s.mem ∧ t.jobs = s.jobs) ∧
  (∀ (s : State) (n : Nat), s.held = false → s.trainsOn = true → s.trn.cand.isSome = true → s.trn.gate = none → s.trn.pending = none → s.trn.watch = none → s.pair.waiting = false →
    n = min (s.trn.heldSeq - s.trn.heldBase) (s.g Reg.JOB_TRN_HRING_NHREC) → 2000 ≤ n → (if (s.goodHeld n s.trn.heldSeq 2000 []).1.length = 2000 then ∃ t, exec .promotionGate s = .next t ∧
        t.trn = { s.trn with gate := some ((s.goodHeld n s.trn.heldSeq 2000 []).2.gateRecs (s.goodHeld n s.trn.heldSeq 2000 []).1) } ∧ t.g Reg.JOB_TRN_STS_STATE = 2 ∧ t.jobs = s.jobs
      else ∃ t, exec .promotionGate s = .next t ∧ t.trn = s.trn ∧ t.jobs = s.jobs)) ∧
  (∀ (s : State) (n : Nat), s.held = false → n = min (s.trn.heldSeq - s.trn.heldBase) (s.g Reg.JOB_TRN_HRING_NHREC) → n < 2000 → exec .promotionGate s = .next s) ∧
  (∀ (s : State) (l : List GateRec) (c : CandSub) (i k : GateFigures), s.held = false → s.trains = true → s.trn.gate = some l → s.trn.cand = some c → s.hasStandby = false → i = sumFigures (l.map (fun g => g.inc)) → k = sumFigures (l.map (fun g => g.cand)) →
    (if i.s ≤ k.s ∧ (if candCode c = 4 then k.it ≤ i.it else 4096 * (i.nl : Int) ≤ 50 * (k.mi - i.mi)) then ∃ t, exec .gateComplete s = .next t ∧
        t.trn = { s.trn with gate := none, pending := some (.promote s.promoteEdge c) } ∧ t.g Reg.JOB_TRN_STS_STATE = 3 ∧ t.mem = s.mem
     else ∃ t, exec .gateComplete s = .next t ∧ t.trn = { s.trn with gate := none, cand := none } ∧ t.g Reg.JOB_TRN_REJECT_CNT = min (s.g Reg.JOB_TRN_REJECT_CNT + 1) 0xFFFFFFFF)) ∧
  (∀ s : State, s.held = false → (s.trains = false ∨ s.trn.gate = none) → exec .gateComplete s = .next s) ∧
  (∀ (s : State) (r : BitVec 2) (p e : Nat), s.rxRuns = true → s.trn.pending = some (.promote p (.models r)) → p ≤ e → (s.modelEdge e).trn.active = s.trn.active ^^^ r ∧ (s.modelEdge e).trn.pending = none ∧
      (s.modelEdge e).g Reg.JOB_TRN_MSET = (s.trn.maxMset + 1) % 2 ^ 32 ∧ (s.modelEdge e).trn.maxMset = s.trn.maxMset + 1 ∧ (s.modelEdge e).trn.watch = some ⟨e, r, none, s.g Reg.JOB_TRN_MSET⟩ ∧
      (s.modelEdge e).g Reg.JOB_TRN_PROMO_CNT = min (s.g Reg.JOB_TRN_PROMO_CNT + 1) 0xFFFFFFFF) ∧
  (∀ (s : State) (q c : Bool) (w : Watch) (e : Nat), s.trn.pending = some (.rollback q c) → s.trn.watch = some w → w.edge = none → w.mset < 2 ^ 32 → (s.modelEdge e).trn.active = s.trn.active ^^^ w.roles ∧
      (s.modelEdge e).g Reg.JOB_TRN_MSET = w.mset ∧ (s.modelEdge e).trn.watch = none ∧ (s.modelEdge e).trn.pending = none ∧ (s.modelEdge e).trn.w = s.trn.w ∧
      (s.modelEdge e).g Reg.JOB_TRN_ROLLBACK_CNT = min (s.g Reg.JOB_TRN_ROLLBACK_CNT + 1) 0xFFFFFFFF) ∧
  (∀ (s : State) (w : Watch), s.held = false → s.trn.watch = some w → s.rxNow < w.start + s.watchNs → exec .watchEnd s = .next s) ∧
  (∀ (s : State) (w : Watch), s.held = false → s.trn.watch = some w → s.trn.pending = none → w.start + s.watchNs ≤ s.rxNow → (if s.watchTest.trn.pending = none then ∃ t, exec .watchEnd s = .next t ∧
        t.trn = { s.trn with watch := none, settled := some (s.g Reg.JOB_TRN_MSET, s.trn.promoSec) } ∧ t.mem = s.mem
     else ∃ t, exec .watchEnd s = .next t ∧ t.trn = s.watchTest.trn ∧ t.trn.watch = some w)) ∧
  (∀ (s : State) (g : Byte) (v : Word) (w : Watch), s.held = false → s.agentJob g.toNat = none → s.mayWrite g.toNat .fwmg = true → v.getLsbD 0 = true → s.trn.watch = some w → s.trn.pending = none → s.hasStandby = false → ∃ t, exec (.rollbackRequest g v) s = .next t ∧
      t.trn = { s.trn with pending := some (.rollback true false) } ∧ t.g Reg.JOB_TRN_CTL_PAUSE = v.toNat / 2 % 2 ∧ t.mem = s.mem) ∧
  (∀ (s : State) (g : Byte) (v : Word) (p : Nat) (c : CandSub), s.held = false → s.agentJob g.toNat = none → s.mayWrite g.toNat .fwmg = true → v.getLsbD 0 = true → s.trn.watch = none → s.trn.pending = some (.promote p c) → ∃ t, exec (.rollbackRequest g v) s = .next t ∧
      t.trn = { s.trn with pending := none, cand := none } ∧ t.mem = s.mem) ∧
  (∀ (s : State) (g : Byte) (v : Word), s.held = false → s.agentJob g.toNat = none → s.mayWrite g.toNat .fwmg = true → v.getLsbD 0 = true → v.toNat < 4 → s.trn.watch = none → s.trn.pending = none → s.pair.waiting = false → ∃ t, exec (.rollbackRequest g v) s = .next t ∧
      t.trn = s.trn ∧ t.mem = s.mem ∧ t.g Reg.SYS_WR_IGN_CNT = min (s.g Reg.SYS_WR_IGN_CNT + 1) 0xFFFFFFFF) ∧
  (∀ (s : State) (m d b n : Nat) (im : Image), s.held = false → s.trn.settled = some (m, d) → s.image = some im → s.boot.flashOk = true → s.on Reg.JOB_TRN_PERSIST_EN = true → s.trn.writing = none → s.trn.persisted ≠ some m →
    s.g Reg.JOB_TRN_PERSIST_MIN_INT * 60000000000 ≤ s.ticks - s.trn.persistAt → b = s.ckptBase s.persistHalf → n = s.settledBody.length → (if n + 64 ≤ s.ckptSize then ∃ t, exec .modelPersist s = .next t ∧
        t.trn = { s.trn with writing := some (s.persistHalf, m) } ∧ t.fl b 4 = [0xFF, 0xFF, 0xFF, 0xFF] ∧ t.fl (b + 8) 8 = toLE 4 m ++ toLE 4 n ∧ t.mem = s.mem ∧
        ∀ a : Nat, (a < b ∨ b + 4096 * ceilDiv (n + 64) 4096 ≤ a) → t.fl1 a = s.fl1 a
     else ∃ t, exec .modelPersist s = .next t ∧ t.trn = s.trn ∧ t.flash = s.flash)) ∧
  (∀ (s : State) (h m : Nat), s.held = false → s.trn.writing = some (h, m) → ∃ t, exec .modelPersistDone s = .next t ∧ t.fl (s.ckptBase h) 4 = toLE 4 0x53444C4D ∧
      t.trn.writing = none ∧ t.trn.persisted = (if s.trn.settled.isSome = true then some m else none) ∧ t.g Reg.JOB_TRN_PERSIST_CNT = min (s.g Reg.JOB_TRN_PERSIST_CNT + 1) 0xFFFFFFFF ∧
      ∀ a : Nat, (a < s.ckptBase h ∨ s.ckptBase h + 4 ≤ a) → t.fl1 a = s.fl1 a)

/-- A received frame that breaks R357 is dropped and counts in RZ_DROP_CNT, and nothing else of the group changes. A frame for another device goes to its route with one hop less; without hops or route it counts and is gone. HELLO with the peer's ID and group records its address; with another group or ID it takes the port out of use. DELAY_REQ is answered with its time of arrival; DELAY_RSP renews the mean of the last 16 delays. RZ_LINK_TIMER queues HELLO and DELAY_REQ. A link change sets the port up or down; what waited on it is lost. At a frame end the port sends the first waiting frame by level, or becomes idle; a refilled bucket starts the frame that waited for it, and without one nothing changes. -/
def Obligations.RhizomePortsSendForwardAndMeasure : Prop :=
  (∀ (s : State) (fr : RzFrame), s.held = false → s.rzLive fr.port = true → s.rzDropped fr = true → ∃ t, exec (.rzFrameDrop fr) s = .next t ∧ t.grp = s.grp ∧ t.rzOut = s.rzOut ∧ t.mem = s.mem ∧ t.jobs = s.jobs ∧
      t.g Reg.RZ_DROP_CNT = min (s.g Reg.RZ_DROP_CNT + 1) 0xFFFFFFFF) ∧
  (∀ (s : State) (fr : RzFrame), s.held = false → (s.rzLive fr.port = false ∨ s.rzDropped fr = false) → exec (.rzFrameDrop fr) s = .next s) ∧
  (∀ (s : State) (fr : RzFrame) (p : Fin 4), s.held = false → s.rzLive fr.port = true → s.rzDropped fr = false → 3 < fr.kind.toNat → fr.kind.toNat < 0x30 → fr.kind ≠ 0x10 → fr.kind ≠ 0x23 → fr.bc = false →
    fr.dst.toNat ≠ s.selfId → s.rzRoute fr.dst.toNat = some p → fr.hops ≠ 0 → s.rzUp p = true → (s.rzp p).busy = true → ∃ t, exec (.rzFrameForward fr) s = .next t ∧
      (t.rzp p).q2 = (s.rzp p).q2 ++ [{ fr with hops := fr.hops - 1 }] ∧ (∀ q, q ≠ p → t.rzp q = s.rzp q) ∧ t.regs = s.regs ∧ t.mem = s.mem) ∧
  (∀ (s : State) (fr : RzFrame), s.held = false → s.rzLive fr.port = true → s.rzDropped fr = false → 3 < fr.kind.toNat → fr.kind.toNat < 0x30 → fr.bc = false → fr.dst.toNat ≠ s.selfId →
    (s.rzRoute fr.dst.toNat = none ∨ fr.hops = 0) → ∃ t, exec (.rzFrameForward fr) s = .next t ∧ t.grp = s.grp ∧ t.rzOut = s.rzOut ∧
      t.g Reg.RZ_NOROUTE_CNT = min (s.g Reg.RZ_NOROUTE_CNT + b2n (s.rzRoute fr.dst.toNat).isNone) 0xFFFFFFFF ∧ t.g Reg.RZ_HOP_DROP_CNT = min (s.g Reg.RZ_HOP_DROP_CNT + b2n (s.rzRoute fr.dst.toNat).isSome) 0xFFFFFFFF) ∧
  (∀ (s : State) (fr : RzFrame), s.held = false → s.rzLive fr.port = true → fr.kind = 1 → rzBad fr = false → (if fr.group.toNat = s.groupId ∧ le fr.payload 8 4 = s.groupId ∧ le fr.payload 6 2 = le s.ident (30 + 8 * fr.port.val) 2 then
      ∃ t, exec (.hello fr) s = .next t ∧ (t.rzp fr.port).peer = some (BitVec.ofNat 48 (le fr.payload 0 6)) ∧ t.regs = s.regs ∧ t.mem = s.mem
     else ∃ t, exec (.hello fr) s = .next t ∧ t.rzUp fr.port = false ∧ t.grp = s.grp ∧ t.jobs = s.jobs)) ∧
  (∀ (s : State) (fr : RzFrame), s.held = false → s.rzLive fr.port = true → s.rzDropped fr = false → fr.kind = 2 → (s.rzp fr.port).busy = true → ∃ t, exec (.delayReq fr) s = .next t ∧
      (t.rzp fr.port).q1 = (s.rzp fr.port).q1 ++ [⟨0, 3, 1, 3, 16, false, false, fr.src, BitVec.ofNat 16 s.selfId, BitVec.ofNat 32 s.groupId, 0, s.grp.seq + 1, timeBytes (s.dom s.groupDom).full⟩] ∧
      t.grp.seq = s.grp.seq + 1 ∧ t.regs = s.regs ∧ t.mem = s.mem) ∧
  (∀ (s : State) (fr : RzFrame) (a : FullTime) (l : List Nat), s.held = false → s.rzLive fr.port = true → s.rzDropped fr = false → fr.kind = 3 → (s.rzp fr.port).t1 = some a →
    l = (linkDelay (fullUnits a) (timeUnits fr.payload 0) (timeUnits fr.payload 14) (fullUnits (s.dom s.groupDom).full) :: (s.rzp fr.port).delays).take 16 → ∃ t, exec (.delayRsp fr) s = .next t ∧
      (t.rzp fr.port).delays = l ∧ (t.rzp fr.port).t1 = none ∧ t.g (Reg.RZ_Pp_STS_DELAY fr.port) = min 0xFFFFFF (rneDiv (l.foldl (fun n k => n + k) 0) l.length) ∧ t.mem = s.mem) ∧
  (∀ (s : State) (p : Fin 4), s.held = false → s.rzUp p = true → (s.rzp p).busy = true → ∃ t, exec (.rzLinkTimer p) s = .next t ∧ (t.rzp p).q1.map (fun fr => (fr.kind, fr.payload)) =
        (s.rzp p).q1.map (fun fr => (fr.kind, fr.payload)) ++ [(1, toLE 6 (s.rzAddr p) ++ toLE 2 s.selfId ++ toLE 4 s.groupId), (2, [])] ∧ t.regs = s.regs ∧ t.mem = s.mem) ∧
  (∀ (s : State) (p : Fin 4), s.held = false → s.rzUp p = true → ∃ t, exec (.rzLinkChange p false) s = .next t ∧ t.rzUp p = false ∧ (t.rzp p).q1 = [] ∧ (t.rzp p).q2 = [] ∧ (t.rzp p).q3 = [] ∧ (t.rzp p).q4 = [] ∧
      (∀ q, q ≠ p → t.rzp q = s.rzp q ∧ t.rzUp q = s.rzUp q) ∧ t.jobs = s.jobs) ∧
  (∀ (s : State) (p : Fin 4), s.held = false → s.rzUp p = false → s.boot.phase ≠ .safe → s.g Reg.PWR_STS_STATE ≠ 2 → s.rzRole p ≠ 0 → s.linkInUse (.rz p) = true → ∃ t, exec (.rzLinkChange p true) s = .next t ∧ t.rzUp p = true ∧
      (s.rzRole p = 3 → t.g Reg.RZ_PAIR_STS_ACTIVE = max (s.g Reg.RZ_PAIR_STS_ACTIVE) (b2n !s.pairByte.testBit 2)) ∧ t.jobs = s.jobs) ∧
  (∀ (s : State) (p : Fin 4) (up : Bool), s.held = false → s.rzUp p = up → exec (.rzLinkChange p up) s = .next s) ∧
  (∀ (s : State) (p : Fin 4) (fr : RzFrame) (r : List RzFrame), s.held = false → s.rzUp p = true → (s.rzp p).q1 = fr :: r → ∃ t, exec (.rzEgressFrameEnd p) s = .next t ∧ (t.rzp p).q1 = r ∧ (t.rzp p).busy = true ∧
      t.rzOut = s.rzOut ++ [(p.val, s.rzStamped { fr with port := p })] ∧ t.regs = s.regs ∧ t.mem = s.mem) ∧
  (∀ (s : State) (p : Fin 4) (fr : RzFrame) (r : List RzFrame), s.held = false → s.rzUp p = true → (s.rzp p).q1 = [] → ((s.rzp p).q2 = fr :: r ∨ ((s.rzp p).q2 = [] ∧ (s.rzp p).q3 = fr :: r)) → ∃ t, exec (.rzEgressFrameEnd p) s = .next t ∧
      (t.rzp p).busy = true ∧ t.rzOut = s.rzOut ++ [(p.val, s.rzStamped { fr with port := p })] ∧ (t.rzp p).q4 = (s.rzp p).q4 ∧ t.regs = s.regs ∧ t.mem = s.mem) ∧
  (∀ (s : State) (p : Fin 4), s.held = false → (s.rzp p).q1 = [] → (s.rzp p).q2 = [] → (s.rzp p).q3 = [] → s.nextRed p = none → ∃ t, exec (.rzEgressFrameEnd p) s = .next t ∧ (t.rzp p).busy = false ∧ t.rzOut = s.rzOut ∧ t.regs = s.regs) ∧
  (∀ (s : State) (p : Fin 4) (j : Fin 16) (c : Nat × RzFrame), s.held = false → s.rzUp p = true → (s.rzp p).busy = false → (s.rzp p).q1 = [] → (s.rzp p).q2 = [] → (s.rzp p).q3 = [] → s.nextRed p = some c →
    ∃ t, exec (.shareBucketCredit p true j) s = .next t ∧ (t.rzp p).q4 = (s.rzp p).q4.erase c ∧ (t.rzp p).lastJob = c.1 ∧ (t.rzp p).busy = true ∧ t.rzOut = s.rzOut ++ [(p.val, s.rzStamped { c.2 with port := p })] ∧ t.regs = s.regs ∧ t.mem = s.mem) ∧
  (∀ (s : State) (p : Fin 4) (j : Fin 16) (c : CtlOut), s.held = false → (s.fhp p).busy = false → s.standby = false → (s.fhp p).ptp = [] → (s.fhp p).launch = [] → s.nextCtl p = some c →
    ∃ t, exec (.shareBucketCredit p false j) s = .next t ∧ (t.fhp p).ctl = (s.fhp p).ctl.erase c ∧ (t.fhp p).busy = true ∧ t.fhOut = s.fhOut ++ [⟨c.link, c.addr, s.fhTag p, c.typ, c.body⟩]) ∧
  (∀ (s : State) (p : Fin 4) (j : Fin 16) (r : Bool), s.held = false → (s.rzp p).busy = true → (s.fhp p).busy = true → exec (.shareBucketCredit p r j) s = .next s)

/-- The leader broadcasts BEACON on its tree ports. A BEACON of its leader sets a device's offset; a leader that hears a lower ID fences its whole group toward that leader. JOIN with the leader's own record, a good offset and RUN admits the device by a MEMBERSHIP at a slot edge at least 40 us ahead; a record in another STATE is refused. ADMIT gives the joining device its member set. REFUSE raises an event only. MEMBERSHIP waits for its edge; one that is past and fences this device leaves it alone, outside. FENCE_REQ at the leader fences the member. A DIGEST equal to the leader's record counts as arrived; one in another STATE fences its sender. Without BEACON for 1 s a device with valid time outside a group founds one, and for (r + 1) x 300 ms the member of rank r takes the lead; sooner nothing happens. JOIN_RETRY sends JOIN to the leader heard. DIGEST_TIMER sends a member's DIGEST; at the leader two missing in a row fence. -/
def Obligations.GroupMembershipActs : Prop :=
  (∀ (s : State) (p : Fin 4), s.held = false → s.leads = true → s.treePorts.contains p = true → s.rzUp p = true → (s.rzp p).busy = true → ∃ t, exec .beaconTimer s = .next t ∧ (t.rzp p).q1.map (fun x => (x.kind, x.payload)) =
      (s.rzp p).q1.map (fun x => (x.kind, x.payload)) ++ [(0x10, zeros 14 ++ toLE 4 s.grp.version ++ toLE 4 s.grp.members.length ++ zeros 4)] ∧ t.regs = s.regs ∧ t.mem = s.mem) ∧
  (∀ (s : State), s.held = false → s.leads = false → exec .beaconTimer s = .next s) ∧
  (∀ (s : State) (fr : RzFrame), s.held = false → s.rzLive fr.port = true → s.rzDropped fr = false → fr.kind = 0x10 → (fr.bc = true ∨ fr.dst.toNat = s.selfId) → s.leads = false → (s.isMember = false ∨ fr.src.toNat = s.g Reg.RZ_GRP_LEAD_LEADER) → ∃ t, exec (.beacon fr) s = .next t ∧ t.g Reg.RZ_GRP_OFS = s.offsetOf fr.payload ∧
      t.g Reg.RZ_GRP_LEAD_LEADER = fr.src.toNat ∧ t.grp.beaconAt = s.ticks + 1 ∧ t.grp.members = s.grp.members ∧ t.jobs = s.jobs) ∧
  (∀ (s : State) (fr : RzFrame), s.held = false → s.rzLive fr.port = true → s.rzDropped fr = false → fr.kind = 0x10 → (fr.bc = true ∨ fr.dst.toNat = s.selfId) → s.leads = true → fr.src.toNat < s.selfId → s.grp.edges = [] → ∃ t, exec (.beacon fr) s = .next t ∧ t.grp.edges.dropLast = s.grp.edges ∧ t.grp.edges.getLast?.any (fun e => e.leader == fr.src.toNat && e.joins.isEmpty && decide (e.fence = s.grp.members.map (fun i => (i, 5))) && decide ((s.dom s.groupDom).nanos + 40000 ≤ e.sec * 1000000000 + e.ns)) = true ∧
      t.grp.members = s.grp.members ∧ t.jobs = s.jobs) ∧
  (∀ (s : State) (fr : RzFrame), s.held = false → s.rzLive fr.port = true → s.rzDropped fr = false → fr.kind = 0x11 → (fr.bc = true ∨ fr.dst.toNat = s.selfId) → s.leads = true → fr.payload = s.record → s.grpState = 4 → (sx 32 (s.g Reg.RZ_GRP_OFS)).natAbs ≤ 800 → (s.det = true ∨ s.nextMembers.length < 64) → ∃ t, exec (.join fr) s = .next t ∧ t.grp.edges.dropLast = s.grp.edges ∧ t.grp.edges.getLast?.any (fun e => decide (e.joins = [fr.src.toNat]) && e.fence.isEmpty && decide ((s.dom s.groupDom).nanos + 40000 ≤ e.sec * 1000000000 + e.ns)) = true ∧
      t.grp.members = s.grp.members ∧ t.jobs = s.jobs) ∧
  (∀ (s : State) (fr : RzFrame) (p : Fin 4), s.held = false → s.rzLive fr.port = true → s.rzDropped fr = false → fr.kind = 0x11 → (fr.bc = true ∨ fr.dst.toNat = s.selfId) → s.leads = true → byteAt fr.payload 26 ≠ 4 → s.rzRoute fr.src.toNat = some p → s.rzUp p = true → (s.rzp p).busy = true → ∃ t, exec (.join fr) s = .next t ∧
      (t.rzp p).q3.map (fun x => (x.kind, x.payload)) = (s.rzp p).q3.map (fun x => (x.kind, x.payload)) ++ [(0x13, toLE 1 (s.failMask fr.payload s.nextMembers.length))] ∧ t.grp.edges = s.grp.edges ∧ t.mem = s.mem) ∧
  (∀ (s : State) (fr : RzFrame), s.held = false → s.rzLive fr.port = true → s.rzDropped fr = false → fr.kind = 0x12 → (fr.bc = true ∨ fr.dst.toNat = s.selfId) → ∃ t, exec (.admitFrame fr) s = .next t ∧ (if s.isMember = true then t.grp.members = addIds s.grp.members (bitsOn (8 * fr.payload.length) (leOf fr.payload)) ∧ t.g Reg.RZ_GRP_M = t.grp.members.length % 2 ^ 17
      else t.grp.joinSet = bitsOn (8 * fr.payload.length) (leOf fr.payload) ∧ t.grp.members = s.grp.members) ∧ t.mem = s.mem ∧ t.jobs = s.jobs) ∧
  (∀ (s : State) (fr : RzFrame), s.held = false → s.rzLive fr.port = true → s.rzDropped fr = false → fr.kind = 0x13 → (fr.bc = true ∨ fr.dst.toNat = s.selfId) → ∃ t, exec (.refuse fr) s = .next t ∧ t.grp.members = s.grp.members ∧ t.grp.edges = s.grp.edges ∧ t.jobs = s.jobs ∧ t.g Reg.SYS_EVR_SEQ = (s.g Reg.SYS_EVR_SEQ + 1) % 2 ^ 32) ∧
  (∀ (s : State) (fr : RzFrame), s.held = false → s.rzLive fr.port = true → s.rzDropped fr = false → fr.kind = 0x14 → (fr.bc = true ∨ fr.dst.toNat = s.selfId) → (s.dom s.groupDom).nanos < (memOf fr.payload).sec * 1000000000 + (memOf fr.payload).ns → ∃ t, exec (.membership fr) s = .next t ∧ t.grp.edges = s.grp.edges ++ [memOf fr.payload] ∧
      t.grp.members = s.grp.members ∧ t.mem = s.mem ∧ t.jobs = s.jobs) ∧
  (∀ (s : State) (fr : RzFrame), s.held = false → s.rzLive fr.port = true → s.rzDropped fr = false → fr.kind = 0x14 → (fr.bc = true ∨ fr.dst.toNat = s.selfId) → (memOf fr.payload).sec * 1000000000 + (memOf fr.payload).ns ≤ (s.dom s.groupDom).nanos → (memOf fr.payload).fence.any (fun f => f.1 == s.selfId) = true →
    ∃ t, exec (.membership fr) s = .next t ∧ t.grp.members = [s.selfId] ∧ t.isMember = false ∧ t.grp.version = (memOf fr.payload).version ∧ t.g Reg.RZ_GRP_M = 1 ∧ t.jobs = s.jobs) ∧
  (∀ (s : State) (fr : RzFrame), s.held = false → s.rzLive fr.port = true → s.rzDropped fr = false → fr.kind = 0x15 → (fr.bc = true ∨ fr.dst.toNat = s.selfId) → s.leads = true → s.nextMembers.contains fr.src.toNat = true → ∃ t, exec (.fenceReq fr) s = .next t ∧
      t.grp.edges.dropLast = s.grp.edges ∧ t.grp.edges.getLast?.any (fun e => e.joins.isEmpty && decide (e.fence = [(fr.src.toNat, byteAt fr.payload 0)]) && decide ((s.dom s.groupDom).nanos + 40000 ≤ e.sec * 1000000000 + e.ns)) = true ∧ t.grp.members = s.grp.members ∧ t.jobs = s.jobs) ∧
  (∀ (s : State) (fr : RzFrame), s.held = false → s.rzLive fr.port = true → s.rzDropped fr = false → fr.kind = 0x16 → (fr.bc = true ∨ fr.dst.toNat = s.selfId) → s.leads = true → s.grp.members.contains fr.src.toNat = true → fr.payload = s.record → s.grpState = 4 → (sx 32 (s.g Reg.RZ_GRP_OFS)).natAbs ≤ 800 → ∃ t, exec (.digest fr) s = .next t ∧ (fr.src.toNat, true, 0) ∈ t.grp.digests ∧
      t.grp.edges = s.grp.edges ∧ t.grp.members = s.grp.members ∧ t.jobs = s.jobs) ∧
  (∀ (s : State) (fr : RzFrame), s.held = false → s.rzLive fr.port = true → s.rzDropped fr = false → fr.kind = 0x16 → (fr.bc = true ∨ fr.dst.toNat = s.selfId) → s.leads = true → s.grp.members.contains fr.src.toNat = true → s.nextMembers.contains fr.src.toNat = true → byteAt fr.payload 26 ≠ 4 → ∃ t, exec (.digest fr) s = .next t ∧
      t.grp.edges.dropLast = s.grp.edges ∧ t.grp.edges.getLast?.any (fun e => e.joins.isEmpty && decide (e.fence.map (fun f => f.1) = [fr.src.toNat]) && decide ((s.dom s.groupDom).nanos + 40000 ≤ e.sec * 1000000000 + e.ns)) = true ∧ t.grp.members = s.grp.members ∧ t.jobs = s.jobs) ∧
  (∀ (s : State), s.held = false → s.inRun = true → s.groupSect.isSome = true → s.valid s.groupDom = true → s.isMember = false → s.grp.beaconAt - 1 + 1000000000 ≤ s.ticks → ∃ t, exec .beaconTimeout s = .next t ∧ t.leads = true ∧ t.grp.members = [s.selfId] ∧
      t.g Reg.RZ_GRP_LEAD_LEADER = s.selfId ∧ t.g Reg.RZ_GRP_M = 1 ∧ t.g Reg.RZ_GRP_OFS = 0 ∧ t.grp.edges = [] ∧ t.jobs = s.jobs) ∧
  (∀ (s : State) (l : List (Nat × Nat)), s.held = false → s.inRun = true → s.groupSect.isSome = true → s.valid s.groupDom = true → s.isMember = true → s.leads = false → s.grp.edges = [] → s.grp.beaconAt - 1 + (s.grp.members.idxOf s.selfId + 1) * 300000000 ≤ s.ticks →
    l = (s.grp.members.filter (fun i => decide (i < s.selfId))).map (fun i => (i, 5)) → l ≠ [] → ∃ t, exec .beaconTimeout s = .next t ∧ t.leads = true ∧ t.grp.members = s.grp.members ∧
      t.g Reg.RZ_GRP_LEAD_LEADER = s.selfId ∧ t.grp.edges.dropLast = s.grp.edges ∧ t.grp.edges.getLast?.any (fun e => e.joins.isEmpty && decide (e.fence = l)) = true ∧ t.jobs = s.jobs) ∧
  (∀ (s : State), s.held = false → (s.inRun = false ∨ s.leads = true ∨ s.ticks < s.grp.beaconAt - 1 + 300000000) → exec .beaconTimeout s = .next s) ∧
  (∀ (s : State) (p : Fin 4), s.held = false → s.boot.phase = .started → s.isMember = false → s.groupSect.isSome = true → s.valid s.groupDom = true → s.grp.beaconAt ≠ 0 → s.rzRoute (s.g Reg.RZ_GRP_LEAD_LEADER) = some p → s.rzUp p = true → (s.rzp p).busy = true → 
    ∃ t, exec .joinRetry s = .next t ∧ (t.rzp p).q3.map (fun x => (x.kind, x.payload)) = (s.rzp p).q3.map (fun x => (x.kind, x.payload)) ++ [(0x11, s.record)] ∧ t.regs = s.regs ∧ t.mem = s.mem) ∧
  (∀ (s : State), s.held = false → (s.boot.phase ≠ .started ∨ s.isMember = true ∨ s.valid s.groupDom = false ∨ s.grp.beaconAt = 0) → exec .joinRetry s = .next s) ∧
  (∀ (s : State) (p : Fin 4), s.held = false → s.leads = false → s.isMember = true → s.grpState = 4 → (sx 32 (s.g Reg.RZ_GRP_OFS)).natAbs ≤ 800 → s.rzRoute (s.g Reg.RZ_GRP_LEAD_LEADER) = some p → s.rzUp p = true → (s.rzp p).busy = true → 
    ∃ t, exec .digestTimer s = .next t ∧ (t.rzp p).q3.map (fun x => (x.kind, x.payload)) = (s.rzp p).q3.map (fun x => (x.kind, x.payload)) ++ [(0x16, s.record)] ∧ t.regs = s.regs ∧ t.mem = s.mem) ∧
  (∀ (s : State) (l : List (Nat × Nat)), s.held = false → s.leads = true → s.grpState = 4 → (sx 32 (s.g Reg.RZ_GRP_OFS)).natAbs ≤ 800 → s.grp.edges = [] →
    l = (s.digestCount.filter (fun d => decide (2 ≤ d.2.2))).map (fun d => (d.1, 4)) → (if l = [] then ∃ t, exec .digestTimer s = .next t ∧ t.grp.digests = s.digestCount ∧ t.grp.edges = []
      else ∃ t, exec .digestTimer s = .next t ∧ t.grp.digests = s.digestCount ∧ t.grp.edges.dropLast = s.grp.edges ∧ t.grp.edges.getLast?.any (fun e => e.joins.isEmpty && decide (e.fence = l) && decide ((s.dom s.groupDom).nanos + 40000 ≤ e.sec * 1000000000 + e.ns)) = true ∧ t.grp.members = s.grp.members ∧ t.jobs = s.jobs))

/-- RZ_CMD_PUSH appends W0 to W7 to the queue of 8, and is ignored and counted when it is full. A command that breaks R373 is not run and its job faults. Outside the group a REDUCE or BCAST has its own contribution in DST and RESULT 2; a BARRIER has RESULT 2 and the present time. A leaf of a REDUCE without ALL sends its contribution up and is done; a leaf of a BARRIER sends its arrival and waits. RED_UP keeps a child's part; at rank 0 the sum of own and child goes to DST and the status says OK. RED_DOWN goes to DST of the issued command, or waits for it. A failure marks the operation. BAR_ARRIVE counts the child; at rank 0 the last one sets the release at now + BUDGET. BAR_RELEASE sets it at now + BUDGET - CORR, or releases at once and counts. At its release time the barrier ends with that time; at its deadline an operation that still waits fails and counts; before those times the two commands change nothing. -/
def Obligations.GroupOperationsAct : Prop :=
  (∀ (s : State) (g : Byte) (f : Fin 6) (v : Word), s.held = false → s.agentJob g.toNat = none → s.mayWrite g.toNat .fw = true → v = 1 → (if (s.fr f).grp.length < 8 then ∃ t, exec (.rzCmdPush g f v) s = .next t ∧
        (t.fr f).grp = (s.fr f).grp ++ [(List.range 8).map (fun i => s.reg ((Reg.RZ_CMDf_W0 f).addr + 4 * i))] ∧ t.g (Reg.RZ_CMDf_STS f) = 7 - (s.fr f).grp.length ∧ (∀ h, h ≠ f → t.fr h = s.fr h) ∧ t.mem = s.mem
      else ∃ t, exec (.rzCmdPush g f v) s = .next t ∧ t.fronds = s.fronds ∧ t.g Reg.SYS_WR_IGN_CNT = min (s.g Reg.SYS_WR_IGN_CNT + 1) 0xFFFFFFFF)) ∧
  (∀ (s : State) (f : Fin 6) (w : List Word) (q : List (List Word)) (j k : Nat) (c : Instr), s.held = false → (s.fr f).grp = w :: q → s.jobOf f = some j → s.frondRuns f = true → opKind w = k →
    (c, k) ∈ [(Instr.reduce f, 0), (.reduce f, 3), (.bcast f, 1), (.groupBarrier f, 2)] → s.grpCheck f j w ≠ 0 → s.plainJob j → ∃ t, exec c s = .next t ∧ (t.jst j = 3 ∨ t.jst j = 5)) ∧
  (∀ (s : State) (f : Fin 6) (w : List Word) (q : List (List Word)) (j n k : Nat) (c : Instr), (c, k) ∈ [(Instr.reduce f, 0), (.bcast f, 1)] → s.held = false → (s.fr f).grp = w :: q → s.jobOf f = some j → s.frondRuns f = true → opKind w = k → s.grpCheck f j w = 0 → n = opLen w → 0 < n → s.poisoned (opAddr w 2) n = false → cfield w 6 12 4 = 0 → (opAddr w 3 + n ≤ opAddr w 7 ∨ opAddr w 7 + 32 ≤ opAddr w 3) → s.setOf (opSlot w) = [] →
    ∃ t, exec c s = .next t ∧ t.ld (opAddr w 3) n = s.ld (opAddr w 2) n ∧ t.ld (opAddr w 7) 32 = [2, 0, 0, 0] ++ toLE 4 1 ++ toLE 4 0 ++ zeros 20 ∧ (t.fr f).grp = q ∧ t.jobs = s.jobs) ∧
  (∀ (s : State) (f : Fin 6) (w : List Word) (q : List (List Word)) (j n : Nat), s.held = false → (s.fr f).grp = w :: q → s.jobOf f = some j → s.frondRuns f = true → opKind w = 2 → s.grpCheck f j w = 0 → s.poisoned (opAddr w 2) n = false → cfield w 6 12 4 = 0 → s.setOf (opSlot w) = [] → ∃ t, exec (.groupBarrier f) s = .next t ∧ t.ld (opAddr w 7) 32 = [2, 0, 0, 0] ++ toLE 4 1 ++ toLE 4 (s.compact s.groupDom) ++ zeros 20 ∧ (t.fr f).grp = q ∧ t.jobs = s.jobs ∧
      ∀ a : Nat, (a < opAddr w 7 ∨ opAddr w 7 + 32 ≤ a) → t.ld1 a = s.ld1 a) ∧
  (∀ (s : State) (f : Fin 6) (w : List Word) (q : List (List Word)) (j n r : Nat) (l : List Nat) (p : Fin 4), s.held = false → (s.fr f).grp = w :: q → s.jobOf f = some j → s.frondRuns f = true → opKind w = 0 → s.grpCheck f j w = 0 → n = opLen w → 0 < n → n ≤ 8192 → cfield w 0 4 1 = 0 → s.poisoned (opAddr w 2) n = false → cfield w 6 12 4 = 0 → l = s.setOf (opSlot w) → r = l.idxOf s.selfId → 0 < r → r < l.length →
    kids r l.length = [] → s.grp.ops = [] → s.rzRoute (l.getD ((r - 1) / 4) 0) = some p → s.rzUp p = true → (s.rzp p).busy = true → ∃ t, exec (.reduce f) s = .next t ∧
      (t.rzp p).q4.map (fun e => (e.1, e.2.kind, e.2.payload)) = (s.rzp p).q4.map (fun e => (e.1, e.2.kind, e.2.payload)) ++ [(opJob w, 0x20, s.ld (opAddr w 2) n)] ∧
      t.ld (opAddr w 7) 32 = [0, 0, 0, 0] ++ toLE 4 l.length ++ toLE 4 0 ++ zeros 20 ∧ t.grp.ops = [] ∧ (t.fr f).grp = q ∧ t.jobs = s.jobs) ∧
  (∀ (s : State) (f : Fin 6) (w : List Word) (q : List (List Word)) (j n r : Nat) (l : List Nat) (p : Fin 4), s.held = false → (s.fr f).grp = w :: q → s.jobOf f = some j → s.frondRuns f = true → opKind w = 2 → s.grpCheck f j w = 0 → s.poisoned (opAddr w 2) n = false → cfield w 6 12 4 = 0 → l = s.setOf (opSlot w) → r = l.idxOf s.selfId → 0 < r → r < l.length →
    kids r l.length = [] → s.grp.ops = [] → s.rzRoute (l.getD ((r - 1) / 4) 0) = some p → s.rzUp p = true → (s.rzp p).busy = true → ∃ t, exec (.groupBarrier f) s = .next t ∧
      (t.rzp p).q3.map (fun x => x.kind) = (s.rzp p).q3.map (fun x => x.kind) ++ [0x22] ∧ t.grp.ops = [⟨opJob w, opRtag w, opSlot w, some f, w, [], [], true, none, false⟩] ∧ t.mem = s.mem ∧ t.jobs = s.jobs) ∧
  (∀ (s : State) (f : Fin 6) (w : List Word) (q : List (List Word)) (j n i : Nat) (p : Fin 4), s.held = false → (s.fr f).grp = w :: q → s.jobOf f = some j → s.frondRuns f = true → opKind w = 1 → s.grpCheck f j w = 0 → n = opLen w → 0 < n → n ≤ 8192 → s.poisoned (opAddr w 2) n = false → cfield w 6 12 4 = 0 → (opAddr w 3 + n ≤ opAddr w 7 ∨ opAddr w 7 + 32 ≤ opAddr w 3) → s.setOf (opSlot w) = [s.selfId, i] → i ≠ s.selfId → s.grp.ops = [] → s.rzRoute i = some p → s.rzUp p = true →
    (s.rzp p).busy = true → ∃ t, exec (.bcast f) s = .next t ∧ (t.rzp p).q4.map (fun e => (e.1, e.2.kind, e.2.payload)) = (s.rzp p).q4.map (fun e => (e.1, e.2.kind, e.2.payload)) ++ [(opJob w, 0x21, s.ld (opAddr w 2) n)] ∧
      t.ld (opAddr w 3) n = s.ld (opAddr w 2) n ∧ t.ld (opAddr w 7) 32 = [0, 0, 0, 0] ++ toLE 4 2 ++ toLE 4 0 ++ zeros 20 ∧ t.grp.ops = [] ∧ t.jobs = s.jobs) ∧
  (∀ (s : State) (fr : RzFrame) (j tag sl : Nat), s.held = false → s.rzLive fr.port = true → s.rzDropped fr = false → fr.kind = 0x20 → fr.bc = false → fr.dst.toNat = s.selfId → s.opKey fr = (j, tag, sl) → (kids ((s.setOf sl).idxOf s.selfId) (s.setOf sl).length).contains ((s.setOf sl).idxOf fr.src.toNat) = true → fr.tag.getLsbD 31 = false → s.grp.ops = [] → ∃ t, exec (.redUp fr) s = .next t ∧
      t.grp.ops = [⟨j, tag, sl, none, [], [⟨0, [((s.setOf sl).idxOf fr.src.toNat, fr.payload)], false, none⟩], [], false, none, false⟩] ∧ t.mem = s.mem ∧ t.regs = s.regs) ∧
  (∀ (s : State) (fr : RzFrame) (j tag sl n : Nat) (f : Fin 6) (w : List Word) (own : List Byte), s.held = false → s.rzLive fr.port = true → s.rzDropped fr = false → fr.kind = 0x20 → fr.bc = false → fr.dst.toNat = s.selfId → s.opKey fr = (j, tag, sl) → s.setOf sl = [s.selfId, fr.src.toNat] → fr.src.toNat ≠ s.selfId → fr.tag.getLsbD 31 = false →
    s.grp.ops = [⟨j, tag, sl, some f, w, [⟨0, [(0, own)], false, none⟩], [], false, none, false⟩] → opKind w = 0 → cfield w 0 4 1 = 0 → n = opLen w → 0 < n → n ≤ 8192 → cfield w 6 12 4 = 0 → own.length = n → (opAddr w 3 + n ≤ opAddr w 7 ∨ opAddr w 7 + 32 ≤ opAddr w 3) → 
    ∃ t, exec (.redUp fr) s = .next t ∧ t.ld (opAddr w 3) n = addElems (cfield w 0 2 2) own fr.payload ∧ t.ld (opAddr w 7) 32 = [0, 0, 0, 0] ++ toLE 4 2 ++ toLE 4 0 ++ zeros 20 ∧ t.grp.ops = [] ∧ t.jobs = s.jobs) ∧
  (∀ (s : State) (fr : RzFrame) (j tag sl : Nat), s.held = false → s.rzLive fr.port = true → s.rzDropped fr = false → fr.kind = 0x20 → fr.bc = false → fr.dst.toNat = s.selfId → s.opKey fr = (j, tag, sl) → (kids ((s.setOf sl).idxOf s.selfId) (s.setOf sl).length).contains ((s.setOf sl).idxOf fr.src.toNat) = true → fr.tag.getLsbD 31 = true → ∃ t, exec (.redUp fr) s = .next t ∧ (t.opOf j tag sl).failed = true ∧ t.jobs = s.jobs) ∧
  (∀ (s : State) (fr : RzFrame) (j tag sl n : Nat) (f : Fin 6) (w : List Word), s.held = false → s.rzLive fr.port = true → s.rzDropped fr = false → fr.kind = 0x21 → fr.bc = false → fr.dst.toNat = s.selfId → s.opKey fr = (j, tag, sl) → 0 < (s.setOf sl).idxOf s.selfId → (s.setOf sl).idxOf s.selfId < (s.setOf sl).length → (s.setOf sl).getD (((s.setOf sl).idxOf s.selfId - 1) / 4) 0 = fr.src.toNat → kids ((s.setOf sl).idxOf s.selfId) (s.setOf sl).length = [] → fr.tag.getLsbD 31 = false → s.grp.ops = [⟨j, tag, sl, some f, w, [], [], false, none, false⟩] →
    opKind w = 1 → n = opLen w → 0 < n → n ≤ 8192 → fr.payload.length = n → cfield w 6 12 4 = 0 → (opAddr w 3 + n ≤ opAddr w 7 ∨ opAddr w 7 + 32 ≤ opAddr w 3) → ∃ t, exec (.redDown fr) s = .next t ∧ t.ld (opAddr w 3) n = fr.payload ∧ t.ld (opAddr w 7) 32 = [0, 0, 0, 0] ++ toLE 4 (s.setOf sl).length ++ toLE 4 0 ++ zeros 20 ∧ t.grp.ops = [] ∧ t.jobs = s.jobs) ∧
  (∀ (s : State) (fr : RzFrame) (j tag sl : Nat), s.held = false → s.rzLive fr.port = true → s.rzDropped fr = false → fr.kind = 0x21 → fr.bc = false → fr.dst.toNat = s.selfId → s.opKey fr = (j, tag, sl) → 0 < (s.setOf sl).idxOf s.selfId → (s.setOf sl).idxOf s.selfId < (s.setOf sl).length → (s.setOf sl).getD (((s.setOf sl).idxOf s.selfId - 1) / 4) 0 = fr.src.toNat → fr.tag.getLsbD 31 = false → s.grp.ops = [] → ∃ t, exec (.redDown fr) s = .next t ∧
      t.grp.ops = [⟨j, tag, sl, none, [], [⟨0, [], false, some fr.payload⟩], [], false, none, false⟩] ∧ t.mem = s.mem ∧ t.jobs = s.jobs) ∧
  (∀ (s : State) (fr : RzFrame) (j tag sl : Nat), s.held = false → s.rzLive fr.port = true → s.rzDropped fr = false → fr.kind = 0x22 → fr.bc = false → fr.dst.toNat = s.selfId → s.opKey fr = (j, tag, sl) → (kids ((s.setOf sl).idxOf s.selfId) (s.setOf sl).length).contains ((s.setOf sl).idxOf fr.src.toNat) = true → s.grp.ops = [] → ∃ t, exec (.barArrive fr) s = .next t ∧
      t.grp.ops = [⟨j, tag, sl, none, [], [], [(s.setOf sl).idxOf fr.src.toNat], false, none, false⟩] ∧ t.mem = s.mem ∧ t.regs = s.regs) ∧
  (∀ (s : State) (fr : RzFrame) (j tag sl : Nat) (f : Fin 6) (w : List Word), s.held = false → s.rzLive fr.port = true → s.rzDropped fr = false → fr.kind = 0x22 → fr.bc = false → fr.dst.toNat = s.selfId → s.opKey fr = (j, tag, sl) → s.setOf sl = [s.selfId, fr.src.toNat] → fr.src.toNat ≠ s.selfId → opKind w = 2 → s.grp.ops = [⟨j, tag, sl, some f, w, [], [], false, none, false⟩] → ∃ t, exec (.barArrive fr) s = .next t ∧
      t.grp.ops = [⟨j, tag, sl, some f, w, [], [1], true, some ((s.compact s.groupDom + s.g Reg.RZ_GRP_CFG_BUDGET * 1000) % 2 ^ 32), false⟩] ∧ t.mem = s.mem ∧ t.regs = s.regs) ∧
  (∀ (s : State) (fr : RzFrame) (j tag sl : Nat) (f : Fin 6) (w : List Word) (a : List Nat), s.held = false → s.rzLive fr.port = true → s.rzDropped fr = false → fr.kind = 0x23 → fr.bc = true → fr.dst.toNat = s.selfId → s.opKey fr = (j, tag, sl) → s.grp.ops = [⟨j, tag, sl, some f, w, [], a, true, none, false⟩] → cfield w 6 12 4 = 0 → (if le fr.payload 0 4 ≤ s.g Reg.RZ_GRP_CFG_BUDGET * 64000 then ∃ t, exec (.barRelease fr) s = .next t ∧
        t.grp.ops = [⟨j, tag, sl, some f, w, [], a, true, some ((s.compact s.groupDom + rneDiv (s.g Reg.RZ_GRP_CFG_BUDGET * 64000 - le fr.payload 0 4) 64) % 2 ^ 32), false⟩] ∧ t.mem = s.mem ∧ t.jobs = s.jobs
      else ∃ t, exec (.barRelease fr) s = .next t ∧ t.grp.ops = [] ∧ t.ld (opAddr w 7) 32 = [0, 0, 0, 0] ++ toLE 4 (s.setOf sl).length ++ toLE 4 (s.compact s.groupDom) ++ zeros 20 ∧ t.g Reg.RZ_BAR_LATE_CNT = min (s.g Reg.RZ_BAR_LATE_CNT + 1) 0xFFFFFFFF ∧ t.jobs = s.jobs)) ∧
  (∀ (s : State) (f : Fin 6) (tag : BitVec 16) (sl : Word) (o : GrpOp) (n : Nat) (w : List Word), s.held = false → s.grp.ops = [o] → o.frond = some f → o.rtag = tag.toNat → o.slot = sl.toNat → o.release = some n → o.cmd = w → cfield w 6 12 4 = 0 → 0 ≤ ctDiff (s.compact s.groupDom) n →
    ∃ t, exec (.barrierReleaseTime f tag sl) s = .next t ∧ t.ld (opAddr w 7) 32 = [0, 0, 0, 0] ++ toLE 4 (s.setOf o.slot).length ++ toLE 4 n ++ zeros 20 ∧ t.grp.ops = [] ∧ t.jobs = s.jobs) ∧
  (∀ (s : State) (f : Fin 6) (tag : BitVec 16) (sl : Word) (o : GrpOp), s.held = false → s.grp.ops = [o] → o.frond = some f → o.rtag = tag.toNat → o.slot = sl.toNat → o.release = none → o.failed = false → s.setOf o.slot ≠ [] → 0 ≤ ctDiff (s.compact s.groupDom) (cfield o.cmd 5 0 32) →
    ∃ t, exec (.groupOpDeadline f tag sl) s = .next t ∧ (t.opOf o.job o.rtag o.slot).failed = true ∧ t.g Reg.RZ_RED_FAIL_CNT = min (s.g Reg.RZ_RED_FAIL_CNT + 1) 0xFFFFFFFF ∧ t.jobs = s.jobs) ∧
  (∀ (s : State) (f : Fin 6) (tag : BitVec 16) (sl : Word) (o : GrpOp) (n : Nat), s.held = false → s.grp.ops = [o] → ((o.release = some n ∧ ctDiff (s.compact s.groupDom) n < 0) ∨ (o.release = none ∧ ctDiff (s.compact s.groupDom) (cfield o.cmd 5 0 32) < 0)) →
    exec (.groupOpDeadline f tag sl) s = .next s ∧ exec (.barrierReleaseTime f tag sl) s = .next s) ∧
  (∀ (s : State) (f : Fin 6) (tag : BitVec 16) (sl : Word), s.held = false → s.grp.ops.all (fun o => o.frond != some f) = true → exec (.groupOpDeadline f tag sl) s = .next s ∧ exec (.barrierReleaseTime f tag sl) s = .next s)

/-- PAIR_SYNC on the pair port: a digest of a slot that the device has kept is compared with its own: equal, the run of its job grows by 1, different, it is 0, and INSTEP shows the job in step from 16; one of a slot not yet digested here waits. A standby takes its offset from the primary, and a takeover is due when the primary reports that it cannot go on. Of two active devices the one that was not active before link-up yields. PAIR_BLOCKS: the first block that differs counts once in RZ_PAIR_DIV_CNT; without a difference, or for a slot not kept, nothing changes. PAIR_MODEL: a part is kept; the last part makes the candidate; the acknowledgement lets the waiting promotion have its slot; a slot or a rollback from the peer is taken over. On a port that is no pair port the frames change nothing. -/
def Obligations.LockStepPairActs : Prop :=
  (∀ (s : State) (fr : RzFrame) (n i : Nat) (d : List Byte) (e : Nat × Nat × List Byte), s.held = false → s.rzLive fr.port = true → s.rzDropped fr = false → fr.kind = 0x30 → s.rzRole fr.port = 3 → byteAt fr.payload 20 = 1 → n = byteAt fr.payload 22 → n < 16 → i = le fr.payload 14 4 → d = (fr.payload.drop 23).take 8 →
    s.pair.sds.find? (fun e => e.1 == n && e.2.1 == i) = some e → ∃ t, exec (.pairSync fr) s = .next t ∧ t.runOf n = (if e.2.2 = d then s.runOf n + 1 else 0) ∧
      (t.g Reg.RZ_PAIR_STS_INSTEP).testBit n = decide (16 ≤ t.runOf n) ∧ (∀ k : Nat, k < 16 → k ≠ n → (t.g Reg.RZ_PAIR_STS_INSTEP).testBit k = (s.g Reg.RZ_PAIR_STS_INSTEP).testBit k) ∧
      t.pair.silent = 0 ∧ t.pair.peer = s.pair.peer ∧ t.mem = s.mem ∧ t.jobs = s.jobs) ∧
  (∀ (s : State) (fr : RzFrame) (n i : Nat), s.held = false → s.rzLive fr.port = true → s.rzDropped fr = false → fr.kind = 0x30 → s.rzRole fr.port = 3 → byteAt fr.payload 20 = 1 → n = byteAt fr.payload 22 → i = le fr.payload 14 4 → s.pair.sds.find? (fun e => e.1 == n && e.2.1 == i) = none →
    ∃ t, exec (.pairSync fr) s = .next t ∧ t.pair.peer = s.pair.peer ++ [(n, i, (fr.payload.drop 23).take 8)] ∧ t.pair.runs = s.pair.runs ∧ t.mem = s.mem ∧ t.jobs = s.jobs) ∧
  (∀ (s : State) (fr : RzFrame), s.held = false → s.rzLive fr.port = true → s.rzDropped fr = false → fr.kind = 0x30 → s.rzRole fr.port = 3 → byteAt fr.payload 20 = 0 → s.standby = true → ∃ t, exec (.pairSync fr) s = .next t ∧
      t.g Reg.RZ_GRP_OFS = toBits 32 (satS 32 (rneDivI (fullUnits (s.dom s.groupDom).full - timeUnits fr.payload 0) 4096)) ∧ t.standby = true ∧
      t.pair.due = (if byteAt fr.payload 18 ≠ 0 ∨ byteAt fr.payload 19 % 4 ≠ 0 then some (s.pair.due.getD 2) else s.pair.due) ∧ t.mem = s.mem ∧ t.jobs = s.jobs) ∧
  (∀ (s : State) (fr : RzFrame), s.held = false → s.rzLive fr.port = true → s.rzDropped fr = false → fr.kind = 0x30 → s.rzRole fr.port = 3 → byteAt fr.payload 20 = 0 → s.on Reg.RZ_PAIR_STS_ACTIVE = true → (byteAt fr.payload 19).testBit 2 = true → ∃ t, exec (.pairSync fr) s = .next t ∧
      t.on Reg.RZ_PAIR_STS_ACTIVE = (if (byteAt fr.payload 19).testBit 3 = s.pair.was then !s.pairByte.testBit 2 else s.pair.was) ∧ t.jobs = s.jobs) ∧
  (∀ (s : State) (fr : RzFrame), s.held = false → s.rzLive fr.port = true → s.rzDropped fr = false → s.rzRole fr.port ≠ 3 → exec (.pairSync fr) s = .next s ∧ exec (.pairBlocks fr) s = .next s ∧ exec (.pairModel fr) s = .next s) ∧
  (∀ (s : State) (fr : RzFrame) (n i k : Nat), s.held = false → s.rzLive fr.port = true → s.rzDropped fr = false → fr.kind = 0x31 → s.rzRole fr.port = 3 → n = byteAt fr.payload 0 → i = le fr.payload 4 4 → s.pair.sds.any (fun e => e.1 == n && e.2.1 == i) = true → firstDiff ((s.blocksOf n i).map (fun b => b.crc)) (le fr.payload 2 2) (le fr.payload 8 4) ((List.range ((fr.payload.length - 12) / 4)).map (fun k => le fr.payload (12 + 4 * k) 4)) = some k → ∃ t, exec (.pairBlocks fr) s = .next t ∧
      t.g Reg.RZ_PAIR_DIV_CNT = min (s.g Reg.RZ_PAIR_DIV_CNT + 1) 0xFFFFFFFF ∧ t.pair.sds = s.pair.sds.filter (fun e => !(e.1 == n && e.2.1 == i)) ∧ t.pair.blocks = s.pair.blocks ∧ t.jobs = s.jobs) ∧
  (∀ (s : State) (fr : RzFrame) (n i : Nat), s.held = false → s.rzLive fr.port = true → s.rzDropped fr = false → fr.kind = 0x31 → s.rzRole fr.port = 3 → n = byteAt fr.payload 0 → i = le fr.payload 4 4 → (s.pair.sds.any (fun e => e.1 == n && e.2.1 == i) = false ∨ firstDiff ((s.blocksOf n i).map (fun b => b.crc)) (le fr.payload 2 2) (le fr.payload 8 4) ((List.range ((fr.payload.length - 12) / 4)).map (fun k => le fr.payload (12 + 4 * k) 4)) = none) → exec (.pairBlocks fr) s = .next s) ∧
  (∀ (s : State) (fr : RzFrame), s.held = false → s.rzLive fr.port = true → s.rzDropped fr = false → fr.kind = 0x32 → s.rzRole fr.port = 3 → byteAt fr.payload 0 = 0 → ∃ t, exec (.pairModel fr) s = .next t ∧ t.pair = { s.pair with rxModel := s.pair.rxModel ++ fr.payload.drop 2 } ∧ t.trn = s.trn ∧ t.regs = s.regs ∧ t.mem = s.mem) ∧
  (∀ (s : State) (fr : RzFrame), s.held = false → s.rzLive fr.port = true → s.rzDropped fr = false → fr.kind = 0x32 → s.rzRole fr.port = 3 → byteAt fr.payload 0 = 1 → byteAt fr.payload 1 = 4 → s.rzUp fr.port = true → (s.rzp fr.port).busy = true → (∀ p : Fin 4, s.rzRole p = 3 → p = fr.port) → ∃ t, exec (.pairModel fr) s = .next t ∧
      t.trn.edgeCand.isSome = true ∧ t.trn.cand = t.trn.edgeCand.map (fun e => .edge e) ∧ t.trn.edge = s.trn.edge ∧ t.pair.rxModel = [] ∧
      (t.rzp fr.port).q4.map (fun e => (e.2.kind, e.2.payload)) = (s.rzp fr.port).q4.map (fun e => (e.2.kind, e.2.payload)) ++ [(0x32, [2, 0])] ∧ t.mem = s.mem) ∧
  (∀ (s : State) (fr : RzFrame) (c : CandSub), s.held = false → s.rzLive fr.port = true → s.rzDropped fr = false → fr.kind = 0x32 → s.rzRole fr.port = 3 → byteAt fr.payload 0 = 2 → s.trn.cand = some c → (if s.pair.waiting = true then ∃ t, exec (.pairModel fr) s = .next t ∧ t.trn.pending = some (.promote s.promoteEdge c) ∧ t.pair.waiting = false ∧ t.mem = s.mem
     else exec (.pairModel fr) s = .next s)) ∧
  (∀ (s : State) (fr : RzFrame) (c : CandSub), s.held = false → s.rzLive fr.port = true → s.rzDropped fr = false → fr.kind = 0x32 → s.rzRole fr.port = 3 → byteAt fr.payload 0 = 3 → s.trn.cand = some c → ∃ t, exec (.pairModel fr) s = .next t ∧ t.trn.pending = some (.promote (le fr.payload 2 8 * 1000000000 + le fr.payload 10 4) c) ∧ t.pair = s.pair ∧ t.mem = s.mem) ∧
  (∀ (s : State) (fr : RzFrame), s.held = false → s.rzLive fr.port = true → s.rzDropped fr = false → fr.kind = 0x32 → s.rzRole fr.port = 3 → byteAt fr.payload 0 = 4 → (if s.trn.watch.isSome = true ∧ s.trn.pending = none then ∃ t, exec (.pairModel fr) s = .next t ∧ t.trn.pending = some (.rollback true false) ∧ t.pair = s.pair ∧ t.mem = s.mem
     else exec (.pairModel fr) s = .next s))
end

