-- ==== Sys2Proof/Laws/Sparse.lean ====
section
/-!
SUPPORT. Sparse maps: what a map reads after one key is set, and that setting and restricting keep the canonical form.
-/
namespace Sys2Proof.Machine

variable {α : Type}

theorem sget_append (d : α) (m n : List (Nat × α)) (a : Nat) :
    sget d (m ++ n) a = if m.any (fun e => e.1 == a) then sget d m a else sget d n a := by
  induction m with
  | nil => rfl
  | cons e m ih =>
    obtain ⟨k, v⟩ := e
    by_cases h : a = k
    · simp [sget, h]
    · have h' : k ≠ a := fun c => h c.symm
      have hb : (k == a) = false := beq_eq_false_iff_ne.mpr h'
      simp only [List.cons_append, sget, h, if_false, ih, List.any_cons, hb, Bool.false_or]

/-- A key that no entry has reads as unlisted. -/
theorem sget_none (d : α) {m : List (Nat × α)} {a : Nat} (h : m.any (fun e => e.1 == a) = false) : sget d m a = d := by
  induction m with
  | nil => rfl
  | cons e m ih =>
    obtain ⟨k, v⟩ := e
    simp only [List.any_cons, Bool.or_eq_false_iff, beq_eq_false_iff_ne] at h
    have hk : a ≠ k := fun c => h.1 c.symm
    simp [sget, hk, ih h.2]

/-- A key that a filter keeps reads as before. -/
theorem sget_filter (d : α) (p : Nat → Bool) {a : Nat} (h : p a = true) (m : List (Nat × α)) :
    sget d (m.filter (fun e => p e.1)) a = sget d m a := by
  induction m with
  | nil => rfl
  | cons e m ih =>
    obtain ⟨k, v⟩ := e
    by_cases hk : p k = true
    · simp [sget, hk, ih]
    · have : a ≠ k := fun c => hk (c ▸ h)
      simp [sget, hk, this, ih]

/-- A key that a filter drops reads as unlisted. -/
theorem sget_filter_none (d : α) (p : Nat → Bool) {a : Nat} (h : p a = false) (m : List (Nat × α)) :
    sget d (m.filter (fun e => p e.1)) a = d := by
  induction m with
  | nil => rfl
  | cons e m ih =>
    obtain ⟨k, v⟩ := e
    by_cases hk : p k = true
    · have : a ≠ k := fun c => by simp [c, hk] at h
      simp [sget, hk, this, ih]
    · simp [hk, ih]

theorem any_filter_key (p : Nat → Bool) {a : Nat} (h : p a = false) (m : List (Nat × α)) :
    (m.filter (fun e => p e.1)).any (fun e => e.1 == a) = false := by
  simp only [List.any_eq_false, List.mem_filter]
  rintro e ⟨-, he⟩ hc
  simp only [beq_iff_eq] at hc
  rw [hc, h] at he
  exact Bool.noConfusion he

/-- Setting a key: that key reads the value set. -/
@[simp] theorem sget_sset_same [DecidableEq α] (d : α) (m : List (Nat × α)) (a : Nat) (x : α) :
    sget d (sset d m a x) a = x := by
  unfold sset
  rw [List.append_assoc, sget_append, any_filter_key (fun k => decide (k < a)) (by simp)]
  simp only [Bool.false_eq_true, if_false]
  by_cases hx : x = d
  · simpa [hx] using sget_filter_none d (fun k => decide (a < k)) (by simp) m
  · simp [hx, sget]

/-- Setting a key leaves every other key as it was. -/
theorem sget_sset_other [DecidableEq α] (d d' : α) (m : List (Nat × α)) {a c : Nat} (x : α) (hac : c ≠ a) :
    sget d' (sset d m a x) c = sget d' m c := by
  unfold sset
  rw [List.append_assoc, sget_append]
  have hmid : ∀ n : List (Nat × α), sget d' ((if x = d then [] else [(a, x)]) ++ n) c = sget d' n c := by
    intro n
    split <;> simp [sget, hac]
  rw [hmid]
  rcases Nat.lt_or_gt_of_ne hac with h | h
  · have e1 := sget_filter d' (fun k => decide (k < a)) (by simpa using h) m
    have e2 := sget_filter_none d' (fun k => decide (a < k)) (a := c) (by simp; omega) m
    split
    · exact e1
    · rename_i hn
      rw [e2, ← e1, sget_none d' (Bool.eq_false_iff.mpr hn)]
  · rw [any_filter_key (fun k => decide (k < a)) (by simp; omega)]
    simpa using sget_filter d' (fun k => decide (a < k)) (by simpa using h) m

theorem srising_mono {b c : Nat} (h : c ≤ b) : ∀ {m : List (Nat × α)}, srising b m = true → srising c m = true
  | [], _ => rfl
  | (k, v) :: m, hm => by
    simp only [srising, Bool.and_eq_true, decide_eq_true_eq] at hm ⊢
    exact ⟨Nat.le_trans h hm.1, hm.2⟩

theorem srising_filter (p : Nat × α → Bool) : ∀ {b : Nat} {m : List (Nat × α)}, srising b m = true → srising b (m.filter p) = true
  | _, [], _ => rfl
  | b, (k, v) :: m, hm => by
    simp only [srising, Bool.and_eq_true, decide_eq_true_eq] at hm
    have ih := srising_filter p hm.2
    by_cases hp : p (k, v) = true
    · simp only [List.filter_cons, hp, if_true, srising, Bool.and_eq_true, decide_eq_true_eq]
      exact ⟨hm.1, ih⟩
    · simp only [List.filter_cons, hp]
      exact srising_mono (Nat.le_succ_of_le hm.1) ih

/-- A rising map stays rising from a bound that its keys respect. -/
theorem srising_raise {c : Nat} : ∀ {b : Nat} {m : List (Nat × α)}, srising b m = true → (∀ e ∈ m, c ≤ e.1) → srising c m = true
  | _, [], _, _ => rfl
  | b, (k, v) :: m, hm, hc => by
    simp only [srising, Bool.and_eq_true, decide_eq_true_eq] at hm ⊢
    exact ⟨hc _ (List.mem_cons_self ..), hm.2⟩

theorem srising_append {c : Nat} {n : List (Nat × α)} (hn : srising c n = true) :
    ∀ {b : Nat} {m : List (Nat × α)}, b ≤ c → srising b m = true → (∀ e ∈ m, e.1 < c) → srising b (m ++ n) = true
  | b, [], hb, _, _ => srising_mono hb hn
  | b, (k, v) :: m, _, hm, hc => by
    simp only [List.cons_append, srising, Bool.and_eq_true, decide_eq_true_eq] at hm ⊢
    refine ⟨hm.1, srising_append hn ?_ hm.2 (fun e he => hc e (List.mem_cons_of_mem _ he))⟩
    exact hc (k, v) (List.mem_cons_self ..)

/-- Setting a key keeps a map rising. -/
theorem srising_sset [DecidableEq α] (d : α) (a : Nat) (x : α) {m : List (Nat × α)} (hm : srising 0 m = true) :
    srising 0 (sset d m a x) = true := by
  unfold sset
  have hhi : srising (a + 1) (m.filter (fun e => decide (a < e.1))) = true :=
    srising_raise (srising_filter _ hm) (fun e he => Nat.succ_le_of_lt (by simpa using (List.mem_filter.mp he).2))
  have hmid : srising a ((if x = d then [] else [(a, x)]) ++ m.filter (fun e => decide (a < e.1))) = true := by
    split
    · exact srising_mono (Nat.le_succ a) hhi
    · simp [srising, hhi]
  rw [List.append_assoc]
  exact srising_append hmid (Nat.zero_le a) (srising_filter _ hm) (fun e he => by simpa using (List.mem_filter.mp he).2)

/-- Setting a key keeps the canonical form. -/
theorem swf_sset [DecidableEq α] (d : Nat → α) (a : Nat) (x : α) {m : List (Nat × α)} (h : swf d m = true) :
    swf d (sset (d a) m a x) = true := by
  simp only [swf, Bool.and_eq_true, List.all_eq_true] at h ⊢
  refine ⟨srising_sset (d a) a x h.1, fun e he => ?_⟩
  simp only [sset, List.mem_append, List.mem_filter] at he
  rcases he with (he | he) | he
  · exact h.2 e he.1
  · split at he
    · simp at he
    · rename_i hx
      simp only [List.mem_singleton] at he
      simp [he, hx]
  · exact h.2 e he.1

/-- Dropping entries keeps the canonical form. -/
theorem swf_filter [DecidableEq α] (d : Nat → α) (p : Nat × α → Bool) {m : List (Nat × α)} (h : swf d m = true) :
    swf d (m.filter p) = true := by
  simp only [swf, Bool.and_eq_true, List.all_eq_true] at h ⊢
  exact ⟨srising_filter p h.1, fun e he => h.2 e (List.mem_filter.mp he).1⟩

/-- An empty map is canonical. -/
theorem swf_nil [DecidableEq α] (d : Nat → α) : swf d [] = true := rfl

end Sys2Proof.Machine
end

