-- ==== Sys2Proof/Laws/State.lean ====
section
/-!
SUPPORT. What each named update of the state leaves as it was: one lemma per field per update.
-/
namespace Sys2Proof.Machine

variable (s : State)

/-! ### setReg -/

@[simp] theorem State.setReg_pending (a : Nat) (v : Sys2Proof.Word) : (s.setReg a v).pending = s.pending := rfl
@[simp] theorem State.setReg_mem (a : Nat) (v : Sys2Proof.Word) : (s.setReg a v).mem = s.mem := rfl
@[simp] theorem State.setReg_poison (a : Nat) (v : Sys2Proof.Word) : (s.setReg a v).poison = s.poison := rfl
@[simp] theorem State.setReg_flash (a : Nat) (v : Sys2Proof.Word) : (s.setReg a v).flash = s.flash := rfl
@[simp] theorem State.setReg_flashSize (a : Nat) (v : Sys2Proof.Word) : (s.setReg a v).flashSize = s.flashSize := rfl
@[simp] theorem State.setReg_ticks (a : Nat) (v : Sys2Proof.Word) : (s.setReg a v).ticks = s.ticks := rfl
@[simp] theorem State.setReg_boot (a : Nat) (v : Sys2Proof.Word) : (s.setReg a v).boot = s.boot := rfl
@[simp] theorem State.setReg_image (a : Nat) (v : Sys2Proof.Word) : (s.setReg a v).image = s.image := rfl
@[simp] theorem State.setReg_openSlot (a : Nat) (v : Sys2Proof.Word) : (s.setReg a v).openSlot = s.openSlot := rfl
@[simp] theorem State.setReg_adopt (a : Nat) (v : Sys2Proof.Word) : (s.setReg a v).adopt = s.adopt := rfl
@[simp] theorem State.setReg_undo (a : Nat) (v : Sys2Proof.Word) : (s.setReg a v).undo = s.undo := rfl
@[simp] theorem State.setReg_mg (a : Nat) (v : Sys2Proof.Word) : (s.setReg a v).mg = s.mg := rfl
@[simp] theorem State.setReg_hold (a : Nat) (v : Sys2Proof.Word) : (s.setReg a v).hold = s.hold := rfl
@[simp] theorem State.setReg_fuses (a : Nat) (v : Sys2Proof.Word) : (s.setReg a v).fuses = s.fuses := rfl
@[simp] theorem State.setReg_sec (a : Nat) (v : Sys2Proof.Word) : (s.setReg a v).sec = s.sec := rfl
@[simp] theorem State.setReg_domA (a : Nat) (v : Sys2Proof.Word) : (s.setReg a v).domA = s.domA := rfl
@[simp] theorem State.setReg_domB (a : Nat) (v : Sys2Proof.Word) : (s.setReg a v).domB = s.domB := rfl
@[simp] theorem State.setReg_pps (a : Nat) (v : Sys2Proof.Word) : (s.setReg a v).pps = s.pps := rfl
@[simp] theorem State.setReg_ptpA (a : Nat) (v : Sys2Proof.Word) : (s.setReg a v).ptpA = s.ptpA := rfl
@[simp] theorem State.setReg_ptpB (a : Nat) (v : Sys2Proof.Word) : (s.setReg a v).ptpB = s.ptpB := rfl
@[simp] theorem State.setReg_jobs (a : Nat) (v : Sys2Proof.Word) : (s.setReg a v).jobs = s.jobs := rfl
@[simp] theorem State.setReg_rings (a : Nat) (v : Sys2Proof.Word) : (s.setReg a v).rings = s.rings := rfl
@[simp] theorem State.setReg_rebind (a : Nat) (v : Sys2Proof.Word) : (s.setReg a v).rebind = s.rebind := rfl
@[simp] theorem State.setReg_fronds (a : Nat) (v : Sys2Proof.Word) : (s.setReg a v).fronds = s.fronds := rfl
@[simp] theorem State.setReg_mems (a : Nat) (v : Sys2Proof.Word) : (s.setReg a v).mems = s.mems := rfl
@[simp] theorem State.setReg_cross (a : Nat) (v : Sys2Proof.Word) : (s.setReg a v).cross = s.cross := rfl
@[simp] theorem State.setReg_stalls (a : Nat) (v : Sys2Proof.Word) : (s.setReg a v).stalls = s.stalls := rfl
@[simp] theorem State.setReg_gated (a : Nat) (v : Sys2Proof.Word) : (s.setReg a v).gated = s.gated := rfl
@[simp] theorem State.setReg_flt (a : Nat) (v : Sys2Proof.Word) : (s.setReg a v).flt = s.flt := rfl
@[simp] theorem State.setReg_rx (a : Nat) (v : Sys2Proof.Word) : (s.setReg a v).rx = s.rx := rfl
@[simp] theorem State.setReg_tx (a : Nat) (v : Sys2Proof.Word) : (s.setReg a v).tx = s.tx := rfl
@[simp] theorem State.setReg_fh (a : Nat) (v : Sys2Proof.Word) : (s.setReg a v).fh = s.fh := rfl
@[simp] theorem State.setReg_trn (a : Nat) (v : Sys2Proof.Word) : (s.setReg a v).trn = s.trn := rfl
@[simp] theorem State.setReg_pwr (a : Nat) (v : Sys2Proof.Word) : (s.setReg a v).pwr = s.pwr := rfl
@[simp] theorem State.setReg_grp (a : Nat) (v : Sys2Proof.Word) : (s.setReg a v).grp = s.grp := rfl
@[simp] theorem State.setReg_pair (a : Nat) (v : Sys2Proof.Word) : (s.setReg a v).pair = s.pair := rfl
@[simp] theorem State.setReg_lanes (a : Nat) (v : Sys2Proof.Word) : (s.setReg a v).lanes = s.lanes := rfl
@[simp] theorem State.setReg_rzOut (a : Nat) (v : Sys2Proof.Word) : (s.setReg a v).rzOut = s.rzOut := rfl
@[simp] theorem State.setReg_fhOut (a : Nat) (v : Sys2Proof.Word) : (s.setReg a v).fhOut = s.fhOut := rfl
@[simp] theorem State.setReg_mgOut (a : Nat) (v : Sys2Proof.Word) : (s.setReg a v).mgOut = s.mgOut := rfl
@[simp] theorem State.setReg_smbAlarms (a : Nat) (v : Sys2Proof.Word) : (s.setReg a v).smbAlarms = s.smbAlarms := rfl
@[simp] theorem State.setReg_smbAlert (a : Nat) (v : Sys2Proof.Word) : (s.setReg a v).smbAlert = s.smbAlert := rfl
@[simp] theorem State.setReg_smbOut (a : Nat) (v : Sys2Proof.Word) : (s.setReg a v).smbOut = s.smbOut := rfl
@[simp] theorem State.setReg_irqOut (a : Nat) (v : Sys2Proof.Word) : (s.setReg a v).irqOut = s.irqOut := rfl
@[simp] theorem State.setReg_readOut (a : Nat) (v : Sys2Proof.Word) : (s.setReg a v).readOut = s.readOut := rfl
@[simp] theorem State.setReg_freeCtr (a : Nat) (v : Sys2Proof.Word) : (s.setReg a v).freeCtr = s.freeCtr := rfl

/-! ### p -/

@[simp] theorem State.p_pending (F : Fld) (v : Nat) : (s.p F v).pending = s.pending := rfl
@[simp] theorem State.p_mem (F : Fld) (v : Nat) : (s.p F v).mem = s.mem := rfl
@[simp] theorem State.p_poison (F : Fld) (v : Nat) : (s.p F v).poison = s.poison := rfl
@[simp] theorem State.p_flash (F : Fld) (v : Nat) : (s.p F v).flash = s.flash := rfl
@[simp] theorem State.p_flashSize (F : Fld) (v : Nat) : (s.p F v).flashSize = s.flashSize := rfl
@[simp] theorem State.p_ticks (F : Fld) (v : Nat) : (s.p F v).ticks = s.ticks := rfl
@[simp] theorem State.p_boot (F : Fld) (v : Nat) : (s.p F v).boot = s.boot := rfl
@[simp] theorem State.p_image (F : Fld) (v : Nat) : (s.p F v).image = s.image := rfl
@[simp] theorem State.p_openSlot (F : Fld) (v : Nat) : (s.p F v).openSlot = s.openSlot := rfl
@[simp] theorem State.p_adopt (F : Fld) (v : Nat) : (s.p F v).adopt = s.adopt := rfl
@[simp] theorem State.p_undo (F : Fld) (v : Nat) : (s.p F v).undo = s.undo := rfl
@[simp] theorem State.p_mg (F : Fld) (v : Nat) : (s.p F v).mg = s.mg := rfl
@[simp] theorem State.p_hold (F : Fld) (v : Nat) : (s.p F v).hold = s.hold := rfl
@[simp] theorem State.p_fuses (F : Fld) (v : Nat) : (s.p F v).fuses = s.fuses := rfl
@[simp] theorem State.p_sec (F : Fld) (v : Nat) : (s.p F v).sec = s.sec := rfl
@[simp] theorem State.p_domA (F : Fld) (v : Nat) : (s.p F v).domA = s.domA := rfl
@[simp] theorem State.p_domB (F : Fld) (v : Nat) : (s.p F v).domB = s.domB := rfl
@[simp] theorem State.p_pps (F : Fld) (v : Nat) : (s.p F v).pps = s.pps := rfl
@[simp] theorem State.p_ptpA (F : Fld) (v : Nat) : (s.p F v).ptpA = s.ptpA := rfl
@[simp] theorem State.p_ptpB (F : Fld) (v : Nat) : (s.p F v).ptpB = s.ptpB := rfl
@[simp] theorem State.p_jobs (F : Fld) (v : Nat) : (s.p F v).jobs = s.jobs := rfl
@[simp] theorem State.p_rings (F : Fld) (v : Nat) : (s.p F v).rings = s.rings := rfl
@[simp] theorem State.p_rebind (F : Fld) (v : Nat) : (s.p F v).rebind = s.rebind := rfl
@[simp] theorem State.p_fronds (F : Fld) (v : Nat) : (s.p F v).fronds = s.fronds := rfl
@[simp] theorem State.p_mems (F : Fld) (v : Nat) : (s.p F v).mems = s.mems := rfl
@[simp] theorem State.p_cross (F : Fld) (v : Nat) : (s.p F v).cross = s.cross := rfl
@[simp] theorem State.p_stalls (F : Fld) (v : Nat) : (s.p F v).stalls = s.stalls := rfl
@[simp] theorem State.p_gated (F : Fld) (v : Nat) : (s.p F v).gated = s.gated := rfl
@[simp] theorem State.p_flt (F : Fld) (v : Nat) : (s.p F v).flt = s.flt := rfl
@[simp] theorem State.p_rx (F : Fld) (v : Nat) : (s.p F v).rx = s.rx := rfl
@[simp] theorem State.p_tx (F : Fld) (v : Nat) : (s.p F v).tx = s.tx := rfl
@[simp] theorem State.p_fh (F : Fld) (v : Nat) : (s.p F v).fh = s.fh := rfl
@[simp] theorem State.p_trn (F : Fld) (v : Nat) : (s.p F v).trn = s.trn := rfl
@[simp] theorem State.p_pwr (F : Fld) (v : Nat) : (s.p F v).pwr = s.pwr := rfl
@[simp] theorem State.p_grp (F : Fld) (v : Nat) : (s.p F v).grp = s.grp := rfl
@[simp] theorem State.p_pair (F : Fld) (v : Nat) : (s.p F v).pair = s.pair := rfl
@[simp] theorem State.p_lanes (F : Fld) (v : Nat) : (s.p F v).lanes = s.lanes := rfl
@[simp] theorem State.p_rzOut (F : Fld) (v : Nat) : (s.p F v).rzOut = s.rzOut := rfl
@[simp] theorem State.p_fhOut (F : Fld) (v : Nat) : (s.p F v).fhOut = s.fhOut := rfl
@[simp] theorem State.p_mgOut (F : Fld) (v : Nat) : (s.p F v).mgOut = s.mgOut := rfl
@[simp] theorem State.p_smbAlarms (F : Fld) (v : Nat) : (s.p F v).smbAlarms = s.smbAlarms := rfl
@[simp] theorem State.p_smbAlert (F : Fld) (v : Nat) : (s.p F v).smbAlert = s.smbAlert := rfl
@[simp] theorem State.p_smbOut (F : Fld) (v : Nat) : (s.p F v).smbOut = s.smbOut := rfl
@[simp] theorem State.p_irqOut (F : Fld) (v : Nat) : (s.p F v).irqOut = s.irqOut := rfl
@[simp] theorem State.p_readOut (F : Fld) (v : Nat) : (s.p F v).readOut = s.readOut := rfl
@[simp] theorem State.p_freeCtr (F : Fld) (v : Nat) : (s.p F v).freeCtr = s.freeCtr := rfl

/-! ### addc -/

@[simp] theorem State.addc_pending (F : Fld) (n : Nat) : (s.addc F n).pending = s.pending := rfl
@[simp] theorem State.addc_mem (F : Fld) (n : Nat) : (s.addc F n).mem = s.mem := rfl
@[simp] theorem State.addc_poison (F : Fld) (n : Nat) : (s.addc F n).poison = s.poison := rfl
@[simp] theorem State.addc_flash (F : Fld) (n : Nat) : (s.addc F n).flash = s.flash := rfl
@[simp] theorem State.addc_flashSize (F : Fld) (n : Nat) : (s.addc F n).flashSize = s.flashSize := rfl
@[simp] theorem State.addc_ticks (F : Fld) (n : Nat) : (s.addc F n).ticks = s.ticks := rfl
@[simp] theorem State.addc_boot (F : Fld) (n : Nat) : (s.addc F n).boot = s.boot := rfl
@[simp] theorem State.addc_image (F : Fld) (n : Nat) : (s.addc F n).image = s.image := rfl
@[simp] theorem State.addc_openSlot (F : Fld) (n : Nat) : (s.addc F n).openSlot = s.openSlot := rfl
@[simp] theorem State.addc_adopt (F : Fld) (n : Nat) : (s.addc F n).adopt = s.adopt := rfl
@[simp] theorem State.addc_undo (F : Fld) (n : Nat) : (s.addc F n).undo = s.undo := rfl
@[simp] theorem State.addc_mg (F : Fld) (n : Nat) : (s.addc F n).mg = s.mg := rfl
@[simp] theorem State.addc_hold (F : Fld) (n : Nat) : (s.addc F n).hold = s.hold := rfl
@[simp] theorem State.addc_fuses (F : Fld) (n : Nat) : (s.addc F n).fuses = s.fuses := rfl
@[simp] theorem State.addc_sec (F : Fld) (n : Nat) : (s.addc F n).sec = s.sec := rfl
@[simp] theorem State.addc_domA (F : Fld) (n : Nat) : (s.addc F n).domA = s.domA := rfl
@[simp] theorem State.addc_domB (F : Fld) (n : Nat) : (s.addc F n).domB = s.domB := rfl
@[simp] theorem State.addc_pps (F : Fld) (n : Nat) : (s.addc F n).pps = s.pps := rfl
@[simp] theorem State.addc_ptpA (F : Fld) (n : Nat) : (s.addc F n).ptpA = s.ptpA := rfl
@[simp] theorem State.addc_ptpB (F : Fld) (n : Nat) : (s.addc F n).ptpB = s.ptpB := rfl
@[simp] theorem State.addc_jobs (F : Fld) (n : Nat) : (s.addc F n).jobs = s.jobs := rfl
@[simp] theorem State.addc_rings (F : Fld) (n : Nat) : (s.addc F n).rings = s.rings := rfl
@[simp] theorem State.addc_rebind (F : Fld) (n : Nat) : (s.addc F n).rebind = s.rebind := rfl
@[simp] theorem State.addc_fronds (F : Fld) (n : Nat) : (s.addc F n).fronds = s.fronds := rfl
@[simp] theorem State.addc_mems (F : Fld) (n : Nat) : (s.addc F n).mems = s.mems := rfl
@[simp] theorem State.addc_cross (F : Fld) (n : Nat) : (s.addc F n).cross = s.cross := rfl
@[simp] theorem State.addc_stalls (F : Fld) (n : Nat) : (s.addc F n).stalls = s.stalls := rfl
@[simp] theorem State.addc_gated (F : Fld) (n : Nat) : (s.addc F n).gated = s.gated := rfl
@[simp] theorem State.addc_flt (F : Fld) (n : Nat) : (s.addc F n).flt = s.flt := rfl
@[simp] theorem State.addc_rx (F : Fld) (n : Nat) : (s.addc F n).rx = s.rx := rfl
@[simp] theorem State.addc_tx (F : Fld) (n : Nat) : (s.addc F n).tx = s.tx := rfl
@[simp] theorem State.addc_fh (F : Fld) (n : Nat) : (s.addc F n).fh = s.fh := rfl
@[simp] theorem State.addc_trn (F : Fld) (n : Nat) : (s.addc F n).trn = s.trn := rfl
@[simp] theorem State.addc_pwr (F : Fld) (n : Nat) : (s.addc F n).pwr = s.pwr := rfl
@[simp] theorem State.addc_grp (F : Fld) (n : Nat) : (s.addc F n).grp = s.grp := rfl
@[simp] theorem State.addc_pair (F : Fld) (n : Nat) : (s.addc F n).pair = s.pair := rfl
@[simp] theorem State.addc_lanes (F : Fld) (n : Nat) : (s.addc F n).lanes = s.lanes := rfl
@[simp] theorem State.addc_rzOut (F : Fld) (n : Nat) : (s.addc F n).rzOut = s.rzOut := rfl
@[simp] theorem State.addc_fhOut (F : Fld) (n : Nat) : (s.addc F n).fhOut = s.fhOut := rfl
@[simp] theorem State.addc_mgOut (F : Fld) (n : Nat) : (s.addc F n).mgOut = s.mgOut := rfl
@[simp] theorem State.addc_smbAlarms (F : Fld) (n : Nat) : (s.addc F n).smbAlarms = s.smbAlarms := rfl
@[simp] theorem State.addc_smbAlert (F : Fld) (n : Nat) : (s.addc F n).smbAlert = s.smbAlert := rfl
@[simp] theorem State.addc_smbOut (F : Fld) (n : Nat) : (s.addc F n).smbOut = s.smbOut := rfl
@[simp] theorem State.addc_irqOut (F : Fld) (n : Nat) : (s.addc F n).irqOut = s.irqOut := rfl
@[simp] theorem State.addc_readOut (F : Fld) (n : Nat) : (s.addc F n).readOut = s.readOut := rfl
@[simp] theorem State.addc_freeCtr (F : Fld) (n : Nat) : (s.addc F n).freeCtr = s.freeCtr := rfl

/-! ### inc -/

@[simp] theorem State.inc_pending (F : Fld) : (s.inc F).pending = s.pending := rfl
@[simp] theorem State.inc_mem (F : Fld) : (s.inc F).mem = s.mem := rfl
@[simp] theorem State.inc_poison (F : Fld) : (s.inc F).poison = s.poison := rfl
@[simp] theorem State.inc_flash (F : Fld) : (s.inc F).flash = s.flash := rfl
@[simp] theorem State.inc_flashSize (F : Fld) : (s.inc F).flashSize = s.flashSize := rfl
@[simp] theorem State.inc_ticks (F : Fld) : (s.inc F).ticks = s.ticks := rfl
@[simp] theorem State.inc_boot (F : Fld) : (s.inc F).boot = s.boot := rfl
@[simp] theorem State.inc_image (F : Fld) : (s.inc F).image = s.image := rfl
@[simp] theorem State.inc_openSlot (F : Fld) : (s.inc F).openSlot = s.openSlot := rfl
@[simp] theorem State.inc_adopt (F : Fld) : (s.inc F).adopt = s.adopt := rfl
@[simp] theorem State.inc_undo (F : Fld) : (s.inc F).undo = s.undo := rfl
@[simp] theorem State.inc_mg (F : Fld) : (s.inc F).mg = s.mg := rfl
@[simp] theorem State.inc_hold (F : Fld) : (s.inc F).hold = s.hold := rfl
@[simp] theorem State.inc_fuses (F : Fld) : (s.inc F).fuses = s.fuses := rfl
@[simp] theorem State.inc_sec (F : Fld) : (s.inc F).sec = s.sec := rfl
@[simp] theorem State.inc_domA (F : Fld) : (s.inc F).domA = s.domA := rfl
@[simp] theorem State.inc_domB (F : Fld) : (s.inc F).domB = s.domB := rfl
@[simp] theorem State.inc_pps (F : Fld) : (s.inc F).pps = s.pps := rfl
@[simp] theorem State.inc_ptpA (F : Fld) : (s.inc F).ptpA = s.ptpA := rfl
@[simp] theorem State.inc_ptpB (F : Fld) : (s.inc F).ptpB = s.ptpB := rfl
@[simp] theorem State.inc_jobs (F : Fld) : (s.inc F).jobs = s.jobs := rfl
@[simp] theorem State.inc_rings (F : Fld) : (s.inc F).rings = s.rings := rfl
@[simp] theorem State.inc_rebind (F : Fld) : (s.inc F).rebind = s.rebind := rfl
@[simp] theorem State.inc_fronds (F : Fld) : (s.inc F).fronds = s.fronds := rfl
@[simp] theorem State.inc_mems (F : Fld) : (s.inc F).mems = s.mems := rfl
@[simp] theorem State.inc_cross (F : Fld) : (s.inc F).cross = s.cross := rfl
@[simp] theorem State.inc_stalls (F : Fld) : (s.inc F).stalls = s.stalls := rfl
@[simp] theorem State.inc_gated (F : Fld) : (s.inc F).gated = s.gated := rfl
@[simp] theorem State.inc_flt (F : Fld) : (s.inc F).flt = s.flt := rfl
@[simp] theorem State.inc_rx (F : Fld) : (s.inc F).rx = s.rx := rfl
@[simp] theorem State.inc_tx (F : Fld) : (s.inc F).tx = s.tx := rfl
@[simp] theorem State.inc_fh (F : Fld) : (s.inc F).fh = s.fh := rfl
@[simp] theorem State.inc_trn (F : Fld) : (s.inc F).trn = s.trn := rfl
@[simp] theorem State.inc_pwr (F : Fld) : (s.inc F).pwr = s.pwr := rfl
@[simp] theorem State.inc_grp (F : Fld) : (s.inc F).grp = s.grp := rfl
@[simp] theorem State.inc_pair (F : Fld) : (s.inc F).pair = s.pair := rfl
@[simp] theorem State.inc_lanes (F : Fld) : (s.inc F).lanes = s.lanes := rfl
@[simp] theorem State.inc_rzOut (F : Fld) : (s.inc F).rzOut = s.rzOut := rfl
@[simp] theorem State.inc_fhOut (F : Fld) : (s.inc F).fhOut = s.fhOut := rfl
@[simp] theorem State.inc_mgOut (F : Fld) : (s.inc F).mgOut = s.mgOut := rfl
@[simp] theorem State.inc_smbAlarms (F : Fld) : (s.inc F).smbAlarms = s.smbAlarms := rfl
@[simp] theorem State.inc_smbAlert (F : Fld) : (s.inc F).smbAlert = s.smbAlert := rfl
@[simp] theorem State.inc_smbOut (F : Fld) : (s.inc F).smbOut = s.smbOut := rfl
@[simp] theorem State.inc_irqOut (F : Fld) : (s.inc F).irqOut = s.irqOut := rfl
@[simp] theorem State.inc_readOut (F : Fld) : (s.inc F).readOut = s.readOut := rfl
@[simp] theorem State.inc_freeCtr (F : Fld) : (s.inc F).freeCtr = s.freeCtr := rfl

/-! ### ignore -/

@[simp] theorem State.ignore_pending : (s.ignore).pending = s.pending := rfl
@[simp] theorem State.ignore_mem : (s.ignore).mem = s.mem := rfl
@[simp] theorem State.ignore_poison : (s.ignore).poison = s.poison := rfl
@[simp] theorem State.ignore_flash : (s.ignore).flash = s.flash := rfl
@[simp] theorem State.ignore_flashSize : (s.ignore).flashSize = s.flashSize := rfl
@[simp] theorem State.ignore_ticks : (s.ignore).ticks = s.ticks := rfl
@[simp] theorem State.ignore_boot : (s.ignore).boot = s.boot := rfl
@[simp] theorem State.ignore_image : (s.ignore).image = s.image := rfl
@[simp] theorem State.ignore_openSlot : (s.ignore).openSlot = s.openSlot := rfl
@[simp] theorem State.ignore_adopt : (s.ignore).adopt = s.adopt := rfl
@[simp] theorem State.ignore_undo : (s.ignore).undo = s.undo := rfl
@[simp] theorem State.ignore_mg : (s.ignore).mg = s.mg := rfl
@[simp] theorem State.ignore_hold : (s.ignore).hold = s.hold := rfl
@[simp] theorem State.ignore_fuses : (s.ignore).fuses = s.fuses := rfl
@[simp] theorem State.ignore_sec : (s.ignore).sec = s.sec := rfl
@[simp] theorem State.ignore_domA : (s.ignore).domA = s.domA := rfl
@[simp] theorem State.ignore_domB : (s.ignore).domB = s.domB := rfl
@[simp] theorem State.ignore_pps : (s.ignore).pps = s.pps := rfl
@[simp] theorem State.ignore_ptpA : (s.ignore).ptpA = s.ptpA := rfl
@[simp] theorem State.ignore_ptpB : (s.ignore).ptpB = s.ptpB := rfl
@[simp] theorem State.ignore_jobs : (s.ignore).jobs = s.jobs := rfl
@[simp] theorem State.ignore_rings : (s.ignore).rings = s.rings := rfl
@[simp] theorem State.ignore_rebind : (s.ignore).rebind = s.rebind := rfl
@[simp] theorem State.ignore_fronds : (s.ignore).fronds = s.fronds := rfl
@[simp] theorem State.ignore_mems : (s.ignore).mems = s.mems := rfl
@[simp] theorem State.ignore_cross : (s.ignore).cross = s.cross := rfl
@[simp] theorem State.ignore_stalls : (s.ignore).stalls = s.stalls := rfl
@[simp] theorem State.ignore_gated : (s.ignore).gated = s.gated := rfl
@[simp] theorem State.ignore_flt : (s.ignore).flt = s.flt := rfl
@[simp] theorem State.ignore_rx : (s.ignore).rx = s.rx := rfl
@[simp] theorem State.ignore_tx : (s.ignore).tx = s.tx := rfl
@[simp] theorem State.ignore_fh : (s.ignore).fh = s.fh := rfl
@[simp] theorem State.ignore_trn : (s.ignore).trn = s.trn := rfl
@[simp] theorem State.ignore_pwr : (s.ignore).pwr = s.pwr := rfl
@[simp] theorem State.ignore_grp : (s.ignore).grp = s.grp := rfl
@[simp] theorem State.ignore_pair : (s.ignore).pair = s.pair := rfl
@[simp] theorem State.ignore_lanes : (s.ignore).lanes = s.lanes := rfl
@[simp] theorem State.ignore_rzOut : (s.ignore).rzOut = s.rzOut := rfl
@[simp] theorem State.ignore_fhOut : (s.ignore).fhOut = s.fhOut := rfl
@[simp] theorem State.ignore_mgOut : (s.ignore).mgOut = s.mgOut := rfl
@[simp] theorem State.ignore_smbAlarms : (s.ignore).smbAlarms = s.smbAlarms := rfl
@[simp] theorem State.ignore_smbAlert : (s.ignore).smbAlert = s.smbAlert := rfl
@[simp] theorem State.ignore_smbOut : (s.ignore).smbOut = s.smbOut := rfl
@[simp] theorem State.ignore_irqOut : (s.ignore).irqOut = s.irqOut := rfl
@[simp] theorem State.ignore_readOut : (s.ignore).readOut = s.readOut := rfl
@[simp] theorem State.ignore_freeCtr : (s.ignore).freeCtr = s.freeCtr := rfl

/-! ### resetRegs -/

@[simp] theorem State.resetRegs_pending (r : Src) (q : Nat → Bool) : (s.resetRegs r q).pending = s.pending := rfl
@[simp] theorem State.resetRegs_mem (r : Src) (q : Nat → Bool) : (s.resetRegs r q).mem = s.mem := rfl
@[simp] theorem State.resetRegs_poison (r : Src) (q : Nat → Bool) : (s.resetRegs r q).poison = s.poison := rfl
@[simp] theorem State.resetRegs_flash (r : Src) (q : Nat → Bool) : (s.resetRegs r q).flash = s.flash := rfl
@[simp] theorem State.resetRegs_flashSize (r : Src) (q : Nat → Bool) : (s.resetRegs r q).flashSize = s.flashSize := rfl
@[simp] theorem State.resetRegs_ticks (r : Src) (q : Nat → Bool) : (s.resetRegs r q).ticks = s.ticks := rfl
@[simp] theorem State.resetRegs_boot (r : Src) (q : Nat → Bool) : (s.resetRegs r q).boot = s.boot := rfl
@[simp] theorem State.resetRegs_image (r : Src) (q : Nat → Bool) : (s.resetRegs r q).image = s.image := rfl
@[simp] theorem State.resetRegs_openSlot (r : Src) (q : Nat → Bool) : (s.resetRegs r q).openSlot = s.openSlot := rfl
@[simp] theorem State.resetRegs_adopt (r : Src) (q : Nat → Bool) : (s.resetRegs r q).adopt = s.adopt := rfl
@[simp] theorem State.resetRegs_undo (r : Src) (q : Nat → Bool) : (s.resetRegs r q).undo = s.undo := rfl
@[simp] theorem State.resetRegs_mg (r : Src) (q : Nat → Bool) : (s.resetRegs r q).mg = s.mg := rfl
@[simp] theorem State.resetRegs_hold (r : Src) (q : Nat → Bool) : (s.resetRegs r q).hold = s.hold := rfl
@[simp] theorem State.resetRegs_fuses (r : Src) (q : Nat → Bool) : (s.resetRegs r q).fuses = s.fuses := rfl
@[simp] theorem State.resetRegs_sec (r : Src) (q : Nat → Bool) : (s.resetRegs r q).sec = s.sec := rfl
@[simp] theorem State.resetRegs_domA (r : Src) (q : Nat → Bool) : (s.resetRegs r q).domA = s.domA := rfl
@[simp] theorem State.resetRegs_domB (r : Src) (q : Nat → Bool) : (s.resetRegs r q).domB = s.domB := rfl
@[simp] theorem State.resetRegs_pps (r : Src) (q : Nat → Bool) : (s.resetRegs r q).pps = s.pps := rfl
@[simp] theorem State.resetRegs_ptpA (r : Src) (q : Nat → Bool) : (s.resetRegs r q).ptpA = s.ptpA := rfl
@[simp] theorem State.resetRegs_ptpB (r : Src) (q : Nat → Bool) : (s.resetRegs r q).ptpB = s.ptpB := rfl
@[simp] theorem State.resetRegs_jobs (r : Src) (q : Nat → Bool) : (s.resetRegs r q).jobs = s.jobs := rfl
@[simp] theorem State.resetRegs_rings (r : Src) (q : Nat → Bool) : (s.resetRegs r q).rings = s.rings := rfl
@[simp] theorem State.resetRegs_rebind (r : Src) (q : Nat → Bool) : (s.resetRegs r q).rebind = s.rebind := rfl
@[simp] theorem State.resetRegs_fronds (r : Src) (q : Nat → Bool) : (s.resetRegs r q).fronds = s.fronds := rfl
@[simp] theorem State.resetRegs_mems (r : Src) (q : Nat → Bool) : (s.resetRegs r q).mems = s.mems := rfl
@[simp] theorem State.resetRegs_cross (r : Src) (q : Nat → Bool) : (s.resetRegs r q).cross = s.cross := rfl
@[simp] theorem State.resetRegs_stalls (r : Src) (q : Nat → Bool) : (s.resetRegs r q).stalls = s.stalls := rfl
@[simp] theorem State.resetRegs_gated (r : Src) (q : Nat → Bool) : (s.resetRegs r q).gated = s.gated := rfl
@[simp] theorem State.resetRegs_flt (r : Src) (q : Nat → Bool) : (s.resetRegs r q).flt = s.flt := rfl
@[simp] theorem State.resetRegs_rx (r : Src) (q : Nat → Bool) : (s.resetRegs r q).rx = s.rx := rfl
@[simp] theorem State.resetRegs_tx (r : Src) (q : Nat → Bool) : (s.resetRegs r q).tx = s.tx := rfl
@[simp] theorem State.resetRegs_fh (r : Src) (q : Nat → Bool) : (s.resetRegs r q).fh = s.fh := rfl
@[simp] theorem State.resetRegs_trn (r : Src) (q : Nat → Bool) : (s.resetRegs r q).trn = s.trn := rfl
@[simp] theorem State.resetRegs_pwr (r : Src) (q : Nat → Bool) : (s.resetRegs r q).pwr = s.pwr := rfl
@[simp] theorem State.resetRegs_grp (r : Src) (q : Nat → Bool) : (s.resetRegs r q).grp = s.grp := rfl
@[simp] theorem State.resetRegs_pair (r : Src) (q : Nat → Bool) : (s.resetRegs r q).pair = s.pair := rfl
@[simp] theorem State.resetRegs_lanes (r : Src) (q : Nat → Bool) : (s.resetRegs r q).lanes = s.lanes := rfl
@[simp] theorem State.resetRegs_rzOut (r : Src) (q : Nat → Bool) : (s.resetRegs r q).rzOut = s.rzOut := rfl
@[simp] theorem State.resetRegs_fhOut (r : Src) (q : Nat → Bool) : (s.resetRegs r q).fhOut = s.fhOut := rfl
@[simp] theorem State.resetRegs_mgOut (r : Src) (q : Nat → Bool) : (s.resetRegs r q).mgOut = s.mgOut := rfl
@[simp] theorem State.resetRegs_smbAlarms (r : Src) (q : Nat → Bool) : (s.resetRegs r q).smbAlarms = s.smbAlarms := rfl
@[simp] theorem State.resetRegs_smbAlert (r : Src) (q : Nat → Bool) : (s.resetRegs r q).smbAlert = s.smbAlert := rfl
@[simp] theorem State.resetRegs_smbOut (r : Src) (q : Nat → Bool) : (s.resetRegs r q).smbOut = s.smbOut := rfl
@[simp] theorem State.resetRegs_irqOut (r : Src) (q : Nat → Bool) : (s.resetRegs r q).irqOut = s.irqOut := rfl
@[simp] theorem State.resetRegs_readOut (r : Src) (q : Nat → Bool) : (s.resetRegs r q).readOut = s.readOut := rfl
@[simp] theorem State.resetRegs_freeCtr (r : Src) (q : Nat → Bool) : (s.resetRegs r q).freeCtr = s.freeCtr := rfl

/-! ### setFr -/

@[simp] theorem State.setFr_pending (f : Fin 6) (x : Frond) : (s.setFr f x).pending = s.pending := rfl
@[simp] theorem State.setFr_regs (f : Fin 6) (x : Frond) : (s.setFr f x).regs = s.regs := rfl
@[simp] theorem State.setFr_mem (f : Fin 6) (x : Frond) : (s.setFr f x).mem = s.mem := rfl
@[simp] theorem State.setFr_poison (f : Fin 6) (x : Frond) : (s.setFr f x).poison = s.poison := rfl
@[simp] theorem State.setFr_flash (f : Fin 6) (x : Frond) : (s.setFr f x).flash = s.flash := rfl
@[simp] theorem State.setFr_flashSize (f : Fin 6) (x : Frond) : (s.setFr f x).flashSize = s.flashSize := rfl
@[simp] theorem State.setFr_ticks (f : Fin 6) (x : Frond) : (s.setFr f x).ticks = s.ticks := rfl
@[simp] theorem State.setFr_boot (f : Fin 6) (x : Frond) : (s.setFr f x).boot = s.boot := rfl
@[simp] theorem State.setFr_image (f : Fin 6) (x : Frond) : (s.setFr f x).image = s.image := rfl
@[simp] theorem State.setFr_openSlot (f : Fin 6) (x : Frond) : (s.setFr f x).openSlot = s.openSlot := rfl
@[simp] theorem State.setFr_adopt (f : Fin 6) (x : Frond) : (s.setFr f x).adopt = s.adopt := rfl
@[simp] theorem State.setFr_undo (f : Fin 6) (x : Frond) : (s.setFr f x).undo = s.undo := rfl
@[simp] theorem State.setFr_mg (f : Fin 6) (x : Frond) : (s.setFr f x).mg = s.mg := rfl
@[simp] theorem State.setFr_hold (f : Fin 6) (x : Frond) : (s.setFr f x).hold = s.hold := rfl
@[simp] theorem State.setFr_fuses (f : Fin 6) (x : Frond) : (s.setFr f x).fuses = s.fuses := rfl
@[simp] theorem State.setFr_sec (f : Fin 6) (x : Frond) : (s.setFr f x).sec = s.sec := rfl
@[simp] theorem State.setFr_domA (f : Fin 6) (x : Frond) : (s.setFr f x).domA = s.domA := rfl
@[simp] theorem State.setFr_domB (f : Fin 6) (x : Frond) : (s.setFr f x).domB = s.domB := rfl
@[simp] theorem State.setFr_pps (f : Fin 6) (x : Frond) : (s.setFr f x).pps = s.pps := rfl
@[simp] theorem State.setFr_ptpA (f : Fin 6) (x : Frond) : (s.setFr f x).ptpA = s.ptpA := rfl
@[simp] theorem State.setFr_ptpB (f : Fin 6) (x : Frond) : (s.setFr f x).ptpB = s.ptpB := rfl
@[simp] theorem State.setFr_jobs (f : Fin 6) (x : Frond) : (s.setFr f x).jobs = s.jobs := rfl
@[simp] theorem State.setFr_rings (f : Fin 6) (x : Frond) : (s.setFr f x).rings = s.rings := rfl
@[simp] theorem State.setFr_rebind (f : Fin 6) (x : Frond) : (s.setFr f x).rebind = s.rebind := rfl
@[simp] theorem State.setFr_mems (f : Fin 6) (x : Frond) : (s.setFr f x).mems = s.mems := rfl
@[simp] theorem State.setFr_cross (f : Fin 6) (x : Frond) : (s.setFr f x).cross = s.cross := rfl
@[simp] theorem State.setFr_stalls (f : Fin 6) (x : Frond) : (s.setFr f x).stalls = s.stalls := rfl
@[simp] theorem State.setFr_gated (f : Fin 6) (x : Frond) : (s.setFr f x).gated = s.gated := rfl
@[simp] theorem State.setFr_flt (f : Fin 6) (x : Frond) : (s.setFr f x).flt = s.flt := rfl
@[simp] theorem State.setFr_rx (f : Fin 6) (x : Frond) : (s.setFr f x).rx = s.rx := rfl
@[simp] theorem State.setFr_tx (f : Fin 6) (x : Frond) : (s.setFr f x).tx = s.tx := rfl
@[simp] theorem State.setFr_fh (f : Fin 6) (x : Frond) : (s.setFr f x).fh = s.fh := rfl
@[simp] theorem State.setFr_trn (f : Fin 6) (x : Frond) : (s.setFr f x).trn = s.trn := rfl
@[simp] theorem State.setFr_pwr (f : Fin 6) (x : Frond) : (s.setFr f x).pwr = s.pwr := rfl
@[simp] theorem State.setFr_grp (f : Fin 6) (x : Frond) : (s.setFr f x).grp = s.grp := rfl
@[simp] theorem State.setFr_pair (f : Fin 6) (x : Frond) : (s.setFr f x).pair = s.pair := rfl
@[simp] theorem State.setFr_lanes (f : Fin 6) (x : Frond) : (s.setFr f x).lanes = s.lanes := rfl
@[simp] theorem State.setFr_rzOut (f : Fin 6) (x : Frond) : (s.setFr f x).rzOut = s.rzOut := rfl
@[simp] theorem State.setFr_fhOut (f : Fin 6) (x : Frond) : (s.setFr f x).fhOut = s.fhOut := rfl
@[simp] theorem State.setFr_mgOut (f : Fin 6) (x : Frond) : (s.setFr f x).mgOut = s.mgOut := rfl
@[simp] theorem State.setFr_smbAlarms (f : Fin 6) (x : Frond) : (s.setFr f x).smbAlarms = s.smbAlarms := rfl
@[simp] theorem State.setFr_smbAlert (f : Fin 6) (x : Frond) : (s.setFr f x).smbAlert = s.smbAlert := rfl
@[simp] theorem State.setFr_smbOut (f : Fin 6) (x : Frond) : (s.setFr f x).smbOut = s.smbOut := rfl
@[simp] theorem State.setFr_irqOut (f : Fin 6) (x : Frond) : (s.setFr f x).irqOut = s.irqOut := rfl
@[simp] theorem State.setFr_readOut (f : Fin 6) (x : Frond) : (s.setFr f x).readOut = s.readOut := rfl
@[simp] theorem State.setFr_freeCtr (f : Fin 6) (x : Frond) : (s.setFr f x).freeCtr = s.freeCtr := rfl

/-! ### modFr -/

@[simp] theorem State.modFr_pending (f : Fin 6) (g : Frond → Frond) : (s.modFr f g).pending = s.pending := rfl
@[simp] theorem State.modFr_regs (f : Fin 6) (g : Frond → Frond) : (s.modFr f g).regs = s.regs := rfl
@[simp] theorem State.modFr_mem (f : Fin 6) (g : Frond → Frond) : (s.modFr f g).mem = s.mem := rfl
@[simp] theorem State.modFr_poison (f : Fin 6) (g : Frond → Frond) : (s.modFr f g).poison = s.poison := rfl
@[simp] theorem State.modFr_flash (f : Fin 6) (g : Frond → Frond) : (s.modFr f g).flash = s.flash := rfl
@[simp] theorem State.modFr_flashSize (f : Fin 6) (g : Frond → Frond) : (s.modFr f g).flashSize = s.flashSize := rfl
@[simp] theorem State.modFr_ticks (f : Fin 6) (g : Frond → Frond) : (s.modFr f g).ticks = s.ticks := rfl
@[simp] theorem State.modFr_boot (f : Fin 6) (g : Frond → Frond) : (s.modFr f g).boot = s.boot := rfl
@[simp] theorem State.modFr_image (f : Fin 6) (g : Frond → Frond) : (s.modFr f g).image = s.image := rfl
@[simp] theorem State.modFr_openSlot (f : Fin 6) (g : Frond → Frond) : (s.modFr f g).openSlot = s.openSlot := rfl
@[simp] theorem State.modFr_adopt (f : Fin 6) (g : Frond → Frond) : (s.modFr f g).adopt = s.adopt := rfl
@[simp] theorem State.modFr_undo (f : Fin 6) (g : Frond → Frond) : (s.modFr f g).undo = s.undo := rfl
@[simp] theorem State.modFr_mg (f : Fin 6) (g : Frond → Frond) : (s.modFr f g).mg = s.mg := rfl
@[simp] theorem State.modFr_hold (f : Fin 6) (g : Frond → Frond) : (s.modFr f g).hold = s.hold := rfl
@[simp] theorem State.modFr_fuses (f : Fin 6) (g : Frond → Frond) : (s.modFr f g).fuses = s.fuses := rfl
@[simp] theorem State.modFr_sec (f : Fin 6) (g : Frond → Frond) : (s.modFr f g).sec = s.sec := rfl
@[simp] theorem State.modFr_domA (f : Fin 6) (g : Frond → Frond) : (s.modFr f g).domA = s.domA := rfl
@[simp] theorem State.modFr_domB (f : Fin 6) (g : Frond → Frond) : (s.modFr f g).domB = s.domB := rfl
@[simp] theorem State.modFr_pps (f : Fin 6) (g : Frond → Frond) : (s.modFr f g).pps = s.pps := rfl
@[simp] theorem State.modFr_ptpA (f : Fin 6) (g : Frond → Frond) : (s.modFr f g).ptpA = s.ptpA := rfl
@[simp] theorem State.modFr_ptpB (f : Fin 6) (g : Frond → Frond) : (s.modFr f g).ptpB = s.ptpB := rfl
@[simp] theorem State.modFr_jobs (f : Fin 6) (g : Frond → Frond) : (s.modFr f g).jobs = s.jobs := rfl
@[simp] theorem State.modFr_rings (f : Fin 6) (g : Frond → Frond) : (s.modFr f g).rings = s.rings := rfl
@[simp] theorem State.modFr_rebind (f : Fin 6) (g : Frond → Frond) : (s.modFr f g).rebind = s.rebind := rfl
@[simp] theorem State.modFr_mems (f : Fin 6) (g : Frond → Frond) : (s.modFr f g).mems = s.mems := rfl
@[simp] theorem State.modFr_cross (f : Fin 6) (g : Frond → Frond) : (s.modFr f g).cross = s.cross := rfl
@[simp] theorem State.modFr_stalls (f : Fin 6) (g : Frond → Frond) : (s.modFr f g).stalls = s.stalls := rfl
@[simp] theorem State.modFr_gated (f : Fin 6) (g : Frond → Frond) : (s.modFr f g).gated = s.gated := rfl
@[simp] theorem State.modFr_flt (f : Fin 6) (g : Frond → Frond) : (s.modFr f g).flt = s.flt := rfl
@[simp] theorem State.modFr_rx (f : Fin 6) (g : Frond → Frond) : (s.modFr f g).rx = s.rx := rfl
@[simp] theorem State.modFr_tx (f : Fin 6) (g : Frond → Frond) : (s.modFr f g).tx = s.tx := rfl
@[simp] theorem State.modFr_fh (f : Fin 6) (g : Frond → Frond) : (s.modFr f g).fh = s.fh := rfl
@[simp] theorem State.modFr_trn (f : Fin 6) (g : Frond → Frond) : (s.modFr f g).trn = s.trn := rfl
@[simp] theorem State.modFr_pwr (f : Fin 6) (g : Frond → Frond) : (s.modFr f g).pwr = s.pwr := rfl
@[simp] theorem State.modFr_grp (f : Fin 6) (g : Frond → Frond) : (s.modFr f g).grp = s.grp := rfl
@[simp] theorem State.modFr_pair (f : Fin 6) (g : Frond → Frond) : (s.modFr f g).pair = s.pair := rfl
@[simp] theorem State.modFr_lanes (f : Fin 6) (g : Frond → Frond) : (s.modFr f g).lanes = s.lanes := rfl
@[simp] theorem State.modFr_rzOut (f : Fin 6) (g : Frond → Frond) : (s.modFr f g).rzOut = s.rzOut := rfl
@[simp] theorem State.modFr_fhOut (f : Fin 6) (g : Frond → Frond) : (s.modFr f g).fhOut = s.fhOut := rfl
@[simp] theorem State.modFr_mgOut (f : Fin 6) (g : Frond → Frond) : (s.modFr f g).mgOut = s.mgOut := rfl
@[simp] theorem State.modFr_smbAlarms (f : Fin 6) (g : Frond → Frond) : (s.modFr f g).smbAlarms = s.smbAlarms := rfl
@[simp] theorem State.modFr_smbAlert (f : Fin 6) (g : Frond → Frond) : (s.modFr f g).smbAlert = s.smbAlert := rfl
@[simp] theorem State.modFr_smbOut (f : Fin 6) (g : Frond → Frond) : (s.modFr f g).smbOut = s.smbOut := rfl
@[simp] theorem State.modFr_irqOut (f : Fin 6) (g : Frond → Frond) : (s.modFr f g).irqOut = s.irqOut := rfl
@[simp] theorem State.modFr_readOut (f : Fin 6) (g : Frond → Frond) : (s.modFr f g).readOut = s.readOut := rfl
@[simp] theorem State.modFr_freeCtr (f : Fin 6) (g : Frond → Frond) : (s.modFr f g).freeCtr = s.freeCtr := rfl

/-! ### st -/

@[simp] theorem State.st_pending (a : Nat) (bs : List Sys2Proof.Byte) : (s.st a bs).pending = s.pending := rfl
@[simp] theorem State.st_regs (a : Nat) (bs : List Sys2Proof.Byte) : (s.st a bs).regs = s.regs := rfl
@[simp] theorem State.st_flash (a : Nat) (bs : List Sys2Proof.Byte) : (s.st a bs).flash = s.flash := rfl
@[simp] theorem State.st_flashSize (a : Nat) (bs : List Sys2Proof.Byte) : (s.st a bs).flashSize = s.flashSize := rfl
@[simp] theorem State.st_ticks (a : Nat) (bs : List Sys2Proof.Byte) : (s.st a bs).ticks = s.ticks := rfl
@[simp] theorem State.st_boot (a : Nat) (bs : List Sys2Proof.Byte) : (s.st a bs).boot = s.boot := rfl
@[simp] theorem State.st_image (a : Nat) (bs : List Sys2Proof.Byte) : (s.st a bs).image = s.image := rfl
@[simp] theorem State.st_openSlot (a : Nat) (bs : List Sys2Proof.Byte) : (s.st a bs).openSlot = s.openSlot := rfl
@[simp] theorem State.st_adopt (a : Nat) (bs : List Sys2Proof.Byte) : (s.st a bs).adopt = s.adopt := rfl
@[simp] theorem State.st_undo (a : Nat) (bs : List Sys2Proof.Byte) : (s.st a bs).undo = s.undo := rfl
@[simp] theorem State.st_mg (a : Nat) (bs : List Sys2Proof.Byte) : (s.st a bs).mg = s.mg := rfl
@[simp] theorem State.st_hold (a : Nat) (bs : List Sys2Proof.Byte) : (s.st a bs).hold = s.hold := rfl
@[simp] theorem State.st_fuses (a : Nat) (bs : List Sys2Proof.Byte) : (s.st a bs).fuses = s.fuses := rfl
@[simp] theorem State.st_sec (a : Nat) (bs : List Sys2Proof.Byte) : (s.st a bs).sec = s.sec := rfl
@[simp] theorem State.st_domA (a : Nat) (bs : List Sys2Proof.Byte) : (s.st a bs).domA = s.domA := rfl
@[simp] theorem State.st_domB (a : Nat) (bs : List Sys2Proof.Byte) : (s.st a bs).domB = s.domB := rfl
@[simp] theorem State.st_pps (a : Nat) (bs : List Sys2Proof.Byte) : (s.st a bs).pps = s.pps := rfl
@[simp] theorem State.st_ptpA (a : Nat) (bs : List Sys2Proof.Byte) : (s.st a bs).ptpA = s.ptpA := rfl
@[simp] theorem State.st_ptpB (a : Nat) (bs : List Sys2Proof.Byte) : (s.st a bs).ptpB = s.ptpB := rfl
@[simp] theorem State.st_jobs (a : Nat) (bs : List Sys2Proof.Byte) : (s.st a bs).jobs = s.jobs := rfl
@[simp] theorem State.st_rings (a : Nat) (bs : List Sys2Proof.Byte) : (s.st a bs).rings = s.rings := rfl
@[simp] theorem State.st_rebind (a : Nat) (bs : List Sys2Proof.Byte) : (s.st a bs).rebind = s.rebind := rfl
@[simp] theorem State.st_fronds (a : Nat) (bs : List Sys2Proof.Byte) : (s.st a bs).fronds = s.fronds := rfl
@[simp] theorem State.st_cross (a : Nat) (bs : List Sys2Proof.Byte) : (s.st a bs).cross = s.cross := rfl
@[simp] theorem State.st_stalls (a : Nat) (bs : List Sys2Proof.Byte) : (s.st a bs).stalls = s.stalls := rfl
@[simp] theorem State.st_gated (a : Nat) (bs : List Sys2Proof.Byte) : (s.st a bs).gated = s.gated := rfl
@[simp] theorem State.st_flt (a : Nat) (bs : List Sys2Proof.Byte) : (s.st a bs).flt = s.flt := rfl
@[simp] theorem State.st_rx (a : Nat) (bs : List Sys2Proof.Byte) : (s.st a bs).rx = s.rx := rfl
@[simp] theorem State.st_tx (a : Nat) (bs : List Sys2Proof.Byte) : (s.st a bs).tx = s.tx := rfl
@[simp] theorem State.st_fh (a : Nat) (bs : List Sys2Proof.Byte) : (s.st a bs).fh = s.fh := rfl
@[simp] theorem State.st_trn (a : Nat) (bs : List Sys2Proof.Byte) : (s.st a bs).trn = s.trn := rfl
@[simp] theorem State.st_pwr (a : Nat) (bs : List Sys2Proof.Byte) : (s.st a bs).pwr = s.pwr := rfl
@[simp] theorem State.st_grp (a : Nat) (bs : List Sys2Proof.Byte) : (s.st a bs).grp = s.grp := rfl
@[simp] theorem State.st_pair (a : Nat) (bs : List Sys2Proof.Byte) : (s.st a bs).pair = s.pair := rfl
@[simp] theorem State.st_lanes (a : Nat) (bs : List Sys2Proof.Byte) : (s.st a bs).lanes = s.lanes := rfl
@[simp] theorem State.st_rzOut (a : Nat) (bs : List Sys2Proof.Byte) : (s.st a bs).rzOut = s.rzOut := rfl
@[simp] theorem State.st_fhOut (a : Nat) (bs : List Sys2Proof.Byte) : (s.st a bs).fhOut = s.fhOut := rfl
@[simp] theorem State.st_mgOut (a : Nat) (bs : List Sys2Proof.Byte) : (s.st a bs).mgOut = s.mgOut := rfl
@[simp] theorem State.st_smbAlarms (a : Nat) (bs : List Sys2Proof.Byte) : (s.st a bs).smbAlarms = s.smbAlarms := rfl
@[simp] theorem State.st_smbAlert (a : Nat) (bs : List Sys2Proof.Byte) : (s.st a bs).smbAlert = s.smbAlert := rfl
@[simp] theorem State.st_smbOut (a : Nat) (bs : List Sys2Proof.Byte) : (s.st a bs).smbOut = s.smbOut := rfl
@[simp] theorem State.st_irqOut (a : Nat) (bs : List Sys2Proof.Byte) : (s.st a bs).irqOut = s.irqOut := rfl
@[simp] theorem State.st_readOut (a : Nat) (bs : List Sys2Proof.Byte) : (s.st a bs).readOut = s.readOut := rfl
@[simp] theorem State.st_freeCtr (a : Nat) (bs : List Sys2Proof.Byte) : (s.st a bs).freeCtr = s.freeCtr := rfl

/-! ### zeroFill -/

@[simp] theorem State.zeroFill_pending (a n : Nat) : (s.zeroFill a n).pending = s.pending := rfl
@[simp] theorem State.zeroFill_regs (a n : Nat) : (s.zeroFill a n).regs = s.regs := rfl
@[simp] theorem State.zeroFill_flash (a n : Nat) : (s.zeroFill a n).flash = s.flash := rfl
@[simp] theorem State.zeroFill_flashSize (a n : Nat) : (s.zeroFill a n).flashSize = s.flashSize := rfl
@[simp] theorem State.zeroFill_ticks (a n : Nat) : (s.zeroFill a n).ticks = s.ticks := rfl
@[simp] theorem State.zeroFill_boot (a n : Nat) : (s.zeroFill a n).boot = s.boot := rfl
@[simp] theorem State.zeroFill_image (a n : Nat) : (s.zeroFill a n).image = s.image := rfl
@[simp] theorem State.zeroFill_openSlot (a n : Nat) : (s.zeroFill a n).openSlot = s.openSlot := rfl
@[simp] theorem State.zeroFill_adopt (a n : Nat) : (s.zeroFill a n).adopt = s.adopt := rfl
@[simp] theorem State.zeroFill_undo (a n : Nat) : (s.zeroFill a n).undo = s.undo := rfl
@[simp] theorem State.zeroFill_mg (a n : Nat) : (s.zeroFill a n).mg = s.mg := rfl
@[simp] theorem State.zeroFill_hold (a n : Nat) : (s.zeroFill a n).hold = s.hold := rfl
@[simp] theorem State.zeroFill_fuses (a n : Nat) : (s.zeroFill a n).fuses = s.fuses := rfl
@[simp] theorem State.zeroFill_sec (a n : Nat) : (s.zeroFill a n).sec = s.sec := rfl
@[simp] theorem State.zeroFill_domA (a n : Nat) : (s.zeroFill a n).domA = s.domA := rfl
@[simp] theorem State.zeroFill_domB (a n : Nat) : (s.zeroFill a n).domB = s.domB := rfl
@[simp] theorem State.zeroFill_pps (a n : Nat) : (s.zeroFill a n).pps = s.pps := rfl
@[simp] theorem State.zeroFill_ptpA (a n : Nat) : (s.zeroFill a n).ptpA = s.ptpA := rfl
@[simp] theorem State.zeroFill_ptpB (a n : Nat) : (s.zeroFill a n).ptpB = s.ptpB := rfl
@[simp] theorem State.zeroFill_jobs (a n : Nat) : (s.zeroFill a n).jobs = s.jobs := rfl
@[simp] theorem State.zeroFill_rings (a n : Nat) : (s.zeroFill a n).rings = s.rings := rfl
@[simp] theorem State.zeroFill_rebind (a n : Nat) : (s.zeroFill a n).rebind = s.rebind := rfl
@[simp] theorem State.zeroFill_fronds (a n : Nat) : (s.zeroFill a n).fronds = s.fronds := rfl
@[simp] theorem State.zeroFill_cross (a n : Nat) : (s.zeroFill a n).cross = s.cross := rfl
@[simp] theorem State.zeroFill_stalls (a n : Nat) : (s.zeroFill a n).stalls = s.stalls := rfl
@[simp] theorem State.zeroFill_gated (a n : Nat) : (s.zeroFill a n).gated = s.gated := rfl
@[simp] theorem State.zeroFill_flt (a n : Nat) : (s.zeroFill a n).flt = s.flt := rfl
@[simp] theorem State.zeroFill_rx (a n : Nat) : (s.zeroFill a n).rx = s.rx := rfl
@[simp] theorem State.zeroFill_tx (a n : Nat) : (s.zeroFill a n).tx = s.tx := rfl
@[simp] theorem State.zeroFill_fh (a n : Nat) : (s.zeroFill a n).fh = s.fh := rfl
@[simp] theorem State.zeroFill_trn (a n : Nat) : (s.zeroFill a n).trn = s.trn := rfl
@[simp] theorem State.zeroFill_pwr (a n : Nat) : (s.zeroFill a n).pwr = s.pwr := rfl
@[simp] theorem State.zeroFill_grp (a n : Nat) : (s.zeroFill a n).grp = s.grp := rfl
@[simp] theorem State.zeroFill_pair (a n : Nat) : (s.zeroFill a n).pair = s.pair := rfl
@[simp] theorem State.zeroFill_lanes (a n : Nat) : (s.zeroFill a n).lanes = s.lanes := rfl
@[simp] theorem State.zeroFill_rzOut (a n : Nat) : (s.zeroFill a n).rzOut = s.rzOut := rfl
@[simp] theorem State.zeroFill_fhOut (a n : Nat) : (s.zeroFill a n).fhOut = s.fhOut := rfl
@[simp] theorem State.zeroFill_mgOut (a n : Nat) : (s.zeroFill a n).mgOut = s.mgOut := rfl
@[simp] theorem State.zeroFill_smbAlarms (a n : Nat) : (s.zeroFill a n).smbAlarms = s.smbAlarms := rfl
@[simp] theorem State.zeroFill_smbAlert (a n : Nat) : (s.zeroFill a n).smbAlert = s.smbAlert := rfl
@[simp] theorem State.zeroFill_smbOut (a n : Nat) : (s.zeroFill a n).smbOut = s.smbOut := rfl
@[simp] theorem State.zeroFill_irqOut (a n : Nat) : (s.zeroFill a n).irqOut = s.irqOut := rfl
@[simp] theorem State.zeroFill_readOut (a n : Nat) : (s.zeroFill a n).readOut = s.readOut := rfl
@[simp] theorem State.zeroFill_freeCtr (a n : Nat) : (s.zeroFill a n).freeCtr = s.freeCtr := rfl

/-! ### setBank -/

@[simp] theorem State.setBank_pending (b c : Nat) : (s.setBank b c).pending = s.pending := rfl
@[simp] theorem State.setBank_regs (b c : Nat) : (s.setBank b c).regs = s.regs := rfl
@[simp] theorem State.setBank_mem (b c : Nat) : (s.setBank b c).mem = s.mem := rfl
@[simp] theorem State.setBank_poison (b c : Nat) : (s.setBank b c).poison = s.poison := rfl
@[simp] theorem State.setBank_flash (b c : Nat) : (s.setBank b c).flash = s.flash := rfl
@[simp] theorem State.setBank_flashSize (b c : Nat) : (s.setBank b c).flashSize = s.flashSize := rfl
@[simp] theorem State.setBank_ticks (b c : Nat) : (s.setBank b c).ticks = s.ticks := rfl
@[simp] theorem State.setBank_boot (b c : Nat) : (s.setBank b c).boot = s.boot := rfl
@[simp] theorem State.setBank_image (b c : Nat) : (s.setBank b c).image = s.image := rfl
@[simp] theorem State.setBank_openSlot (b c : Nat) : (s.setBank b c).openSlot = s.openSlot := rfl
@[simp] theorem State.setBank_adopt (b c : Nat) : (s.setBank b c).adopt = s.adopt := rfl
@[simp] theorem State.setBank_undo (b c : Nat) : (s.setBank b c).undo = s.undo := rfl
@[simp] theorem State.setBank_mg (b c : Nat) : (s.setBank b c).mg = s.mg := rfl
@[simp] theorem State.setBank_hold (b c : Nat) : (s.setBank b c).hold = s.hold := rfl
@[simp] theorem State.setBank_fuses (b c : Nat) : (s.setBank b c).fuses = s.fuses := rfl
@[simp] theorem State.setBank_sec (b c : Nat) : (s.setBank b c).sec = s.sec := rfl
@[simp] theorem State.setBank_domA (b c : Nat) : (s.setBank b c).domA = s.domA := rfl
@[simp] theorem State.setBank_domB (b c : Nat) : (s.setBank b c).domB = s.domB := rfl
@[simp] theorem State.setBank_pps (b c : Nat) : (s.setBank b c).pps = s.pps := rfl
@[simp] theorem State.setBank_ptpA (b c : Nat) : (s.setBank b c).ptpA = s.ptpA := rfl
@[simp] theorem State.setBank_ptpB (b c : Nat) : (s.setBank b c).ptpB = s.ptpB := rfl
@[simp] theorem State.setBank_jobs (b c : Nat) : (s.setBank b c).jobs = s.jobs := rfl
@[simp] theorem State.setBank_rings (b c : Nat) : (s.setBank b c).rings = s.rings := rfl
@[simp] theorem State.setBank_rebind (b c : Nat) : (s.setBank b c).rebind = s.rebind := rfl
@[simp] theorem State.setBank_fronds (b c : Nat) : (s.setBank b c).fronds = s.fronds := rfl
@[simp] theorem State.setBank_cross (b c : Nat) : (s.setBank b c).cross = s.cross := rfl
@[simp] theorem State.setBank_stalls (b c : Nat) : (s.setBank b c).stalls = s.stalls := rfl
@[simp] theorem State.setBank_gated (b c : Nat) : (s.setBank b c).gated = s.gated := rfl
@[simp] theorem State.setBank_flt (b c : Nat) : (s.setBank b c).flt = s.flt := rfl
@[simp] theorem State.setBank_rx (b c : Nat) : (s.setBank b c).rx = s.rx := rfl
@[simp] theorem State.setBank_tx (b c : Nat) : (s.setBank b c).tx = s.tx := rfl
@[simp] theorem State.setBank_fh (b c : Nat) : (s.setBank b c).fh = s.fh := rfl
@[simp] theorem State.setBank_trn (b c : Nat) : (s.setBank b c).trn = s.trn := rfl
@[simp] theorem State.setBank_pwr (b c : Nat) : (s.setBank b c).pwr = s.pwr := rfl
@[simp] theorem State.setBank_grp (b c : Nat) : (s.setBank b c).grp = s.grp := rfl
@[simp] theorem State.setBank_pair (b c : Nat) : (s.setBank b c).pair = s.pair := rfl
@[simp] theorem State.setBank_lanes (b c : Nat) : (s.setBank b c).lanes = s.lanes := rfl
@[simp] theorem State.setBank_rzOut (b c : Nat) : (s.setBank b c).rzOut = s.rzOut := rfl
@[simp] theorem State.setBank_fhOut (b c : Nat) : (s.setBank b c).fhOut = s.fhOut := rfl
@[simp] theorem State.setBank_mgOut (b c : Nat) : (s.setBank b c).mgOut = s.mgOut := rfl
@[simp] theorem State.setBank_smbAlarms (b c : Nat) : (s.setBank b c).smbAlarms = s.smbAlarms := rfl
@[simp] theorem State.setBank_smbAlert (b c : Nat) : (s.setBank b c).smbAlert = s.smbAlert := rfl
@[simp] theorem State.setBank_smbOut (b c : Nat) : (s.setBank b c).smbOut = s.smbOut := rfl
@[simp] theorem State.setBank_irqOut (b c : Nat) : (s.setBank b c).irqOut = s.irqOut := rfl
@[simp] theorem State.setBank_readOut (b c : Nat) : (s.setBank b c).readOut = s.readOut := rfl
@[simp] theorem State.setBank_freeCtr (b c : Nat) : (s.setBank b c).freeCtr = s.freeCtr := rfl

/-! ### settle -/

@[simp] theorem State.settle_regs (t : State) : (s.settle t).regs = t.regs := rfl
@[simp] theorem State.settle_mem (t : State) : (s.settle t).mem = t.mem := rfl
@[simp] theorem State.settle_poison (t : State) : (s.settle t).poison = t.poison := rfl
@[simp] theorem State.settle_flash (t : State) : (s.settle t).flash = t.flash := rfl
@[simp] theorem State.settle_flashSize (t : State) : (s.settle t).flashSize = t.flashSize := rfl
@[simp] theorem State.settle_ticks (t : State) : (s.settle t).ticks = t.ticks := rfl
@[simp] theorem State.settle_boot (t : State) : (s.settle t).boot = t.boot := rfl
@[simp] theorem State.settle_image (t : State) : (s.settle t).image = t.image := rfl
@[simp] theorem State.settle_openSlot (t : State) : (s.settle t).openSlot = t.openSlot := rfl
@[simp] theorem State.settle_adopt (t : State) : (s.settle t).adopt = t.adopt := rfl
@[simp] theorem State.settle_undo (t : State) : (s.settle t).undo = t.undo := rfl
@[simp] theorem State.settle_mg (t : State) : (s.settle t).mg = t.mg := rfl
@[simp] theorem State.settle_hold (t : State) : (s.settle t).hold = t.hold := rfl
@[simp] theorem State.settle_fuses (t : State) : (s.settle t).fuses = t.fuses := rfl
@[simp] theorem State.settle_sec (t : State) : (s.settle t).sec = t.sec := rfl
@[simp] theorem State.settle_domA (t : State) : (s.settle t).domA = t.domA := rfl
@[simp] theorem State.settle_domB (t : State) : (s.settle t).domB = t.domB := rfl
@[simp] theorem State.settle_pps (t : State) : (s.settle t).pps = t.pps := rfl
@[simp] theorem State.settle_ptpA (t : State) : (s.settle t).ptpA = t.ptpA := rfl
@[simp] theorem State.settle_ptpB (t : State) : (s.settle t).ptpB = t.ptpB := rfl
@[simp] theorem State.settle_jobs (t : State) : (s.settle t).jobs = t.jobs := rfl
@[simp] theorem State.settle_rings (t : State) : (s.settle t).rings = t.rings := rfl
@[simp] theorem State.settle_rebind (t : State) : (s.settle t).rebind = t.rebind := rfl
@[simp] theorem State.settle_fronds (t : State) : (s.settle t).fronds = t.fronds := rfl
@[simp] theorem State.settle_mems (t : State) : (s.settle t).mems = t.mems := rfl
@[simp] theorem State.settle_stalls (t : State) : (s.settle t).stalls = t.stalls := rfl
@[simp] theorem State.settle_gated (t : State) : (s.settle t).gated = t.gated := rfl
@[simp] theorem State.settle_flt (t : State) : (s.settle t).flt = t.flt := rfl
@[simp] theorem State.settle_rx (t : State) : (s.settle t).rx = t.rx := rfl
@[simp] theorem State.settle_tx (t : State) : (s.settle t).tx = t.tx := rfl
@[simp] theorem State.settle_fh (t : State) : (s.settle t).fh = t.fh := rfl
@[simp] theorem State.settle_trn (t : State) : (s.settle t).trn = t.trn := rfl
@[simp] theorem State.settle_pwr (t : State) : (s.settle t).pwr = t.pwr := rfl
@[simp] theorem State.settle_grp (t : State) : (s.settle t).grp = t.grp := rfl
@[simp] theorem State.settle_pair (t : State) : (s.settle t).pair = t.pair := rfl
@[simp] theorem State.settle_lanes (t : State) : (s.settle t).lanes = t.lanes := rfl
@[simp] theorem State.settle_rzOut (t : State) : (s.settle t).rzOut = t.rzOut := rfl
@[simp] theorem State.settle_fhOut (t : State) : (s.settle t).fhOut = t.fhOut := rfl
@[simp] theorem State.settle_mgOut (t : State) : (s.settle t).mgOut = t.mgOut := rfl
@[simp] theorem State.settle_smbAlarms (t : State) : (s.settle t).smbAlarms = t.smbAlarms := rfl
@[simp] theorem State.settle_smbAlert (t : State) : (s.settle t).smbAlert = t.smbAlert := rfl
@[simp] theorem State.settle_smbOut (t : State) : (s.settle t).smbOut = t.smbOut := rfl
@[simp] theorem State.settle_irqOut (t : State) : (s.settle t).irqOut = t.irqOut := rfl
@[simp] theorem State.settle_readOut (t : State) : (s.settle t).readOut = t.readOut := rfl
@[simp] theorem State.settle_freeCtr (t : State) : (s.settle t).freeCtr = t.freeCtr := rfl

/-! ### setDom -/

@[simp] theorem State.setDom_pending (d : Sys2Proof.Dom) (x : Domain) : (s.setDom d x).pending = s.pending := by cases d <;> rfl
@[simp] theorem State.setDom_regs (d : Sys2Proof.Dom) (x : Domain) : (s.setDom d x).regs = s.regs := by cases d <;> rfl
@[simp] theorem State.setDom_mem (d : Sys2Proof.Dom) (x : Domain) : (s.setDom d x).mem = s.mem := by cases d <;> rfl
@[simp] theorem State.setDom_poison (d : Sys2Proof.Dom) (x : Domain) : (s.setDom d x).poison = s.poison := by cases d <;> rfl
@[simp] theorem State.setDom_flash (d : Sys2Proof.Dom) (x : Domain) : (s.setDom d x).flash = s.flash := by cases d <;> rfl
@[simp] theorem State.setDom_flashSize (d : Sys2Proof.Dom) (x : Domain) : (s.setDom d x).flashSize = s.flashSize := by cases d <;> rfl
@[simp] theorem State.setDom_ticks (d : Sys2Proof.Dom) (x : Domain) : (s.setDom d x).ticks = s.ticks := by cases d <;> rfl
@[simp] theorem State.setDom_boot (d : Sys2Proof.Dom) (x : Domain) : (s.setDom d x).boot = s.boot := by cases d <;> rfl
@[simp] theorem State.setDom_image (d : Sys2Proof.Dom) (x : Domain) : (s.setDom d x).image = s.image := by cases d <;> rfl
@[simp] theorem State.setDom_openSlot (d : Sys2Proof.Dom) (x : Domain) : (s.setDom d x).openSlot = s.openSlot := by cases d <;> rfl
@[simp] theorem State.setDom_adopt (d : Sys2Proof.Dom) (x : Domain) : (s.setDom d x).adopt = s.adopt := by cases d <;> rfl
@[simp] theorem State.setDom_undo (d : Sys2Proof.Dom) (x : Domain) : (s.setDom d x).undo = s.undo := by cases d <;> rfl
@[simp] theorem State.setDom_mg (d : Sys2Proof.Dom) (x : Domain) : (s.setDom d x).mg = s.mg := by cases d <;> rfl
@[simp] theorem State.setDom_hold (d : Sys2Proof.Dom) (x : Domain) : (s.setDom d x).hold = s.hold := by cases d <;> rfl
@[simp] theorem State.setDom_fuses (d : Sys2Proof.Dom) (x : Domain) : (s.setDom d x).fuses = s.fuses := by cases d <;> rfl
@[simp] theorem State.setDom_sec (d : Sys2Proof.Dom) (x : Domain) : (s.setDom d x).sec = s.sec := by cases d <;> rfl
@[simp] theorem State.setDom_pps (d : Sys2Proof.Dom) (x : Domain) : (s.setDom d x).pps = s.pps := by cases d <;> rfl
@[simp] theorem State.setDom_ptpA (d : Sys2Proof.Dom) (x : Domain) : (s.setDom d x).ptpA = s.ptpA := by cases d <;> rfl
@[simp] theorem State.setDom_ptpB (d : Sys2Proof.Dom) (x : Domain) : (s.setDom d x).ptpB = s.ptpB := by cases d <;> rfl
@[simp] theorem State.setDom_jobs (d : Sys2Proof.Dom) (x : Domain) : (s.setDom d x).jobs = s.jobs := by cases d <;> rfl
@[simp] theorem State.setDom_rings (d : Sys2Proof.Dom) (x : Domain) : (s.setDom d x).rings = s.rings := by cases d <;> rfl
@[simp] theorem State.setDom_rebind (d : Sys2Proof.Dom) (x : Domain) : (s.setDom d x).rebind = s.rebind := by cases d <;> rfl
@[simp] theorem State.setDom_fronds (d : Sys2Proof.Dom) (x : Domain) : (s.setDom d x).fronds = s.fronds := by cases d <;> rfl
@[simp] theorem State.setDom_mems (d : Sys2Proof.Dom) (x : Domain) : (s.setDom d x).mems = s.mems := by cases d <;> rfl
@[simp] theorem State.setDom_cross (d : Sys2Proof.Dom) (x : Domain) : (s.setDom d x).cross = s.cross := by cases d <;> rfl
@[simp] theorem State.setDom_stalls (d : Sys2Proof.Dom) (x : Domain) : (s.setDom d x).stalls = s.stalls := by cases d <;> rfl
@[simp] theorem State.setDom_gated (d : Sys2Proof.Dom) (x : Domain) : (s.setDom d x).gated = s.gated := by cases d <;> rfl
@[simp] theorem State.setDom_flt (d : Sys2Proof.Dom) (x : Domain) : (s.setDom d x).flt = s.flt := by cases d <;> rfl
@[simp] theorem State.setDom_rx (d : Sys2Proof.Dom) (x : Domain) : (s.setDom d x).rx = s.rx := by cases d <;> rfl
@[simp] theorem State.setDom_tx (d : Sys2Proof.Dom) (x : Domain) : (s.setDom d x).tx = s.tx := by cases d <;> rfl
@[simp] theorem State.setDom_fh (d : Sys2Proof.Dom) (x : Domain) : (s.setDom d x).fh = s.fh := by cases d <;> rfl
@[simp] theorem State.setDom_trn (d : Sys2Proof.Dom) (x : Domain) : (s.setDom d x).trn = s.trn := by cases d <;> rfl
@[simp] theorem State.setDom_pwr (d : Sys2Proof.Dom) (x : Domain) : (s.setDom d x).pwr = s.pwr := by cases d <;> rfl
@[simp] theorem State.setDom_grp (d : Sys2Proof.Dom) (x : Domain) : (s.setDom d x).grp = s.grp := by cases d <;> rfl
@[simp] theorem State.setDom_pair (d : Sys2Proof.Dom) (x : Domain) : (s.setDom d x).pair = s.pair := by cases d <;> rfl
@[simp] theorem State.setDom_lanes (d : Sys2Proof.Dom) (x : Domain) : (s.setDom d x).lanes = s.lanes := by cases d <;> rfl
@[simp] theorem State.setDom_rzOut (d : Sys2Proof.Dom) (x : Domain) : (s.setDom d x).rzOut = s.rzOut := by cases d <;> rfl
@[simp] theorem State.setDom_fhOut (d : Sys2Proof.Dom) (x : Domain) : (s.setDom d x).fhOut = s.fhOut := by cases d <;> rfl
@[simp] theorem State.setDom_mgOut (d : Sys2Proof.Dom) (x : Domain) : (s.setDom d x).mgOut = s.mgOut := by cases d <;> rfl
@[simp] theorem State.setDom_smbAlarms (d : Sys2Proof.Dom) (x : Domain) : (s.setDom d x).smbAlarms = s.smbAlarms := by cases d <;> rfl
@[simp] theorem State.setDom_smbAlert (d : Sys2Proof.Dom) (x : Domain) : (s.setDom d x).smbAlert = s.smbAlert := by cases d <;> rfl
@[simp] theorem State.setDom_smbOut (d : Sys2Proof.Dom) (x : Domain) : (s.setDom d x).smbOut = s.smbOut := by cases d <;> rfl
@[simp] theorem State.setDom_irqOut (d : Sys2Proof.Dom) (x : Domain) : (s.setDom d x).irqOut = s.irqOut := by cases d <;> rfl
@[simp] theorem State.setDom_readOut (d : Sys2Proof.Dom) (x : Domain) : (s.setDom d x).readOut = s.readOut := by cases d <;> rfl
@[simp] theorem State.setDom_freeCtr (d : Sys2Proof.Dom) (x : Domain) : (s.setDom d x).freeCtr = s.freeCtr := by cases d <;> rfl

/-! ### setJob -/

@[simp] theorem State.setJob_pending (j : Nat) (x : Job) : (s.setJob j x).pending = s.pending := by unfold State.setJob; split <;> rfl
@[simp] theorem State.setJob_regs (j : Nat) (x : Job) : (s.setJob j x).regs = s.regs := by unfold State.setJob; split <;> rfl
@[simp] theorem State.setJob_mem (j : Nat) (x : Job) : (s.setJob j x).mem = s.mem := by unfold State.setJob; split <;> rfl
@[simp] theorem State.setJob_poison (j : Nat) (x : Job) : (s.setJob j x).poison = s.poison := by unfold State.setJob; split <;> rfl
@[simp] theorem State.setJob_flash (j : Nat) (x : Job) : (s.setJob j x).flash = s.flash := by unfold State.setJob; split <;> rfl
@[simp] theorem State.setJob_flashSize (j : Nat) (x : Job) : (s.setJob j x).flashSize = s.flashSize := by unfold State.setJob; split <;> rfl
@[simp] theorem State.setJob_ticks (j : Nat) (x : Job) : (s.setJob j x).ticks = s.ticks := by unfold State.setJob; split <;> rfl
@[simp] theorem State.setJob_boot (j : Nat) (x : Job) : (s.setJob j x).boot = s.boot := by unfold State.setJob; split <;> rfl
@[simp] theorem State.setJob_image (j : Nat) (x : Job) : (s.setJob j x).image = s.image := by unfold State.setJob; split <;> rfl
@[simp] theorem State.setJob_openSlot (j : Nat) (x : Job) : (s.setJob j x).openSlot = s.openSlot := by unfold State.setJob; split <;> rfl
@[simp] theorem State.setJob_adopt (j : Nat) (x : Job) : (s.setJob j x).adopt = s.adopt := by unfold State.setJob; split <;> rfl
@[simp] theorem State.setJob_undo (j : Nat) (x : Job) : (s.setJob j x).undo = s.undo := by unfold State.setJob; split <;> rfl
@[simp] theorem State.setJob_mg (j : Nat) (x : Job) : (s.setJob j x).mg = s.mg := by unfold State.setJob; split <;> rfl
@[simp] theorem State.setJob_hold (j : Nat) (x : Job) : (s.setJob j x).hold = s.hold := by unfold State.setJob; split <;> rfl
@[simp] theorem State.setJob_fuses (j : Nat) (x : Job) : (s.setJob j x).fuses = s.fuses := by unfold State.setJob; split <;> rfl
@[simp] theorem State.setJob_sec (j : Nat) (x : Job) : (s.setJob j x).sec = s.sec := by unfold State.setJob; split <;> rfl
@[simp] theorem State.setJob_domA (j : Nat) (x : Job) : (s.setJob j x).domA = s.domA := by unfold State.setJob; split <;> rfl
@[simp] theorem State.setJob_domB (j : Nat) (x : Job) : (s.setJob j x).domB = s.domB := by unfold State.setJob; split <;> rfl
@[simp] theorem State.setJob_pps (j : Nat) (x : Job) : (s.setJob j x).pps = s.pps := by unfold State.setJob; split <;> rfl
@[simp] theorem State.setJob_ptpA (j : Nat) (x : Job) : (s.setJob j x).ptpA = s.ptpA := by unfold State.setJob; split <;> rfl
@[simp] theorem State.setJob_ptpB (j : Nat) (x : Job) : (s.setJob j x).ptpB = s.ptpB := by unfold State.setJob; split <;> rfl
@[simp] theorem State.setJob_rings (j : Nat) (x : Job) : (s.setJob j x).rings = s.rings := by unfold State.setJob; split <;> rfl
@[simp] theorem State.setJob_rebind (j : Nat) (x : Job) : (s.setJob j x).rebind = s.rebind := by unfold State.setJob; split <;> rfl
@[simp] theorem State.setJob_fronds (j : Nat) (x : Job) : (s.setJob j x).fronds = s.fronds := by unfold State.setJob; split <;> rfl
@[simp] theorem State.setJob_mems (j : Nat) (x : Job) : (s.setJob j x).mems = s.mems := by unfold State.setJob; split <;> rfl
@[simp] theorem State.setJob_cross (j : Nat) (x : Job) : (s.setJob j x).cross = s.cross := by unfold State.setJob; split <;> rfl
@[simp] theorem State.setJob_stalls (j : Nat) (x : Job) : (s.setJob j x).stalls = s.stalls := by unfold State.setJob; split <;> rfl
@[simp] theorem State.setJob_gated (j : Nat) (x : Job) : (s.setJob j x).gated = s.gated := by unfold State.setJob; split <;> rfl
@[simp] theorem State.setJob_flt (j : Nat) (x : Job) : (s.setJob j x).flt = s.flt := by unfold State.setJob; split <;> rfl
@[simp] theorem State.setJob_rx (j : Nat) (x : Job) : (s.setJob j x).rx = s.rx := by unfold State.setJob; split <;> rfl
@[simp] theorem State.setJob_tx (j : Nat) (x : Job) : (s.setJob j x).tx = s.tx := by unfold State.setJob; split <;> rfl
@[simp] theorem State.setJob_fh (j : Nat) (x : Job) : (s.setJob j x).fh = s.fh := by unfold State.setJob; split <;> rfl
@[simp] theorem State.setJob_trn (j : Nat) (x : Job) : (s.setJob j x).trn = s.trn := by unfold State.setJob; split <;> rfl
@[simp] theorem State.setJob_pwr (j : Nat) (x : Job) : (s.setJob j x).pwr = s.pwr := by unfold State.setJob; split <;> rfl
@[simp] theorem State.setJob_grp (j : Nat) (x : Job) : (s.setJob j x).grp = s.grp := by unfold State.setJob; split <;> rfl
@[simp] theorem State.setJob_pair (j : Nat) (x : Job) : (s.setJob j x).pair = s.pair := by unfold State.setJob; split <;> rfl
@[simp] theorem State.setJob_lanes (j : Nat) (x : Job) : (s.setJob j x).lanes = s.lanes := by unfold State.setJob; split <;> rfl
@[simp] theorem State.setJob_rzOut (j : Nat) (x : Job) : (s.setJob j x).rzOut = s.rzOut := by unfold State.setJob; split <;> rfl
@[simp] theorem State.setJob_fhOut (j : Nat) (x : Job) : (s.setJob j x).fhOut = s.fhOut := by unfold State.setJob; split <;> rfl
@[simp] theorem State.setJob_mgOut (j : Nat) (x : Job) : (s.setJob j x).mgOut = s.mgOut := by unfold State.setJob; split <;> rfl
@[simp] theorem State.setJob_smbAlarms (j : Nat) (x : Job) : (s.setJob j x).smbAlarms = s.smbAlarms := by unfold State.setJob; split <;> rfl
@[simp] theorem State.setJob_smbAlert (j : Nat) (x : Job) : (s.setJob j x).smbAlert = s.smbAlert := by unfold State.setJob; split <;> rfl
@[simp] theorem State.setJob_smbOut (j : Nat) (x : Job) : (s.setJob j x).smbOut = s.smbOut := by unfold State.setJob; split <;> rfl
@[simp] theorem State.setJob_irqOut (j : Nat) (x : Job) : (s.setJob j x).irqOut = s.irqOut := by unfold State.setJob; split <;> rfl
@[simp] theorem State.setJob_readOut (j : Nat) (x : Job) : (s.setJob j x).readOut = s.readOut := by unfold State.setJob; split <;> rfl
@[simp] theorem State.setJob_freeCtr (j : Nat) (x : Job) : (s.setJob j x).freeCtr = s.freeCtr := by unfold State.setJob; split <;> rfl

/-! ### modJob -/

@[simp] theorem State.modJob_pending (j : Nat) (g : Job → Job) : (s.modJob j g).pending = s.pending := by unfold State.modJob State.setJob; split <;> rfl
@[simp] theorem State.modJob_regs (j : Nat) (g : Job → Job) : (s.modJob j g).regs = s.regs := by unfold State.modJob State.setJob; split <;> rfl
@[simp] theorem State.modJob_mem (j : Nat) (g : Job → Job) : (s.modJob j g).mem = s.mem := by unfold State.modJob State.setJob; split <;> rfl
@[simp] theorem State.modJob_poison (j : Nat) (g : Job → Job) : (s.modJob j g).poison = s.poison := by unfold State.modJob State.setJob; split <;> rfl
@[simp] theorem State.modJob_flash (j : Nat) (g : Job → Job) : (s.modJob j g).flash = s.flash := by unfold State.modJob State.setJob; split <;> rfl
@[simp] theorem State.modJob_flashSize (j : Nat) (g : Job → Job) : (s.modJob j g).flashSize = s.flashSize := by unfold State.modJob State.setJob; split <;> rfl
@[simp] theorem State.modJob_ticks (j : Nat) (g : Job → Job) : (s.modJob j g).ticks = s.ticks := by unfold State.modJob State.setJob; split <;> rfl
@[simp] theorem State.modJob_boot (j : Nat) (g : Job → Job) : (s.modJob j g).boot = s.boot := by unfold State.modJob State.setJob; split <;> rfl
@[simp] theorem State.modJob_image (j : Nat) (g : Job → Job) : (s.modJob j g).image = s.image := by unfold State.modJob State.setJob; split <;> rfl
@[simp] theorem State.modJob_openSlot (j : Nat) (g : Job → Job) : (s.modJob j g).openSlot = s.openSlot := by unfold State.modJob State.setJob; split <;> rfl
@[simp] theorem State.modJob_adopt (j : Nat) (g : Job → Job) : (s.modJob j g).adopt = s.adopt := by unfold State.modJob State.setJob; split <;> rfl
@[simp] theorem State.modJob_undo (j : Nat) (g : Job → Job) : (s.modJob j g).undo = s.undo := by unfold State.modJob State.setJob; split <;> rfl
@[simp] theorem State.modJob_mg (j : Nat) (g : Job → Job) : (s.modJob j g).mg = s.mg := by unfold State.modJob State.setJob; split <;> rfl
@[simp] theorem State.modJob_hold (j : Nat) (g : Job → Job) : (s.modJob j g).hold = s.hold := by unfold State.modJob State.setJob; split <;> rfl
@[simp] theorem State.modJob_fuses (j : Nat) (g : Job → Job) : (s.modJob j g).fuses = s.fuses := by unfold State.modJob State.setJob; split <;> rfl
@[simp] theorem State.modJob_sec (j : Nat) (g : Job → Job) : (s.modJob j g).sec = s.sec := by unfold State.modJob State.setJob; split <;> rfl
@[simp] theorem State.modJob_domA (j : Nat) (g : Job → Job) : (s.modJob j g).domA = s.domA := by unfold State.modJob State.setJob; split <;> rfl
@[simp] theorem State.modJob_domB (j : Nat) (g : Job → Job) : (s.modJob j g).domB = s.domB := by unfold State.modJob State.setJob; split <;> rfl
@[simp] theorem State.modJob_pps (j : Nat) (g : Job → Job) : (s.modJob j g).pps = s.pps := by unfold State.modJob State.setJob; split <;> rfl
@[simp] theorem State.modJob_ptpA (j : Nat) (g : Job → Job) : (s.modJob j g).ptpA = s.ptpA := by unfold State.modJob State.setJob; split <;> rfl
@[simp] theorem State.modJob_ptpB (j : Nat) (g : Job → Job) : (s.modJob j g).ptpB = s.ptpB := by unfold State.modJob State.setJob; split <;> rfl
@[simp] theorem State.modJob_rings (j : Nat) (g : Job → Job) : (s.modJob j g).rings = s.rings := by unfold State.modJob State.setJob; split <;> rfl
@[simp] theorem State.modJob_rebind (j : Nat) (g : Job → Job) : (s.modJob j g).rebind = s.rebind := by unfold State.modJob State.setJob; split <;> rfl
@[simp] theorem State.modJob_fronds (j : Nat) (g : Job → Job) : (s.modJob j g).fronds = s.fronds := by unfold State.modJob State.setJob; split <;> rfl
@[simp] theorem State.modJob_mems (j : Nat) (g : Job → Job) : (s.modJob j g).mems = s.mems := by unfold State.modJob State.setJob; split <;> rfl
@[simp] theorem State.modJob_cross (j : Nat) (g : Job → Job) : (s.modJob j g).cross = s.cross := by unfold State.modJob State.setJob; split <;> rfl
@[simp] theorem State.modJob_stalls (j : Nat) (g : Job → Job) : (s.modJob j g).stalls = s.stalls := by unfold State.modJob State.setJob; split <;> rfl
@[simp] theorem State.modJob_gated (j : Nat) (g : Job → Job) : (s.modJob j g).gated = s.gated := by unfold State.modJob State.setJob; split <;> rfl
@[simp] theorem State.modJob_flt (j : Nat) (g : Job → Job) : (s.modJob j g).flt = s.flt := by unfold State.modJob State.setJob; split <;> rfl
@[simp] theorem State.modJob_rx (j : Nat) (g : Job → Job) : (s.modJob j g).rx = s.rx := by unfold State.modJob State.setJob; split <;> rfl
@[simp] theorem State.modJob_tx (j : Nat) (g : Job → Job) : (s.modJob j g).tx = s.tx := by unfold State.modJob State.setJob; split <;> rfl
@[simp] theorem State.modJob_fh (j : Nat) (g : Job → Job) : (s.modJob j g).fh = s.fh := by unfold State.modJob State.setJob; split <;> rfl
@[simp] theorem State.modJob_trn (j : Nat) (g : Job → Job) : (s.modJob j g).trn = s.trn := by unfold State.modJob State.setJob; split <;> rfl
@[simp] theorem State.modJob_pwr (j : Nat) (g : Job → Job) : (s.modJob j g).pwr = s.pwr := by unfold State.modJob State.setJob; split <;> rfl
@[simp] theorem State.modJob_grp (j : Nat) (g : Job → Job) : (s.modJob j g).grp = s.grp := by unfold State.modJob State.setJob; split <;> rfl
@[simp] theorem State.modJob_pair (j : Nat) (g : Job → Job) : (s.modJob j g).pair = s.pair := by unfold State.modJob State.setJob; split <;> rfl
@[simp] theorem State.modJob_lanes (j : Nat) (g : Job → Job) : (s.modJob j g).lanes = s.lanes := by unfold State.modJob State.setJob; split <;> rfl
@[simp] theorem State.modJob_rzOut (j : Nat) (g : Job → Job) : (s.modJob j g).rzOut = s.rzOut := by unfold State.modJob State.setJob; split <;> rfl
@[simp] theorem State.modJob_fhOut (j : Nat) (g : Job → Job) : (s.modJob j g).fhOut = s.fhOut := by unfold State.modJob State.setJob; split <;> rfl
@[simp] theorem State.modJob_mgOut (j : Nat) (g : Job → Job) : (s.modJob j g).mgOut = s.mgOut := by unfold State.modJob State.setJob; split <;> rfl
@[simp] theorem State.modJob_smbAlarms (j : Nat) (g : Job → Job) : (s.modJob j g).smbAlarms = s.smbAlarms := by unfold State.modJob State.setJob; split <;> rfl
@[simp] theorem State.modJob_smbAlert (j : Nat) (g : Job → Job) : (s.modJob j g).smbAlert = s.smbAlert := by unfold State.modJob State.setJob; split <;> rfl
@[simp] theorem State.modJob_smbOut (j : Nat) (g : Job → Job) : (s.modJob j g).smbOut = s.smbOut := by unfold State.modJob State.setJob; split <;> rfl
@[simp] theorem State.modJob_irqOut (j : Nat) (g : Job → Job) : (s.modJob j g).irqOut = s.irqOut := by unfold State.modJob State.setJob; split <;> rfl
@[simp] theorem State.modJob_readOut (j : Nat) (g : Job → Job) : (s.modJob j g).readOut = s.readOut := by unfold State.modJob State.setJob; split <;> rfl
@[simp] theorem State.modJob_freeCtr (j : Nat) (g : Job → Job) : (s.modJob j g).freeCtr = s.freeCtr := by unfold State.modJob State.setJob; split <;> rfl

/-! ### setJst -/

@[simp] theorem State.setJst_pending (j c : Nat) : (s.setJst j c).pending = s.pending := by unfold State.setJst; split <;> rfl
@[simp] theorem State.setJst_mem (j c : Nat) : (s.setJst j c).mem = s.mem := by unfold State.setJst; split <;> rfl
@[simp] theorem State.setJst_poison (j c : Nat) : (s.setJst j c).poison = s.poison := by unfold State.setJst; split <;> rfl
@[simp] theorem State.setJst_flash (j c : Nat) : (s.setJst j c).flash = s.flash := by unfold State.setJst; split <;> rfl
@[simp] theorem State.setJst_flashSize (j c : Nat) : (s.setJst j c).flashSize = s.flashSize := by unfold State.setJst; split <;> rfl
@[simp] theorem State.setJst_ticks (j c : Nat) : (s.setJst j c).ticks = s.ticks := by unfold State.setJst; split <;> rfl
@[simp] theorem State.setJst_boot (j c : Nat) : (s.setJst j c).boot = s.boot := by unfold State.setJst; split <;> rfl
@[simp] theorem State.setJst_image (j c : Nat) : (s.setJst j c).image = s.image := by unfold State.setJst; split <;> rfl
@[simp] theorem State.setJst_openSlot (j c : Nat) : (s.setJst j c).openSlot = s.openSlot := by unfold State.setJst; split <;> rfl
@[simp] theorem State.setJst_adopt (j c : Nat) : (s.setJst j c).adopt = s.adopt := by unfold State.setJst; split <;> rfl
@[simp] theorem State.setJst_undo (j c : Nat) : (s.setJst j c).undo = s.undo := by unfold State.setJst; split <;> rfl
@[simp] theorem State.setJst_mg (j c : Nat) : (s.setJst j c).mg = s.mg := by unfold State.setJst; split <;> rfl
@[simp] theorem State.setJst_hold (j c : Nat) : (s.setJst j c).hold = s.hold := by unfold State.setJst; split <;> rfl
@[simp] theorem State.setJst_fuses (j c : Nat) : (s.setJst j c).fuses = s.fuses := by unfold State.setJst; split <;> rfl
@[simp] theorem State.setJst_sec (j c : Nat) : (s.setJst j c).sec = s.sec := by unfold State.setJst; split <;> rfl
@[simp] theorem State.setJst_domA (j c : Nat) : (s.setJst j c).domA = s.domA := by unfold State.setJst; split <;> rfl
@[simp] theorem State.setJst_domB (j c : Nat) : (s.setJst j c).domB = s.domB := by unfold State.setJst; split <;> rfl
@[simp] theorem State.setJst_pps (j c : Nat) : (s.setJst j c).pps = s.pps := by unfold State.setJst; split <;> rfl
@[simp] theorem State.setJst_ptpA (j c : Nat) : (s.setJst j c).ptpA = s.ptpA := by unfold State.setJst; split <;> rfl
@[simp] theorem State.setJst_ptpB (j c : Nat) : (s.setJst j c).ptpB = s.ptpB := by unfold State.setJst; split <;> rfl
@[simp] theorem State.setJst_jobs (j c : Nat) : (s.setJst j c).jobs = s.jobs := by unfold State.setJst; split <;> rfl
@[simp] theorem State.setJst_rings (j c : Nat) : (s.setJst j c).rings = s.rings := by unfold State.setJst; split <;> rfl
@[simp] theorem State.setJst_rebind (j c : Nat) : (s.setJst j c).rebind = s.rebind := by unfold State.setJst; split <;> rfl
@[simp] theorem State.setJst_fronds (j c : Nat) : (s.setJst j c).fronds = s.fronds := by unfold State.setJst; split <;> rfl
@[simp] theorem State.setJst_mems (j c : Nat) : (s.setJst j c).mems = s.mems := by unfold State.setJst; split <;> rfl
@[simp] theorem State.setJst_cross (j c : Nat) : (s.setJst j c).cross = s.cross := by unfold State.setJst; split <;> rfl
@[simp] theorem State.setJst_stalls (j c : Nat) : (s.setJst j c).stalls = s.stalls := by unfold State.setJst; split <;> rfl
@[simp] theorem State.setJst_gated (j c : Nat) : (s.setJst j c).gated = s.gated := by unfold State.setJst; split <;> rfl
@[simp] theorem State.setJst_flt (j c : Nat) : (s.setJst j c).flt = s.flt := by unfold State.setJst; split <;> rfl
@[simp] theorem State.setJst_rx (j c : Nat) : (s.setJst j c).rx = s.rx := by unfold State.setJst; split <;> rfl
@[simp] theorem State.setJst_tx (j c : Nat) : (s.setJst j c).tx = s.tx := by unfold State.setJst; split <;> rfl
@[simp] theorem State.setJst_fh (j c : Nat) : (s.setJst j c).fh = s.fh := by unfold State.setJst; split <;> rfl
@[simp] theorem State.setJst_trn (j c : Nat) : (s.setJst j c).trn = s.trn := by unfold State.setJst; split <;> rfl
@[simp] theorem State.setJst_pwr (j c : Nat) : (s.setJst j c).pwr = s.pwr := by unfold State.setJst; split <;> rfl
@[simp] theorem State.setJst_grp (j c : Nat) : (s.setJst j c).grp = s.grp := by unfold State.setJst; split <;> rfl
@[simp] theorem State.setJst_pair (j c : Nat) : (s.setJst j c).pair = s.pair := by unfold State.setJst; split <;> rfl
@[simp] theorem State.setJst_lanes (j c : Nat) : (s.setJst j c).lanes = s.lanes := by unfold State.setJst; split <;> rfl
@[simp] theorem State.setJst_rzOut (j c : Nat) : (s.setJst j c).rzOut = s.rzOut := by unfold State.setJst; split <;> rfl
@[simp] theorem State.setJst_fhOut (j c : Nat) : (s.setJst j c).fhOut = s.fhOut := by unfold State.setJst; split <;> rfl
@[simp] theorem State.setJst_mgOut (j c : Nat) : (s.setJst j c).mgOut = s.mgOut := by unfold State.setJst; split <;> rfl
@[simp] theorem State.setJst_smbAlarms (j c : Nat) : (s.setJst j c).smbAlarms = s.smbAlarms := by unfold State.setJst; split <;> rfl
@[simp] theorem State.setJst_smbAlert (j c : Nat) : (s.setJst j c).smbAlert = s.smbAlert := by unfold State.setJst; split <;> rfl
@[simp] theorem State.setJst_smbOut (j c : Nat) : (s.setJst j c).smbOut = s.smbOut := by unfold State.setJst; split <;> rfl
@[simp] theorem State.setJst_irqOut (j c : Nat) : (s.setJst j c).irqOut = s.irqOut := by unfold State.setJst; split <;> rfl
@[simp] theorem State.setJst_readOut (j c : Nat) : (s.setJst j c).readOut = s.readOut := by unfold State.setJst; split <;> rfl
@[simp] theorem State.setJst_freeCtr (j c : Nat) : (s.setJst j c).freeCtr = s.freeCtr := by unfold State.setJst; split <;> rfl

/-! ### alarm -/

@[simp] theorem State.alarm_pending (b : Nat) : (s.alarm b).pending = s.pending := by unfold State.alarm; split <;> rfl
@[simp] theorem State.alarm_regs (b : Nat) : (s.alarm b).regs = s.regs := by unfold State.alarm; split <;> rfl
@[simp] theorem State.alarm_mem (b : Nat) : (s.alarm b).mem = s.mem := by unfold State.alarm; split <;> rfl
@[simp] theorem State.alarm_poison (b : Nat) : (s.alarm b).poison = s.poison := by unfold State.alarm; split <;> rfl
@[simp] theorem State.alarm_flash (b : Nat) : (s.alarm b).flash = s.flash := by unfold State.alarm; split <;> rfl
@[simp] theorem State.alarm_flashSize (b : Nat) : (s.alarm b).flashSize = s.flashSize := by unfold State.alarm; split <;> rfl
@[simp] theorem State.alarm_ticks (b : Nat) : (s.alarm b).ticks = s.ticks := by unfold State.alarm; split <;> rfl
@[simp] theorem State.alarm_boot (b : Nat) : (s.alarm b).boot = s.boot := by unfold State.alarm; split <;> rfl
@[simp] theorem State.alarm_image (b : Nat) : (s.alarm b).image = s.image := by unfold State.alarm; split <;> rfl
@[simp] theorem State.alarm_openSlot (b : Nat) : (s.alarm b).openSlot = s.openSlot := by unfold State.alarm; split <;> rfl
@[simp] theorem State.alarm_adopt (b : Nat) : (s.alarm b).adopt = s.adopt := by unfold State.alarm; split <;> rfl
@[simp] theorem State.alarm_undo (b : Nat) : (s.alarm b).undo = s.undo := by unfold State.alarm; split <;> rfl
@[simp] theorem State.alarm_mg (b : Nat) : (s.alarm b).mg = s.mg := by unfold State.alarm; split <;> rfl
@[simp] theorem State.alarm_hold (b : Nat) : (s.alarm b).hold = s.hold := by unfold State.alarm; split <;> rfl
@[simp] theorem State.alarm_fuses (b : Nat) : (s.alarm b).fuses = s.fuses := by unfold State.alarm; split <;> rfl
@[simp] theorem State.alarm_sec (b : Nat) : (s.alarm b).sec = s.sec := by unfold State.alarm; split <;> rfl
@[simp] theorem State.alarm_domA (b : Nat) : (s.alarm b).domA = s.domA := by unfold State.alarm; split <;> rfl
@[simp] theorem State.alarm_domB (b : Nat) : (s.alarm b).domB = s.domB := by unfold State.alarm; split <;> rfl
@[simp] theorem State.alarm_pps (b : Nat) : (s.alarm b).pps = s.pps := by unfold State.alarm; split <;> rfl
@[simp] theorem State.alarm_ptpA (b : Nat) : (s.alarm b).ptpA = s.ptpA := by unfold State.alarm; split <;> rfl
@[simp] theorem State.alarm_ptpB (b : Nat) : (s.alarm b).ptpB = s.ptpB := by unfold State.alarm; split <;> rfl
@[simp] theorem State.alarm_jobs (b : Nat) : (s.alarm b).jobs = s.jobs := by unfold State.alarm; split <;> rfl
@[simp] theorem State.alarm_rings (b : Nat) : (s.alarm b).rings = s.rings := by unfold State.alarm; split <;> rfl
@[simp] theorem State.alarm_rebind (b : Nat) : (s.alarm b).rebind = s.rebind := by unfold State.alarm; split <;> rfl
@[simp] theorem State.alarm_fronds (b : Nat) : (s.alarm b).fronds = s.fronds := by unfold State.alarm; split <;> rfl
@[simp] theorem State.alarm_mems (b : Nat) : (s.alarm b).mems = s.mems := by unfold State.alarm; split <;> rfl
@[simp] theorem State.alarm_cross (b : Nat) : (s.alarm b).cross = s.cross := by unfold State.alarm; split <;> rfl
@[simp] theorem State.alarm_stalls (b : Nat) : (s.alarm b).stalls = s.stalls := by unfold State.alarm; split <;> rfl
@[simp] theorem State.alarm_gated (b : Nat) : (s.alarm b).gated = s.gated := by unfold State.alarm; split <;> rfl
@[simp] theorem State.alarm_flt (b : Nat) : (s.alarm b).flt = s.flt := by unfold State.alarm; split <;> rfl
@[simp] theorem State.alarm_rx (b : Nat) : (s.alarm b).rx = s.rx := by unfold State.alarm; split <;> rfl
@[simp] theorem State.alarm_tx (b : Nat) : (s.alarm b).tx = s.tx := by unfold State.alarm; split <;> rfl
@[simp] theorem State.alarm_fh (b : Nat) : (s.alarm b).fh = s.fh := by unfold State.alarm; split <;> rfl
@[simp] theorem State.alarm_trn (b : Nat) : (s.alarm b).trn = s.trn := by unfold State.alarm; split <;> rfl
@[simp] theorem State.alarm_pwr (b : Nat) : (s.alarm b).pwr = s.pwr := by unfold State.alarm; split <;> rfl
@[simp] theorem State.alarm_grp (b : Nat) : (s.alarm b).grp = s.grp := by unfold State.alarm; split <;> rfl
@[simp] theorem State.alarm_pair (b : Nat) : (s.alarm b).pair = s.pair := by unfold State.alarm; split <;> rfl
@[simp] theorem State.alarm_lanes (b : Nat) : (s.alarm b).lanes = s.lanes := by unfold State.alarm; split <;> rfl
@[simp] theorem State.alarm_rzOut (b : Nat) : (s.alarm b).rzOut = s.rzOut := by unfold State.alarm; split <;> rfl
@[simp] theorem State.alarm_fhOut (b : Nat) : (s.alarm b).fhOut = s.fhOut := by unfold State.alarm; split <;> rfl
@[simp] theorem State.alarm_mgOut (b : Nat) : (s.alarm b).mgOut = s.mgOut := by unfold State.alarm; split <;> rfl
@[simp] theorem State.alarm_smbOut (b : Nat) : (s.alarm b).smbOut = s.smbOut := by unfold State.alarm; split <;> rfl
@[simp] theorem State.alarm_irqOut (b : Nat) : (s.alarm b).irqOut = s.irqOut := by unfold State.alarm; split <;> rfl
@[simp] theorem State.alarm_readOut (b : Nat) : (s.alarm b).readOut = s.readOut := by unfold State.alarm; split <;> rfl
@[simp] theorem State.alarm_freeCtr (b : Nat) : (s.alarm b).freeCtr = s.freeCtr := by unfold State.alarm; split <;> rfl

/-! ### mgSend -/

@[simp] theorem State.mgSend_pending (o : Nat) (l : List Sys2Proof.Byte) : (s.mgSend o l).pending = s.pending := rfl
@[simp] theorem State.mgSend_regs (o : Nat) (l : List Sys2Proof.Byte) : (s.mgSend o l).regs = s.regs := rfl
@[simp] theorem State.mgSend_mem (o : Nat) (l : List Sys2Proof.Byte) : (s.mgSend o l).mem = s.mem := rfl
@[simp] theorem State.mgSend_poison (o : Nat) (l : List Sys2Proof.Byte) : (s.mgSend o l).poison = s.poison := rfl
@[simp] theorem State.mgSend_flash (o : Nat) (l : List Sys2Proof.Byte) : (s.mgSend o l).flash = s.flash := rfl
@[simp] theorem State.mgSend_flashSize (o : Nat) (l : List Sys2Proof.Byte) : (s.mgSend o l).flashSize = s.flashSize := rfl
@[simp] theorem State.mgSend_ticks (o : Nat) (l : List Sys2Proof.Byte) : (s.mgSend o l).ticks = s.ticks := rfl
@[simp] theorem State.mgSend_boot (o : Nat) (l : List Sys2Proof.Byte) : (s.mgSend o l).boot = s.boot := rfl
@[simp] theorem State.mgSend_image (o : Nat) (l : List Sys2Proof.Byte) : (s.mgSend o l).image = s.image := rfl
@[simp] theorem State.mgSend_openSlot (o : Nat) (l : List Sys2Proof.Byte) : (s.mgSend o l).openSlot = s.openSlot := rfl
@[simp] theorem State.mgSend_adopt (o : Nat) (l : List Sys2Proof.Byte) : (s.mgSend o l).adopt = s.adopt := rfl
@[simp] theorem State.mgSend_undo (o : Nat) (l : List Sys2Proof.Byte) : (s.mgSend o l).undo = s.undo := rfl
@[simp] theorem State.mgSend_hold (o : Nat) (l : List Sys2Proof.Byte) : (s.mgSend o l).hold = s.hold := rfl
@[simp] theorem State.mgSend_fuses (o : Nat) (l : List Sys2Proof.Byte) : (s.mgSend o l).fuses = s.fuses := rfl
@[simp] theorem State.mgSend_sec (o : Nat) (l : List Sys2Proof.Byte) : (s.mgSend o l).sec = s.sec := rfl
@[simp] theorem State.mgSend_domA (o : Nat) (l : List Sys2Proof.Byte) : (s.mgSend o l).domA = s.domA := rfl
@[simp] theorem State.mgSend_domB (o : Nat) (l : List Sys2Proof.Byte) : (s.mgSend o l).domB = s.domB := rfl
@[simp] theorem State.mgSend_pps (o : Nat) (l : List Sys2Proof.Byte) : (s.mgSend o l).pps = s.pps := rfl
@[simp] theorem State.mgSend_ptpA (o : Nat) (l : List Sys2Proof.Byte) : (s.mgSend o l).ptpA = s.ptpA := rfl
@[simp] theorem State.mgSend_ptpB (o : Nat) (l : List Sys2Proof.Byte) : (s.mgSend o l).ptpB = s.ptpB := rfl
@[simp] theorem State.mgSend_jobs (o : Nat) (l : List Sys2Proof.Byte) : (s.mgSend o l).jobs = s.jobs := rfl
@[simp] theorem State.mgSend_rings (o : Nat) (l : List Sys2Proof.Byte) : (s.mgSend o l).rings = s.rings := rfl
@[simp] theorem State.mgSend_rebind (o : Nat) (l : List Sys2Proof.Byte) : (s.mgSend o l).rebind = s.rebind := rfl
@[simp] theorem State.mgSend_fronds (o : Nat) (l : List Sys2Proof.Byte) : (s.mgSend o l).fronds = s.fronds := rfl
@[simp] theorem State.mgSend_mems (o : Nat) (l : List Sys2Proof.Byte) : (s.mgSend o l).mems = s.mems := rfl
@[simp] theorem State.mgSend_cross (o : Nat) (l : List Sys2Proof.Byte) : (s.mgSend o l).cross = s.cross := rfl
@[simp] theorem State.mgSend_stalls (o : Nat) (l : List Sys2Proof.Byte) : (s.mgSend o l).stalls = s.stalls := rfl
@[simp] theorem State.mgSend_gated (o : Nat) (l : List Sys2Proof.Byte) : (s.mgSend o l).gated = s.gated := rfl
@[simp] theorem State.mgSend_flt (o : Nat) (l : List Sys2Proof.Byte) : (s.mgSend o l).flt = s.flt := rfl
@[simp] theorem State.mgSend_rx (o : Nat) (l : List Sys2Proof.Byte) : (s.mgSend o l).rx = s.rx := rfl
@[simp] theorem State.mgSend_tx (o : Nat) (l : List Sys2Proof.Byte) : (s.mgSend o l).tx = s.tx := rfl
@[simp] theorem State.mgSend_fh (o : Nat) (l : List Sys2Proof.Byte) : (s.mgSend o l).fh = s.fh := rfl
@[simp] theorem State.mgSend_trn (o : Nat) (l : List Sys2Proof.Byte) : (s.mgSend o l).trn = s.trn := rfl
@[simp] theorem State.mgSend_pwr (o : Nat) (l : List Sys2Proof.Byte) : (s.mgSend o l).pwr = s.pwr := rfl
@[simp] theorem State.mgSend_grp (o : Nat) (l : List Sys2Proof.Byte) : (s.mgSend o l).grp = s.grp := rfl
@[simp] theorem State.mgSend_pair (o : Nat) (l : List Sys2Proof.Byte) : (s.mgSend o l).pair = s.pair := rfl
@[simp] theorem State.mgSend_lanes (o : Nat) (l : List Sys2Proof.Byte) : (s.mgSend o l).lanes = s.lanes := rfl
@[simp] theorem State.mgSend_rzOut (o : Nat) (l : List Sys2Proof.Byte) : (s.mgSend o l).rzOut = s.rzOut := rfl
@[simp] theorem State.mgSend_fhOut (o : Nat) (l : List Sys2Proof.Byte) : (s.mgSend o l).fhOut = s.fhOut := rfl
@[simp] theorem State.mgSend_mgOut (o : Nat) (l : List Sys2Proof.Byte) : (s.mgSend o l).mgOut = s.mgOut := rfl
@[simp] theorem State.mgSend_smbAlarms (o : Nat) (l : List Sys2Proof.Byte) : (s.mgSend o l).smbAlarms = s.smbAlarms := rfl
@[simp] theorem State.mgSend_smbAlert (o : Nat) (l : List Sys2Proof.Byte) : (s.mgSend o l).smbAlert = s.smbAlert := rfl
@[simp] theorem State.mgSend_smbOut (o : Nat) (l : List Sys2Proof.Byte) : (s.mgSend o l).smbOut = s.smbOut := rfl
@[simp] theorem State.mgSend_irqOut (o : Nat) (l : List Sys2Proof.Byte) : (s.mgSend o l).irqOut = s.irqOut := rfl
@[simp] theorem State.mgSend_readOut (o : Nat) (l : List Sys2Proof.Byte) : (s.mgSend o l).readOut = s.readOut := rfl
@[simp] theorem State.mgSend_freeCtr (o : Nat) (l : List Sys2Proof.Byte) : (s.mgSend o l).freeCtr = s.freeCtr := rfl

/-! ### mgAnswer -/

@[simp] theorem State.mgAnswer_pending (o : Nat) (q : Sys2Proof.Word) (c : Nat) (l : List Sys2Proof.Byte) : (s.mgAnswer o q c l).pending = s.pending := rfl
@[simp] theorem State.mgAnswer_regs (o : Nat) (q : Sys2Proof.Word) (c : Nat) (l : List Sys2Proof.Byte) : (s.mgAnswer o q c l).regs = s.regs := rfl
@[simp] theorem State.mgAnswer_mem (o : Nat) (q : Sys2Proof.Word) (c : Nat) (l : List Sys2Proof.Byte) : (s.mgAnswer o q c l).mem = s.mem := rfl
@[simp] theorem State.mgAnswer_poison (o : Nat) (q : Sys2Proof.Word) (c : Nat) (l : List Sys2Proof.Byte) : (s.mgAnswer o q c l).poison = s.poison := rfl
@[simp] theorem State.mgAnswer_flash (o : Nat) (q : Sys2Proof.Word) (c : Nat) (l : List Sys2Proof.Byte) : (s.mgAnswer o q c l).flash = s.flash := rfl
@[simp] theorem State.mgAnswer_flashSize (o : Nat) (q : Sys2Proof.Word) (c : Nat) (l : List Sys2Proof.Byte) : (s.mgAnswer o q c l).flashSize = s.flashSize := rfl
@[simp] theorem State.mgAnswer_ticks (o : Nat) (q : Sys2Proof.Word) (c : Nat) (l : List Sys2Proof.Byte) : (s.mgAnswer o q c l).ticks = s.ticks := rfl
@[simp] theorem State.mgAnswer_boot (o : Nat) (q : Sys2Proof.Word) (c : Nat) (l : List Sys2Proof.Byte) : (s.mgAnswer o q c l).boot = s.boot := rfl
@[simp] theorem State.mgAnswer_image (o : Nat) (q : Sys2Proof.Word) (c : Nat) (l : List Sys2Proof.Byte) : (s.mgAnswer o q c l).image = s.image := rfl
@[simp] theorem State.mgAnswer_openSlot (o : Nat) (q : Sys2Proof.Word) (c : Nat) (l : List Sys2Proof.Byte) : (s.mgAnswer o q c l).openSlot = s.openSlot := rfl
@[simp] theorem State.mgAnswer_adopt (o : Nat) (q : Sys2Proof.Word) (c : Nat) (l : List Sys2Proof.Byte) : (s.mgAnswer o q c l).adopt = s.adopt := rfl
@[simp] theorem State.mgAnswer_undo (o : Nat) (q : Sys2Proof.Word) (c : Nat) (l : List Sys2Proof.Byte) : (s.mgAnswer o q c l).undo = s.undo := rfl
@[simp] theorem State.mgAnswer_hold (o : Nat) (q : Sys2Proof.Word) (c : Nat) (l : List Sys2Proof.Byte) : (s.mgAnswer o q c l).hold = s.hold := rfl
@[simp] theorem State.mgAnswer_fuses (o : Nat) (q : Sys2Proof.Word) (c : Nat) (l : List Sys2Proof.Byte) : (s.mgAnswer o q c l).fuses = s.fuses := rfl
@[simp] theorem State.mgAnswer_sec (o : Nat) (q : Sys2Proof.Word) (c : Nat) (l : List Sys2Proof.Byte) : (s.mgAnswer o q c l).sec = s.sec := rfl
@[simp] theorem State.mgAnswer_domA (o : Nat) (q : Sys2Proof.Word) (c : Nat) (l : List Sys2Proof.Byte) : (s.mgAnswer o q c l).domA = s.domA := rfl
@[simp] theorem State.mgAnswer_domB (o : Nat) (q : Sys2Proof.Word) (c : Nat) (l : List Sys2Proof.Byte) : (s.mgAnswer o q c l).domB = s.domB := rfl
@[simp] theorem State.mgAnswer_pps (o : Nat) (q : Sys2Proof.Word) (c : Nat) (l : List Sys2Proof.Byte) : (s.mgAnswer o q c l).pps = s.pps := rfl
@[simp] theorem State.mgAnswer_ptpA (o : Nat) (q : Sys2Proof.Word) (c : Nat) (l : List Sys2Proof.Byte) : (s.mgAnswer o q c l).ptpA = s.ptpA := rfl
@[simp] theorem State.mgAnswer_ptpB (o : Nat) (q : Sys2Proof.Word) (c : Nat) (l : List Sys2Proof.Byte) : (s.mgAnswer o q c l).ptpB = s.ptpB := rfl
@[simp] theorem State.mgAnswer_jobs (o : Nat) (q : Sys2Proof.Word) (c : Nat) (l : List Sys2Proof.Byte) : (s.mgAnswer o q c l).jobs = s.jobs := rfl
@[simp] theorem State.mgAnswer_rings (o : Nat) (q : Sys2Proof.Word) (c : Nat) (l : List Sys2Proof.Byte) : (s.mgAnswer o q c l).rings = s.rings := rfl
@[simp] theorem State.mgAnswer_rebind (o : Nat) (q : Sys2Proof.Word) (c : Nat) (l : List Sys2Proof.Byte) : (s.mgAnswer o q c l).rebind = s.rebind := rfl
@[simp] theorem State.mgAnswer_fronds (o : Nat) (q : Sys2Proof.Word) (c : Nat) (l : List Sys2Proof.Byte) : (s.mgAnswer o q c l).fronds = s.fronds := rfl
@[simp] theorem State.mgAnswer_mems (o : Nat) (q : Sys2Proof.Word) (c : Nat) (l : List Sys2Proof.Byte) : (s.mgAnswer o q c l).mems = s.mems := rfl
@[simp] theorem State.mgAnswer_cross (o : Nat) (q : Sys2Proof.Word) (c : Nat) (l : List Sys2Proof.Byte) : (s.mgAnswer o q c l).cross = s.cross := rfl
@[simp] theorem State.mgAnswer_stalls (o : Nat) (q : Sys2Proof.Word) (c : Nat) (l : List Sys2Proof.Byte) : (s.mgAnswer o q c l).stalls = s.stalls := rfl
@[simp] theorem State.mgAnswer_gated (o : Nat) (q : Sys2Proof.Word) (c : Nat) (l : List Sys2Proof.Byte) : (s.mgAnswer o q c l).gated = s.gated := rfl
@[simp] theorem State.mgAnswer_flt (o : Nat) (q : Sys2Proof.Word) (c : Nat) (l : List Sys2Proof.Byte) : (s.mgAnswer o q c l).flt = s.flt := rfl
@[simp] theorem State.mgAnswer_rx (o : Nat) (q : Sys2Proof.Word) (c : Nat) (l : List Sys2Proof.Byte) : (s.mgAnswer o q c l).rx = s.rx := rfl
@[simp] theorem State.mgAnswer_tx (o : Nat) (q : Sys2Proof.Word) (c : Nat) (l : List Sys2Proof.Byte) : (s.mgAnswer o q c l).tx = s.tx := rfl
@[simp] theorem State.mgAnswer_fh (o : Nat) (q : Sys2Proof.Word) (c : Nat) (l : List Sys2Proof.Byte) : (s.mgAnswer o q c l).fh = s.fh := rfl
@[simp] theorem State.mgAnswer_trn (o : Nat) (q : Sys2Proof.Word) (c : Nat) (l : List Sys2Proof.Byte) : (s.mgAnswer o q c l).trn = s.trn := rfl
@[simp] theorem State.mgAnswer_pwr (o : Nat) (q : Sys2Proof.Word) (c : Nat) (l : List Sys2Proof.Byte) : (s.mgAnswer o q c l).pwr = s.pwr := rfl
@[simp] theorem State.mgAnswer_grp (o : Nat) (q : Sys2Proof.Word) (c : Nat) (l : List Sys2Proof.Byte) : (s.mgAnswer o q c l).grp = s.grp := rfl
@[simp] theorem State.mgAnswer_pair (o : Nat) (q : Sys2Proof.Word) (c : Nat) (l : List Sys2Proof.Byte) : (s.mgAnswer o q c l).pair = s.pair := rfl
@[simp] theorem State.mgAnswer_lanes (o : Nat) (q : Sys2Proof.Word) (c : Nat) (l : List Sys2Proof.Byte) : (s.mgAnswer o q c l).lanes = s.lanes := rfl
@[simp] theorem State.mgAnswer_rzOut (o : Nat) (q : Sys2Proof.Word) (c : Nat) (l : List Sys2Proof.Byte) : (s.mgAnswer o q c l).rzOut = s.rzOut := rfl
@[simp] theorem State.mgAnswer_fhOut (o : Nat) (q : Sys2Proof.Word) (c : Nat) (l : List Sys2Proof.Byte) : (s.mgAnswer o q c l).fhOut = s.fhOut := rfl
@[simp] theorem State.mgAnswer_mgOut (o : Nat) (q : Sys2Proof.Word) (c : Nat) (l : List Sys2Proof.Byte) : (s.mgAnswer o q c l).mgOut = s.mgOut := rfl
@[simp] theorem State.mgAnswer_smbAlarms (o : Nat) (q : Sys2Proof.Word) (c : Nat) (l : List Sys2Proof.Byte) : (s.mgAnswer o q c l).smbAlarms = s.smbAlarms := rfl
@[simp] theorem State.mgAnswer_smbAlert (o : Nat) (q : Sys2Proof.Word) (c : Nat) (l : List Sys2Proof.Byte) : (s.mgAnswer o q c l).smbAlert = s.smbAlert := rfl
@[simp] theorem State.mgAnswer_smbOut (o : Nat) (q : Sys2Proof.Word) (c : Nat) (l : List Sys2Proof.Byte) : (s.mgAnswer o q c l).smbOut = s.smbOut := rfl
@[simp] theorem State.mgAnswer_irqOut (o : Nat) (q : Sys2Proof.Word) (c : Nat) (l : List Sys2Proof.Byte) : (s.mgAnswer o q c l).irqOut = s.irqOut := rfl
@[simp] theorem State.mgAnswer_readOut (o : Nat) (q : Sys2Proof.Word) (c : Nat) (l : List Sys2Proof.Byte) : (s.mgAnswer o q c l).readOut = s.readOut := rfl
@[simp] theorem State.mgAnswer_freeCtr (o : Nat) (q : Sys2Proof.Word) (c : Nat) (l : List Sys2Proof.Byte) : (s.mgAnswer o q c l).freeCtr = s.freeCtr := rfl

/-! ### raise -/

/-- One entry in the event ring changes nothing but registers, memory, poison and the memory units. -/
theorem State.ringWrite_shape (e : List Sys2Proof.Byte) : ∃ r m p x, s.ringWrite e = { s with regs := r, mem := m, poison := p, mems := x } := by
  unfold State.ringWrite
  dsimp only
  split
  · exact ⟨_, s.mem, s.poison, s.mems, rfl⟩
  · exact ⟨_, _, _, _, rfl⟩

theorem State.ringWrites_shape (l : List (List Sys2Proof.Byte)) :
    ∀ s : State, ∃ r m p x, l.foldl (fun t e => State.ringWrite t e) s = { s with regs := r, mem := m, poison := p, mems := x } := by
  induction l with
  | nil => exact fun s => ⟨s.regs, s.mem, s.poison, s.mems, rfl⟩
  | cons e l ih =>
    intro s
    obtain ⟨r, m, p, x, h⟩ := s.ringWrite_shape e
    rw [List.foldl_cons, h]
    obtain ⟨r', m', p', x', h'⟩ := ih { s with regs := r, mem := m, poison := p, mems := x }
    exact ⟨r', m', p', x', h'⟩

theorem State.flushHold_shape : ∃ r m p x h, s.flushHold = { s with regs := r, mem := m, poison := p, mems := x, hold := h } := by
  unfold State.flushHold
  split
  · obtain ⟨r, m, p, x, h⟩ := State.ringWrites_shape s.hold { s with hold := [] }
    exact ⟨r, m, p, x, [], h⟩
  · exact ⟨s.regs, s.mem, s.poison, s.mems, s.hold, rfl⟩

/-- What an event can change: registers, the ring's memory, the hold buffer, the journal records that wait, the MG queue (R33 to R38). -/
theorem State.raise_shape (c src j arg : Nat) : ∃ r m p x h f g, s.raise c src j arg =
    { s with regs := r, mem := m, poison := p, mems := x, hold := h, flt := f, mg := g } := by
  unfold State.raise
  dsimp only
  generalize hs1 : (if journalled c = true then _ else s.p Reg.SYS_EVR_SEQ _) = s1
  obtain ⟨r1, f1, h1⟩ : ∃ r f, s1 = { s with regs := r, flt := f } := by
    subst hs1
    split
    · exact ⟨_, _, rfl⟩
    · exact ⟨_, s.flt, rfl⟩
  generalize hs2 : (if s1.ringReady = true then _ else _) = s2
  obtain ⟨r2, m2, p2, x2, h2, e2⟩ : ∃ r m p x h, s2 = { s1 with regs := r, mem := m, poison := p, mems := x, hold := h } := by
    subst hs2
    split
    · obtain ⟨r, m, p, x, h, hf⟩ := s1.flushHold_shape
      obtain ⟨r', m', p', x', hw⟩ := s1.flushHold.ringWrite_shape (eventEntry c src j (s.g Reg.SYS_EVR_SEQ) (s.stamp c j).1 (s.stamp c j).2 arg)
      exact ⟨r', m', p', x', h, by rw [hw, hf]⟩
    · split
      · exact ⟨s1.regs, s1.mem, s1.poison, s1.mems, _, rfl⟩
      · exact ⟨_, s1.mem, s1.poison, s1.mems, s1.hold, rfl⟩
  split
  · split
    · exact ⟨_, _, _, _, _, _, _, by rw [e2, h1]; rfl⟩
    · exact ⟨_, _, _, _, _, _, s.mg, by rw [e2, h1]; rfl⟩
  · exact ⟨_, _, _, _, _, _, s.mg, by rw [e2, h1]⟩

@[simp] theorem State.raise_pending (c src j arg : Nat) : (s.raise c src j arg).pending = s.pending := by
  obtain ⟨_, _, _, _, _, _, _, h⟩ := s.raise_shape c src j arg; rw [h]
@[simp] theorem State.ev_pending (c src arg : Nat) : (s.ev c src arg).pending = s.pending := State.raise_pending ..
@[simp] theorem State.raise_flash (c src j arg : Nat) : (s.raise c src j arg).flash = s.flash := by
  obtain ⟨_, _, _, _, _, _, _, h⟩ := s.raise_shape c src j arg; rw [h]
@[simp] theorem State.ev_flash (c src arg : Nat) : (s.ev c src arg).flash = s.flash := State.raise_flash ..
@[simp] theorem State.raise_flashSize (c src j arg : Nat) : (s.raise c src j arg).flashSize = s.flashSize := by
  obtain ⟨_, _, _, _, _, _, _, h⟩ := s.raise_shape c src j arg; rw [h]
@[simp] theorem State.ev_flashSize (c src arg : Nat) : (s.ev c src arg).flashSize = s.flashSize := State.raise_flashSize ..
@[simp] theorem State.raise_ticks (c src j arg : Nat) : (s.raise c src j arg).ticks = s.ticks := by
  obtain ⟨_, _, _, _, _, _, _, h⟩ := s.raise_shape c src j arg; rw [h]
@[simp] theorem State.ev_ticks (c src arg : Nat) : (s.ev c src arg).ticks = s.ticks := State.raise_ticks ..
@[simp] theorem State.raise_boot (c src j arg : Nat) : (s.raise c src j arg).boot = s.boot := by
  obtain ⟨_, _, _, _, _, _, _, h⟩ := s.raise_shape c src j arg; rw [h]
@[simp] theorem State.ev_boot (c src arg : Nat) : (s.ev c src arg).boot = s.boot := State.raise_boot ..
@[simp] theorem State.raise_image (c src j arg : Nat) : (s.raise c src j arg).image = s.image := by
  obtain ⟨_, _, _, _, _, _, _, h⟩ := s.raise_shape c src j arg; rw [h]
@[simp] theorem State.ev_image (c src arg : Nat) : (s.ev c src arg).image = s.image := State.raise_image ..
@[simp] theorem State.raise_openSlot (c src j arg : Nat) : (s.raise c src j arg).openSlot = s.openSlot := by
  obtain ⟨_, _, _, _, _, _, _, h⟩ := s.raise_shape c src j arg; rw [h]
@[simp] theorem State.ev_openSlot (c src arg : Nat) : (s.ev c src arg).openSlot = s.openSlot := State.raise_openSlot ..
@[simp] theorem State.raise_adopt (c src j arg : Nat) : (s.raise c src j arg).adopt = s.adopt := by
  obtain ⟨_, _, _, _, _, _, _, h⟩ := s.raise_shape c src j arg; rw [h]
@[simp] theorem State.ev_adopt (c src arg : Nat) : (s.ev c src arg).adopt = s.adopt := State.raise_adopt ..
@[simp] theorem State.raise_undo (c src j arg : Nat) : (s.raise c src j arg).undo = s.undo := by
  obtain ⟨_, _, _, _, _, _, _, h⟩ := s.raise_shape c src j arg; rw [h]
@[simp] theorem State.ev_undo (c src arg : Nat) : (s.ev c src arg).undo = s.undo := State.raise_undo ..
@[simp] theorem State.raise_fuses (c src j arg : Nat) : (s.raise c src j arg).fuses = s.fuses := by
  obtain ⟨_, _, _, _, _, _, _, h⟩ := s.raise_shape c src j arg; rw [h]
@[simp] theorem State.ev_fuses (c src arg : Nat) : (s.ev c src arg).fuses = s.fuses := State.raise_fuses ..
@[simp] theorem State.raise_sec (c src j arg : Nat) : (s.raise c src j arg).sec = s.sec := by
  obtain ⟨_, _, _, _, _, _, _, h⟩ := s.raise_shape c src j arg; rw [h]
@[simp] theorem State.ev_sec (c src arg : Nat) : (s.ev c src arg).sec = s.sec := State.raise_sec ..
@[simp] theorem State.raise_domA (c src j arg : Nat) : (s.raise c src j arg).domA = s.domA := by
  obtain ⟨_, _, _, _, _, _, _, h⟩ := s.raise_shape c src j arg; rw [h]
@[simp] theorem State.ev_domA (c src arg : Nat) : (s.ev c src arg).domA = s.domA := State.raise_domA ..
@[simp] theorem State.raise_domB (c src j arg : Nat) : (s.raise c src j arg).domB = s.domB := by
  obtain ⟨_, _, _, _, _, _, _, h⟩ := s.raise_shape c src j arg; rw [h]
@[simp] theorem State.ev_domB (c src arg : Nat) : (s.ev c src arg).domB = s.domB := State.raise_domB ..
@[simp] theorem State.raise_pps (c src j arg : Nat) : (s.raise c src j arg).pps = s.pps := by
  obtain ⟨_, _, _, _, _, _, _, h⟩ := s.raise_shape c src j arg; rw [h]
@[simp] theorem State.ev_pps (c src arg : Nat) : (s.ev c src arg).pps = s.pps := State.raise_pps ..
@[simp] theorem State.raise_ptpA (c src j arg : Nat) : (s.raise c src j arg).ptpA = s.ptpA := by
  obtain ⟨_, _, _, _, _, _, _, h⟩ := s.raise_shape c src j arg; rw [h]
@[simp] theorem State.ev_ptpA (c src arg : Nat) : (s.ev c src arg).ptpA = s.ptpA := State.raise_ptpA ..
@[simp] theorem State.raise_ptpB (c src j arg : Nat) : (s.raise c src j arg).ptpB = s.ptpB := by
  obtain ⟨_, _, _, _, _, _, _, h⟩ := s.raise_shape c src j arg; rw [h]
@[simp] theorem State.ev_ptpB (c src arg : Nat) : (s.ev c src arg).ptpB = s.ptpB := State.raise_ptpB ..
@[simp] theorem State.raise_jobs (c src j arg : Nat) : (s.raise c src j arg).jobs = s.jobs := by
  obtain ⟨_, _, _, _, _, _, _, h⟩ := s.raise_shape c src j arg; rw [h]
@[simp] theorem State.ev_jobs (c src arg : Nat) : (s.ev c src arg).jobs = s.jobs := State.raise_jobs ..
@[simp] theorem State.raise_rings (c src j arg : Nat) : (s.raise c src j arg).rings = s.rings := by
  obtain ⟨_, _, _, _, _, _, _, h⟩ := s.raise_shape c src j arg; rw [h]
@[simp] theorem State.ev_rings (c src arg : Nat) : (s.ev c src arg).rings = s.rings := State.raise_rings ..
@[simp] theorem State.raise_rebind (c src j arg : Nat) : (s.raise c src j arg).rebind = s.rebind := by
  obtain ⟨_, _, _, _, _, _, _, h⟩ := s.raise_shape c src j arg; rw [h]
@[simp] theorem State.ev_rebind (c src arg : Nat) : (s.ev c src arg).rebind = s.rebind := State.raise_rebind ..
@[simp] theorem State.raise_fronds (c src j arg : Nat) : (s.raise c src j arg).fronds = s.fronds := by
  obtain ⟨_, _, _, _, _, _, _, h⟩ := s.raise_shape c src j arg; rw [h]
@[simp] theorem State.ev_fronds (c src arg : Nat) : (s.ev c src arg).fronds = s.fronds := State.raise_fronds ..
@[simp] theorem State.raise_cross (c src j arg : Nat) : (s.raise c src j arg).cross = s.cross := by
  obtain ⟨_, _, _, _, _, _, _, h⟩ := s.raise_shape c src j arg; rw [h]
@[simp] theorem State.ev_cross (c src arg : Nat) : (s.ev c src arg).cross = s.cross := State.raise_cross ..
@[simp] theorem State.raise_stalls (c src j arg : Nat) : (s.raise c src j arg).stalls = s.stalls := by
  obtain ⟨_, _, _, _, _, _, _, h⟩ := s.raise_shape c src j arg; rw [h]
@[simp] theorem State.ev_stalls (c src arg : Nat) : (s.ev c src arg).stalls = s.stalls := State.raise_stalls ..
@[simp] theorem State.raise_gated (c src j arg : Nat) : (s.raise c src j arg).gated = s.gated := by
  obtain ⟨_, _, _, _, _, _, _, h⟩ := s.raise_shape c src j arg; rw [h]
@[simp] theorem State.ev_gated (c src arg : Nat) : (s.ev c src arg).gated = s.gated := State.raise_gated ..
@[simp] theorem State.raise_rx (c src j arg : Nat) : (s.raise c src j arg).rx = s.rx := by
  obtain ⟨_, _, _, _, _, _, _, h⟩ := s.raise_shape c src j arg; rw [h]
@[simp] theorem State.ev_rx (c src arg : Nat) : (s.ev c src arg).rx = s.rx := State.raise_rx ..
@[simp] theorem State.raise_tx (c src j arg : Nat) : (s.raise c src j arg).tx = s.tx := by
  obtain ⟨_, _, _, _, _, _, _, h⟩ := s.raise_shape c src j arg; rw [h]
@[simp] theorem State.ev_tx (c src arg : Nat) : (s.ev c src arg).tx = s.tx := State.raise_tx ..
@[simp] theorem State.raise_fh (c src j arg : Nat) : (s.raise c src j arg).fh = s.fh := by
  obtain ⟨_, _, _, _, _, _, _, h⟩ := s.raise_shape c src j arg; rw [h]
@[simp] theorem State.ev_fh (c src arg : Nat) : (s.ev c src arg).fh = s.fh := State.raise_fh ..
@[simp] theorem State.raise_trn (c src j arg : Nat) : (s.raise c src j arg).trn = s.trn := by
  obtain ⟨_, _, _, _, _, _, _, h⟩ := s.raise_shape c src j arg; rw [h]
@[simp] theorem State.ev_trn (c src arg : Nat) : (s.ev c src arg).trn = s.trn := State.raise_trn ..
@[simp] theorem State.raise_pwr (c src j arg : Nat) : (s.raise c src j arg).pwr = s.pwr := by
  obtain ⟨_, _, _, _, _, _, _, h⟩ := s.raise_shape c src j arg; rw [h]
@[simp] theorem State.ev_pwr (c src arg : Nat) : (s.ev c src arg).pwr = s.pwr := State.raise_pwr ..
@[simp] theorem State.raise_grp (c src j arg : Nat) : (s.raise c src j arg).grp = s.grp := by
  obtain ⟨_, _, _, _, _, _, _, h⟩ := s.raise_shape c src j arg; rw [h]
@[simp] theorem State.ev_grp (c src arg : Nat) : (s.ev c src arg).grp = s.grp := State.raise_grp ..
@[simp] theorem State.raise_pair (c src j arg : Nat) : (s.raise c src j arg).pair = s.pair := by
  obtain ⟨_, _, _, _, _, _, _, h⟩ := s.raise_shape c src j arg; rw [h]
@[simp] theorem State.ev_pair (c src arg : Nat) : (s.ev c src arg).pair = s.pair := State.raise_pair ..
@[simp] theorem State.raise_lanes (c src j arg : Nat) : (s.raise c src j arg).lanes = s.lanes := by
  obtain ⟨_, _, _, _, _, _, _, h⟩ := s.raise_shape c src j arg; rw [h]
@[simp] theorem State.ev_lanes (c src arg : Nat) : (s.ev c src arg).lanes = s.lanes := State.raise_lanes ..
@[simp] theorem State.raise_rzOut (c src j arg : Nat) : (s.raise c src j arg).rzOut = s.rzOut := by
  obtain ⟨_, _, _, _, _, _, _, h⟩ := s.raise_shape c src j arg; rw [h]
@[simp] theorem State.ev_rzOut (c src arg : Nat) : (s.ev c src arg).rzOut = s.rzOut := State.raise_rzOut ..
@[simp] theorem State.raise_fhOut (c src j arg : Nat) : (s.raise c src j arg).fhOut = s.fhOut := by
  obtain ⟨_, _, _, _, _, _, _, h⟩ := s.raise_shape c src j arg; rw [h]
@[simp] theorem State.ev_fhOut (c src arg : Nat) : (s.ev c src arg).fhOut = s.fhOut := State.raise_fhOut ..
@[simp] theorem State.raise_mgOut (c src j arg : Nat) : (s.raise c src j arg).mgOut = s.mgOut := by
  obtain ⟨_, _, _, _, _, _, _, h⟩ := s.raise_shape c src j arg; rw [h]
@[simp] theorem State.ev_mgOut (c src arg : Nat) : (s.ev c src arg).mgOut = s.mgOut := State.raise_mgOut ..
@[simp] theorem State.raise_smbAlarms (c src j arg : Nat) : (s.raise c src j arg).smbAlarms = s.smbAlarms := by
  obtain ⟨_, _, _, _, _, _, _, h⟩ := s.raise_shape c src j arg; rw [h]
@[simp] theorem State.ev_smbAlarms (c src arg : Nat) : (s.ev c src arg).smbAlarms = s.smbAlarms := State.raise_smbAlarms ..
@[simp] theorem State.raise_smbAlert (c src j arg : Nat) : (s.raise c src j arg).smbAlert = s.smbAlert := by
  obtain ⟨_, _, _, _, _, _, _, h⟩ := s.raise_shape c src j arg; rw [h]
@[simp] theorem State.ev_smbAlert (c src arg : Nat) : (s.ev c src arg).smbAlert = s.smbAlert := State.raise_smbAlert ..
@[simp] theorem State.raise_smbOut (c src j arg : Nat) : (s.raise c src j arg).smbOut = s.smbOut := by
  obtain ⟨_, _, _, _, _, _, _, h⟩ := s.raise_shape c src j arg; rw [h]
@[simp] theorem State.ev_smbOut (c src arg : Nat) : (s.ev c src arg).smbOut = s.smbOut := State.raise_smbOut ..
@[simp] theorem State.raise_irqOut (c src j arg : Nat) : (s.raise c src j arg).irqOut = s.irqOut := by
  obtain ⟨_, _, _, _, _, _, _, h⟩ := s.raise_shape c src j arg; rw [h]
@[simp] theorem State.ev_irqOut (c src arg : Nat) : (s.ev c src arg).irqOut = s.irqOut := State.raise_irqOut ..
@[simp] theorem State.raise_readOut (c src j arg : Nat) : (s.raise c src j arg).readOut = s.readOut := by
  obtain ⟨_, _, _, _, _, _, _, h⟩ := s.raise_shape c src j arg; rw [h]
@[simp] theorem State.ev_readOut (c src arg : Nat) : (s.ev c src arg).readOut = s.readOut := State.raise_readOut ..
@[simp] theorem State.raise_freeCtr (c src j arg : Nat) : (s.raise c src j arg).freeCtr = s.freeCtr := by
  obtain ⟨_, _, _, _, _, _, _, h⟩ := s.raise_shape c src j arg; rw [h]
@[simp] theorem State.ev_freeCtr (c src arg : Nat) : (s.ev c src arg).freeCtr = s.freeCtr := State.raise_freeCtr ..

end Sys2Proof.Machine
end

