-- ==== Sys2Proof/Laws/Act.lean ====
section
/-!
SUPPORT. The forms a command's meaning has: what `act`, `actPin`, `actJtag`, `actSmb` and `actCross` answer; and what one queue of a crossing holds after it or another is set.
-/
namespace Sys2Proof.Machine

open Sys2Proof (XqRef)

/-- A device that is not held: the command's effect, with the queue and the crossings left. -/
theorem act_next {f : State → State} {s : State} (h : s.held = false) : act f s = .next (s.settle (f s)) := by simp [act, h]

/-- A held device: nothing. -/
theorem act_held {f : State → State} {s : State} (h : s.held = true) : act f s = .next s := by simp [act, h]

theorem actPin_next (f : State → State) (s : State) : actPin f s = .next (s.settle (f s)) := rfl

theorem actJtag_next {f : State → State} {s : State} (h : s.boot.phase ≠ .por) : actJtag f s = .next (s.settle (f s)) := by
  simp [actJtag, actPin, h]

theorem actSmb_next {f : State → State} {s : State} (h : s.boot.phase ≠ .por) : actSmb f s = .next (s.settle (f s)) := by
  simp [actSmb, actPin, h]

theorem actCross_next {f : State → State} {s : State} (h : s.held = false) :
    actCross f s = .next { f s with pending := s.pending } := by simp [actCross, h]

@[simp] theorem State.settle_pending (s t : State) : (s.settle t).pending = s.pending := rfl

/-- A crossing that a command is not for is left, or empty once the device is held. -/
theorem State.settle_cross (s t : State) : (s.settle t).cross = if t.held then [] else s.cross := rfl

/-- Whether the device is held in POR or WARM. -/
theorem State.held_eq (s : State) : s.held = (decide (s.boot.phase = .por) || decide (s.boot.phase = .warm)) := by
  unfold State.held
  cases s.boot.phase <;> rfl

/-- A device that has started is not held. -/
theorem State.started_not_held {s : State} (h : s.boot.phase = .started) : s.held = false := by
  simp [State.held_eq, h]

theorem find_append_key {c : Nat} (x : Crossing) (m : List (Nat × Crossing)) (k : Nat) :
    (m.filter (fun e => decide (e.1 < k)) ++ [(k, x)] ++ m.filter (fun e => decide (k < e.1))).find? (fun e => e.1 == c) =
      if c = k then some (k, x) else m.find? (fun e => e.1 == c) := by
  induction m with
  | nil =>
    by_cases h : c = k
    · simp [h]
    · have : (k == c) = false := by simpa using fun q => h q.symm
      simp [h, this]
  | cons e m ih =>
    obtain ⟨a, v⟩ := e
    simp only [List.append_assoc, List.find?_append] at ih ⊢
    by_cases h : c = k
    · subst h
      have : ∀ n : List (Nat × Crossing), (n.filter (fun e => decide (e.1 < c))).find? (fun e => e.1 == c) = none := by
        intro n
        simp only [List.find?_eq_none, List.mem_filter, decide_eq_true_eq, beq_iff_eq]
        rintro e ⟨-, he⟩ hc
        omega
      simp [this]
    · have hk : (k == c) = false := by simpa using fun q => h q.symm
      simp only [h, if_false, List.find?_singleton, hk, Option.none_or, Bool.false_eq_true] at ih ⊢
      by_cases hac : a = c
      · subst hac
        rcases Nat.lt_or_gt_of_ne h with hl | hl
        · simp [hl]
        · have hn : ¬ a < k := by omega
          have : (m.filter (fun e => decide (e.1 < k))).find? (fun e => e.1 == a) = none := by
            simp only [List.find?_eq_none, List.mem_filter, decide_eq_true_eq, beq_iff_eq]
            rintro e ⟨-, he⟩ hc
            omega
          simp [hn, hl, this]
      · have hb : (a == c) = false := by simpa using hac
        rw [List.find?_cons_of_neg (by simp [hb])]
        rw [← ih]
        by_cases h1 : a < k
        · have h2 : ¬ k < a := by omega
          simp [h1, h2, hb]
        · by_cases h2 : k < a
          · simp [h1, h2, hb]
          · simp [h1, h2]

/-- A queue holds what it was set to. -/
@[simp] theorem State.xq_setXq_same (s : State) (q : XqRef) (c : Crossing) : (s.setXq q c).xq q = c := by
  unfold State.xq State.setXq
  simp only [find_append_key, if_true]

/-- Every other queue is left. -/
theorem State.xq_setXq_other (s : State) (q r : XqRef) (c : Crossing)
    (h : xqKey r.cross r.inst r.queue ≠ xqKey q.cross q.inst q.queue) : (s.setXq q c).xq r = s.xq r := by
  unfold State.xq State.setXq
  simp only [find_append_key, h, if_false]

end Sys2Proof.Machine
end

