-- ==== Sys2Proof/Laws/Bytes.lean ====
section
/-!
SUPPORT. Lengths of byte strings that commands build, and the registers that sending, answering and settling leave.
-/
namespace Sys2Proof.Machine

@[simp] theorem zeros_length (n : Nat) : (zeros n).length = n := by simp [zeros]

@[simp] theorem toLE_length : ∀ n v, (toLE n v).length = n
  | 0, _ => rfl
  | n + 1, v => by simp [toLE, toLE_length n]

@[simp] theorem toBE_length (n v : Nat) : (toBE n v).length = n := by simp [toBE]

@[simp] theorem State.settle_reg (s t : State) (a : Nat) : (s.settle t).reg a = t.reg a := rfl
@[simp] theorem State.settle_g (s t : State) (F : Fld) : (s.settle t).g F = t.g F := rfl
@[simp] theorem State.mgAnswer_g (s : State) (o : Nat) (q : Word) (c : Nat) (l : List Byte) (F : Fld) : (s.mgAnswer o q c l).g F = s.g F := rfl
@[simp] theorem State.mgSend_g (s : State) (o : Nat) (l : List Byte) (F : Fld) : (s.mgSend o l).g F = s.g F := rfl

/-- The record of a member that JOIN and DIGEST carry is 32 bytes. -/
theorem record_length (s : State) : s.record.length = 32 := by
  simp only [State.record, List.length_append, toLE_length, List.length_cons, List.length_nil]
  split
  · simp [Image.imgd, zeros_length]
  · simp [zeros_length]

end Sys2Proof.Machine
end

