-- ==== Sys2Proof/Laws/Regs.lean ====
section
/-!
SUPPORT. Bit fields and registers: what a field reads after it or another field has been set.
-/
namespace Sys2Proof.Machine

/-- A field replaced, by parts: the bits above it, the field, the bits below it. -/
theorem setBits_parts (v lo w x : Nat) :
    setBits v lo w x = (v / 2 ^ (lo + w) * 2 ^ w + x % 2 ^ w) * 2 ^ lo + v % 2 ^ lo := by
  unfold setBits bits
  rw [Nat.shiftLeft_eq, Nat.shiftLeft_eq, Nat.shiftRight_eq_div_pow, Nat.pow_add, ← Nat.div_div_eq_div_mul]
  have h1 := Nat.div_add_mod v (2 ^ lo)
  have h2 := Nat.div_add_mod (v / 2 ^ lo) (2 ^ w)
  generalize v / 2 ^ lo / 2 ^ w = a at *
  generalize v / 2 ^ lo % 2 ^ w = b at *
  generalize v % 2 ^ lo = c at *
  rw [← h2] at h1
  rw [← h1, Nat.add_mul, Nat.mul_add, Nat.mul_comm (2 ^ lo) b, Nat.mul_comm a (2 ^ w), Nat.mul_comm (2 ^ lo) (2 ^ w * a)]
  omega

/-- A field reads what was put in it. -/
@[simp] theorem bits_setBits_same (v lo w x : Nat) : bits (setBits v lo w x) lo w = x % 2 ^ w := by
  have hc : v % 2 ^ lo < 2 ^ lo := Nat.mod_lt _ (Nat.two_pow_pos lo)
  rw [setBits_parts, bits, Nat.shiftRight_eq_div_pow, Nat.mul_comm _ (2 ^ lo), Nat.mul_add_div (Nat.two_pow_pos lo),
    Nat.div_eq_of_lt hc, Nat.add_zero, Nat.mul_comm _ (2 ^ w), Nat.mul_add_mod, Nat.mod_mod]

/-- A field that lies above another is left by it. -/
theorem bits_setBits_above (v lo w x : Nat) {lo' : Nat} (w' : Nat) (h : lo + w ≤ lo') :
    bits (setBits v lo w x) lo' w' = bits v lo' w' := by
  obtain ⟨k, rfl⟩ := Nat.exists_eq_add_of_le h
  have hx : x % 2 ^ w < 2 ^ w := Nat.mod_lt _ (Nat.two_pow_pos w)
  have hc : v % 2 ^ lo < 2 ^ lo := Nat.mod_lt _ (Nat.two_pow_pos lo)
  have hd : setBits v lo w x / 2 ^ (lo + w) = v / 2 ^ (lo + w) := by
    rw [setBits_parts, Nat.pow_add, ← Nat.div_div_eq_div_mul, ← Nat.div_div_eq_div_mul, Nat.mul_comm _ (2 ^ lo),
      Nat.mul_add_div (Nat.two_pow_pos lo), Nat.div_eq_of_lt hc, Nat.add_zero, Nat.mul_comm _ (2 ^ w),
      Nat.mul_add_div (Nat.two_pow_pos w), Nat.div_eq_of_lt hx, Nat.add_zero]
  rw [bits, bits, Nat.shiftRight_eq_div_pow, Nat.shiftRight_eq_div_pow, Nat.pow_add _ (lo + w) k, ← Nat.div_div_eq_div_mul, hd,
    Nat.div_div_eq_div_mul]

/-- A field that lies below another is left by it. -/
theorem bits_setBits_below (v lo w x : Nat) {lo' w' : Nat} (h : lo' + w' ≤ lo) :
    bits (setBits v lo w x) lo' w' = bits v lo' w' := by
  have key : ∀ y : Nat, bits y lo' w' = y % 2 ^ lo / 2 ^ lo' % 2 ^ w' := by
    intro y
    rw [bits, Nat.shiftRight_eq_div_pow]
    obtain ⟨k, rfl⟩ := Nat.exists_eq_add_of_le h
    rw [Nat.pow_add, Nat.pow_add, Nat.mul_assoc, Nat.mod_mul_right_div_self, Nat.mod_mul_right_mod]
  rw [key, key v, setBits_parts, Nat.mul_comm _ (2 ^ lo), Nat.mul_add_mod, Nat.mod_mod]

/-- A word stays a word when one of its fields is set. -/
theorem setBits_lt {v lo w : Nat} (x : Nat) (hv : v < 2 ^ 32) (h : lo + w ≤ 32) : setBits v lo w x < 2 ^ 32 := by
  rw [setBits_parts]
  have hx : x % 2 ^ w < 2 ^ w := Nat.mod_lt _ (Nat.two_pow_pos w)
  have hc : v % 2 ^ lo < 2 ^ lo := Nat.mod_lt _ (Nat.two_pow_pos lo)
  obtain ⟨k, hk⟩ := Nat.exists_eq_add_of_le h
  have ha : v / 2 ^ (lo + w) < 2 ^ k := by
    rw [Nat.div_lt_iff_lt_mul (Nat.two_pow_pos _), ← Nat.pow_add, Nat.add_comm k, ← hk]
    exact hv
  have h1 : v / 2 ^ (lo + w) * 2 ^ w + x % 2 ^ w + 1 ≤ 2 ^ k * 2 ^ w := by
    have := Nat.mul_le_mul_right (2 ^ w) (Nat.succ_le_of_lt ha)
    rw [Nat.succ_mul] at this
    omega
  have h2 := Nat.mul_le_mul_right (2 ^ lo) h1
  rw [← Nat.pow_add, ← Nat.pow_add, Nat.add_mul] at h2
  have h3 : (2 : Nat) ^ (k + w + lo) = 2 ^ 32 := by rw [hk]; congr 1; omega
  omega

@[simp] theorem State.reg_setReg_same (s : State) (a : Nat) (v : Sys2Proof.Word) : (s.setReg a v).reg a = v :=
  sget_sset_same ..

theorem State.reg_setReg_other (s : State) {a c : Nat} (v : Sys2Proof.Word) (h : c ≠ a) : (s.setReg a v).reg c = s.reg c := by
  unfold State.reg State.setReg
  exact sget_sset_other (regReset a) (regReset c) s.regs v h

/-- A field reads what was put in it. -/
theorem State.g_p_same (s : State) (F : Fld) (v : Nat) (h : F.lo + F.width ≤ 32) : (s.p F v).g F = v % 2 ^ F.width := by
  unfold State.g State.p
  rw [State.reg_setReg_same, BitVec.toNat_ofNat, Nat.mod_eq_of_lt (setBits_lt _ (s.reg F.addr).isLt h), bits_setBits_same]

/-- A field of another register is left. -/
theorem State.g_p_other (s : State) (F G : Fld) (v : Nat) (h : G.addr ≠ F.addr) : (s.p F v).g G = s.g G := by
  unfold State.g State.p
  rw [State.reg_setReg_other _ _ h]

/-- Another field of the same register is left. -/
theorem State.g_p_disjoint (s : State) (F G : Fld) (v : Nat) (hF : F.lo + F.width ≤ 32) (ha : G.addr = F.addr)
    (h : F.lo + F.width ≤ G.lo ∨ G.lo + G.width ≤ F.lo) : (s.p F v).g G = s.g G := by
  unfold State.g State.p
  rw [ha, State.reg_setReg_same, BitVec.toNat_ofNat, Nat.mod_eq_of_lt (setBits_lt _ (s.reg F.addr).isLt hF)]
  rcases h with h | h
  · exact bits_setBits_above _ _ _ _ _ h
  · exact bits_setBits_below _ _ _ _ h

/-- A counter of 32 bits rises by the amount and stops at 0xFFFF_FFFF (R12). -/
theorem State.g_addc_same (s : State) (F : Fld) (n : Nat) (hlo : F.lo = 0) (hw : F.width = 32) :
    (s.addc F n).g F = min (s.g F + n) 0xFFFFFFFF := by
  unfold State.addc
  rw [State.g_p_same _ _ _ (by omega), hw]
  exact Nat.mod_eq_of_lt (by omega)

theorem State.g_addc_other (s : State) (F G : Fld) (n : Nat) (h : G.addr ≠ F.addr) : (s.addc F n).g G = s.g G :=
  State.g_p_other _ _ _ _ h

end Sys2Proof.Machine
end

