-- ==== Sys2Proof/Laws/Memory.lean ====
section
/-!
SUPPORT. Memory: what a byte reads as after a store or a fill, and that every operation over memory keeps the canonical form.
-/
namespace Sys2Proof.Machine

open Sys2Proof (Byte)

/-- Storing bytes leaves every address outside them. -/
theorem sget_storeBytes_other {c : Nat} : ∀ (bs : List Byte) (m : List Host.Cell) (a : Nat), ¬(a ≤ c ∧ c < a + bs.length) →
    sget 0 (storeBytes m a bs) c = sget 0 m c
  | [], _, _, _ => rfl
  | b :: bs, m, a, h => by
    simp only [List.length_cons] at h
    rw [storeBytes, sget_storeBytes_other bs _ _ (by omega), sget_sset_other 0 0 m b (by omega)]

/-- A byte stored reads back. -/
theorem sget_storeBytes_same : ∀ (bs : List Byte) (m : List Host.Cell) (a i : Nat) (h : i < bs.length),
    sget 0 (storeBytes m a bs) (a + i) = bs[i]
  | b :: bs, m, a, 0, _ => by
    rw [storeBytes, sget_storeBytes_other bs _ _ (by omega)]
    simp
  | b :: bs, m, a, i + 1, h => by
    rw [storeBytes, show a + (i + 1) = a + 1 + i by omega, sget_storeBytes_same bs _ _ i (by simpa using h)]
    rfl

/-- A store leaves every byte outside the bytes stored. -/
theorem State.ld1_st_other (s : State) {a c : Nat} {bs : List Byte} (h : ¬(a ≤ c ∧ c < a + bs.length)) :
    (s.st a bs).ld1 c = s.ld1 c := sget_storeBytes_other bs s.mem a h

/-- A byte stored reads back. -/
theorem State.ld1_st_same (s : State) (a i : Nat) (bs : List Byte) (h : i < bs.length) : (s.st a bs).ld1 (a + i) = bs[i] :=
  sget_storeBytes_same bs s.mem a i h

/-- A fill leaves every byte outside its range. -/
theorem State.ld1_zeroFill_other (s : State) {a n c : Nat} (h : ¬(a ≤ c ∧ c < a + n)) : (s.zeroFill a n).ld1 c = s.ld1 c :=
  sget_filter 0 (fun k => !decide (a ≤ k ∧ k < a + n)) (by simp; omega) s.mem

/-- A byte filled reads 0. -/
theorem State.ld1_zeroFill_same (s : State) {a n c : Nat} (h : a ≤ c ∧ c < a + n) : (s.zeroFill a n).ld1 c = 0 :=
  sget_filter_none 0 (fun k => !decide (a ≤ k ∧ k < a + n)) (by simpa using h) s.mem

theorem storeBytes_wf : ∀ (bs : List Byte) {m : List Host.Cell} (a : Nat), Memory.wf m = true → Memory.wf (storeBytes m a bs) = true
  | [], _, _, h => h
  | b :: bs, _, a, h => storeBytes_wf bs (a + 1) (swf_sset (fun _ => 0) a b h)

/-- A store keeps the canonical form. -/
theorem State.st_wf {s : State} (h : Memory.wf s.mem = true) (a : Nat) (bs : List Byte) : Memory.wf (s.st a bs).mem = true :=
  storeBytes_wf bs a h

/-- A store of a number keeps the canonical form. -/
theorem State.stN_wf {s : State} (h : Memory.wf s.mem = true) (a n v : Nat) : Memory.wf (s.stN a n v).mem = true := State.st_wf h ..

/-- A fill keeps the canonical form. -/
theorem State.zeroFill_wf {s : State} (h : Memory.wf s.mem = true) (a n : Nat) : Memory.wf (s.zeroFill a n).mem = true :=
  swf_filter (fun _ => 0) _ h

/-- Losing addresses keeps the canonical form. -/
theorem sfilter_wf {m : List Host.Cell} (p : Nat → Bool) (h : Memory.wf m = true) : Memory.wf (sfilter p m) = true :=
  swf_filter (fun _ => 0) _ h

theorem wakeLeaf_mem (s : State) (f k : Nat) : (s.wakeLeaf f k).mem = s.mem := by
  unfold State.wakeLeaf; split <;> rfl

theorem wakeBank_mem (s : State) (b : Nat) : (s.wakeBank b).mem = s.mem := by
  unfold State.wakeBank; split <;> rfl

theorem foldl_mem {α : Type} (g : State → α → State) (h : ∀ s x, (g s x).mem = s.mem) : ∀ (l : List α) (s : State), (l.foldl g s).mem = s.mem
  | [], _ => rfl
  | x :: l, s => by rw [List.foldl_cons, foldl_mem g h l, h]

/-- Waking banks leaves memory. -/
theorem State.wakeRange_mem (s : State) (a n : Nat) : (s.wakeRange a n).mem = s.mem := by
  unfold State.wakeRange
  split
  · exact foldl_mem _ (fun t i => wakeBank_mem t _) _ _
  · refine foldl_mem _ (fun t i => ?_) _ _
    split
    · exact wakeLeaf_mem ..
    · rfl
  · exact wakeLeaf_mem ..
  · rfl

/-- What a store at run time makes of memory. -/
theorem State.store_mem (s : State) (a : Nat) (bs : List Byte) : (s.store a bs).mem = storeBytes s.mem a bs := by
  unfold State.store
  split <;> simp only [State.addc, State.p, State.setReg, State.st, State.wakeRange_mem]

/-- A store at run time keeps the canonical form. -/
theorem State.store_wf {s : State} (h : Memory.wf s.mem = true) (a : Nat) (bs : List Byte) : Memory.wf (s.store a bs).mem = true := by
  rw [State.store_mem]
  exact storeBytes_wf bs a h

/-- A store at run time leaves every byte outside the bytes stored. -/
theorem State.ld1_store_other (s : State) {a c : Nat} {bs : List Byte} (h : ¬(a ≤ c ∧ c < a + bs.length)) :
    (s.store a bs).ld1 c = s.ld1 c := by
  unfold State.ld1
  rw [State.store_mem]
  exact sget_storeBytes_other bs s.mem a h

/-- A byte stored at run time reads back. -/
theorem State.ld1_store_same (s : State) (a i : Nat) (bs : List Byte) (h : i < bs.length) : (s.store a bs).ld1 (a + i) = bs[i] := by
  unfold State.ld1
  rw [State.store_mem]
  exact sget_storeBytes_same bs s.mem a i h

theorem loftFold_wf : ∀ (l : List LoftLine) {s : State}, Memory.wf s.mem = true →
    Memory.wf (l.foldl (fun t e => match e.stale with
      | some b => { t with mem := storeBytes t.mem (brnBase + 256 * e.line) b }
      | none => t) s).mem = true
  | [], _, h => h
  | e :: l, s, h => by
    rw [List.foldl_cons]
    refine loftFold_wf l ?_
    split
    · exact storeBytes_wf _ _ h
    · exact h

/-- Dropping the loft cache keeps the canonical form. -/
theorem State.loftDrop_wf {s : State} (h : Memory.wf s.mem = true) : Memory.wf s.loftDrop.mem = true :=
  loftFold_wf s.mems.loft (s := { s with mems := { s.mems with loft := [] } }) h

/-- Writing the loft cache back leaves memory: it holds what the lines hold. -/
theorem State.loftFlush_mem (s : State) (p : LoftLine → Bool) : (s.loftFlush p).mem = s.mem := rfl

theorem State.ringWrite_wf {s : State} (h : Memory.wf s.mem = true) (e : List Byte) : Memory.wf (s.ringWrite e).mem = true := by
  unfold State.ringWrite
  dsimp only
  split
  · exact h
  · exact State.st_wf h _ _

theorem ringWrites_wf (l : List (List Byte)) : ∀ {s : State}, Memory.wf s.mem = true →
    Memory.wf (l.foldl (fun t e => State.ringWrite t e) s).mem = true := by
  induction l with
  | nil => exact fun h => h
  | cons e l ih => exact fun h => ih (State.ringWrite_wf h e)

theorem State.flushHold_wf {s : State} (h : Memory.wf s.mem = true) : Memory.wf s.flushHold.mem = true := by
  unfold State.flushHold
  split
  · exact ringWrites_wf s.hold (s := { s with hold := [] }) h
  · exact h

/-- An event keeps the canonical form. -/
theorem State.raise_wf {s : State} (h : Memory.wf s.mem = true) (c src j arg : Nat) : Memory.wf (s.raise c src j arg).mem = true := by
  unfold State.raise
  dsimp only
  generalize hs1 : (if journalled c = true then _ else s.p Reg.SYS_EVR_SEQ _) = s1
  have h1 : Memory.wf s1.mem = true := by
    subst hs1
    split <;> exact h
  generalize hs2 : (if s1.ringReady = true then _ else _) = s2
  have h2 : Memory.wf s2.mem = true := by
    subst hs2
    split
    · exact State.ringWrite_wf (State.flushHold_wf h1) _
    · split <;> exact h1
  split
  · split
    · exact h2
    · exact h2
  · exact h2

theorem ssets_wf (g : Host.Cell → Nat) (l : List Host.Cell) : ∀ {m : List Host.Cell}, Memory.wf m = true →
    Memory.wf (l.foldl (fun m c => sset 0 m (g c) c.2) m) = true := by
  induction l with
  | nil => exact fun h => h
  | cons c l ih => exact fun h => ih (swf_sset (fun _ => 0) (g c) c.2 h)

/-- A copy of a range keeps the canonical form. -/
theorem State.copyMem_wf {s : State} (h : Memory.wf s.mem = true) (src dst n : Nat) : Memory.wf (s.copyMem src dst n).mem = true := by
  have hp : ∀ (t : State) (w : Nat), (t.setPoison w).mem = t.mem := fun t w => by unfold State.setPoison; split <;> rfl
  unfold State.copyMem
  dsimp only
  rw [foldl_mem _ (fun t w => hp t _)]
  exact ssets_wf (fun c => dst + (c.1 - src)) _ (State.zeroFill_wf h dst n)

/-- Reset memory is canonical. -/
theorem reset_mem_wf : Memory.wf State.reset.mem = true := rfl

end Sys2Proof.Machine
end

