-- ==== Sys2Proof/Laws/Events.lean ====
section
/-!
SUPPORT. Events: the registers an event leaves, its sequence number, the memory it leaves.
-/
namespace Sys2Proof.Machine

open Sys2Proof (Byte)

/-- The registers that an event can change (R35, R37, R38). -/
def eventRegs : List Nat := [0x104, 0x10C, 0x110, 0x114]

theorem State.reg_p_other (s : State) (F : Fld) (v : Nat) {a : Nat} (h : a ≠ F.addr) : (s.p F v).reg a = s.reg a :=
  State.reg_setReg_other s _ h

theorem State.reg_st (s : State) (a : Nat) (b : List Byte) (c : Nat) : (s.st a b).reg c = s.reg c := rfl

theorem State.ringWrite_reg {s : State} {e : List Byte} {a : Nat} (h1 : a ≠ 0x104) (h2 : a ≠ 0x10C) : (s.ringWrite e).reg a = s.reg a := by
  unfold State.ringWrite
  dsimp only
  split
  · exact State.reg_p_other _ _ _ h2
  · rw [State.reg_p_other _ _ _ h1, State.reg_st]

theorem ringWrites_reg {a : Nat} (h1 : a ≠ 0x104) (h2 : a ≠ 0x10C) : ∀ (l : List (List Byte)) (s : State),
    (l.foldl (fun t e => State.ringWrite t e) s).reg a = s.reg a
  | [], _ => rfl
  | e :: l, s => by rw [List.foldl_cons, ringWrites_reg h1 h2 l, State.ringWrite_reg h1 h2]

theorem State.flushHold_reg {s : State} {a : Nat} (h1 : a ≠ 0x104) (h2 : a ≠ 0x10C) : s.flushHold.reg a = s.reg a := by
  unfold State.flushHold
  split
  · exact ringWrites_reg h1 h2 _ _
  · rfl

/-- An event leaves every register but its own four. -/
theorem State.raise_reg {s : State} {a : Nat} (h : a ∉ eventRegs) (c src j arg : Nat) : (s.raise c src j arg).reg a = s.reg a := by
  simp only [eventRegs, List.mem_cons, List.not_mem_nil, or_false, not_or] at h
  obtain ⟨h1, h2, h3, h4⟩ := h
  unfold State.raise
  dsimp only
  generalize hs1 : (if journalled c = true then _ else s.p Reg.SYS_EVR_SEQ _) = s1
  have e1 : s1.reg a = s.reg a := by
    subst hs1
    split <;> exact State.reg_p_other s Reg.SYS_EVR_SEQ _ h4
  generalize hs2 : (if s1.ringReady = true then _ else _) = s2
  have e2 : s2.reg a = s1.reg a := by
    subst hs2
    split
    · rw [State.ringWrite_reg h1 h2, State.flushHold_reg h1 h2]
    · split
      · rfl
      · exact State.reg_p_other _ _ _ h2
  rw [← e1, ← e2]
  split
  · split
    · rfl
    · exact State.reg_p_other _ _ _ h3
  · rfl

/-- An event leaves every field of another register. -/
theorem State.raise_g {s : State} {F : Fld} (h : F.addr ∉ eventRegs) (c src j arg : Nat) : (s.raise c src j arg).g F = s.g F := by
  unfold State.g
  rw [State.raise_reg h]

theorem State.ev_g {s : State} {F : Fld} (h : F.addr ∉ eventRegs) (c src arg : Nat) : (s.ev c src arg).g F = s.g F :=
  State.raise_g h ..

/-- An event takes one sequence number (R33). -/
theorem State.raise_seq (s : State) (c src j arg : Nat) :
    (s.raise c src j arg).g Reg.SYS_EVR_SEQ = (s.g Reg.SYS_EVR_SEQ + 1) % 2 ^ 32 := by
  unfold State.raise
  dsimp only
  generalize hs1 : (if journalled c = true then _ else s.p Reg.SYS_EVR_SEQ _) = s1
  have e1 : s1.g Reg.SYS_EVR_SEQ = (s.g Reg.SYS_EVR_SEQ + 1) % 2 ^ 32 := by
    subst hs1
    split <;> exact State.g_p_same s Reg.SYS_EVR_SEQ _ (by decide)
  generalize hs2 : (if s1.ringReady = true then _ else _) = s2
  have e2 : s2.g Reg.SYS_EVR_SEQ = s1.g Reg.SYS_EVR_SEQ := by
    subst hs2
    unfold State.g
    split
    · rw [State.ringWrite_reg (by decide) (by decide), State.flushHold_reg (by decide) (by decide)]
    · split
      · rfl
      · rw [State.inc, State.addc, State.reg_p_other _ _ _ (by decide)]
  rw [← e1, ← e2]
  split
  · split
    · rfl
    · exact State.g_p_other _ _ _ _ (by decide)
  · rfl

/-- An event of no job takes one sequence number. -/
theorem State.ev_seq (s : State) (c src arg : Nat) : (s.ev c src arg).g Reg.SYS_EVR_SEQ = (s.g Reg.SYS_EVR_SEQ + 1) % 2 ^ 32 :=
  State.raise_seq ..

end Sys2Proof.Machine
end

