-- ==== Sys2Proof/WellFormed.lean ====
section
/-!
DEFINITION. Which commands can arrive at all: operands that the link, the frame or the field they come in can carry.
A command that is not well formed cannot be sent; its meaning is still a state (nothing of the model rests on this file).
-/
namespace Sys2Proof

/-- Why a command cannot arrive. -/
inductive IllFormed where
  /-- A management payload above 1,484 bytes (R60). -/
  | mgPayload
  /-- A rhizome payload above 8,192 bytes (R357). -/
  | rzPayload
  /-- A fronthaul body above 9,216 bytes (R340). -/
  | fhBody
  /-- A slot number at or above 80, the slots of a frame at the widest spacing (R202). -/
  | slotNo
  /-- A register access of no bytes. -/
  | access
  /-- A debug read of no bytes. -/
  | dbgLength
  /-- A crossing item of no bytes. -/
  | item
  /-- A summary of more than 32 junction sensors (R414). -/
  | sensors
  deriving DecidableEq, Repr

/-- The management request a command carries. -/
def Instr.mgReq : Instr → Option MgReq
  | .mgUnsupportedRequest _ r => some r
  | .identGet r | .certGet r | .regRead r | .regWrite r | .capSet r => some r
  | .timeServoIncr r | .timeServoStep r | .timeServoSet r | .timeServoLock r | .timeServoUnlock r => some r
  | .slotOpen r | .slotWrite r | .slotCommit r _ | .slotPrefer r => some r
  | .jobRebind r | .imgAdopt r | .warmReset r | .powerState r => some r
  | .challengeGet _ r | .certSubmit _ r _ | .debugClose _ r | .keyWrite _ r _ | .debugUnlockReserved _ r => some r
  | _ => none

/-- The rhizome frame a command carries. -/
def Instr.rzFrame : Instr → Option RzFrame
  | .rzFrameDrop x | .rzFrameForward x | .hello x | .delayReq x | .delayRsp x | .beacon x => some x
  | .join x | .admitFrame x | .refuse x | .membership x | .fenceReq x | .digest x => some x
  | .redUp x | .redDown x | .barArrive x | .barRelease x => some x
  | .pairSync x | .pairBlocks x | .pairModel x => some x
  | _ => none

/-- The fronthaul message a command carries. -/
def Instr.fhMsg : Instr → Option FhMsg
  | .ulPlan m | .dlPlan m | .dlTb m | .precoder m | .fhCtlBad m | .iqSection m => some m
  | _ => none

/-- Checks of the operands that belong to one command each. -/
def Instr.ownFault : Instr → Option IllFormed
  | .slotStartEdge _ _ slot => if slot.toNat < 80 then none else some .slotNo
  | .registerWrite a _ => if a.width = 0 then some .access else none
  | .rcCounterRead a => if a.width = 0 then some .access else none
  | .debugAccess (.read _ n) => if n = 0 then some .dbgLength else none
  | .crossingItemArrival _ _ item _ => if item = [] then some .item else none
  | .thermalSample t => if t.length ≤ 32 then none else some .sensors
  | _ => none

/-- The first reason why a command cannot arrive. -/
def Instr.illFormed (i : Instr) : Option IllFormed :=
  match i.mgReq, i.rzFrame, i.fhMsg with
  | some r, _, _ => if r.payload.length ≤ 1484 then none else some .mgPayload
  | _, some x, _ => if x.payload.length ≤ 8192 then none else some .rzPayload
  | _, _, some m => if m.body.length ≤ 9216 then none else some .fhBody
  | _, _, _ => i.ownFault

/-- The commands that can arrive. -/
def Instr.WellFormed (i : Instr) : Prop := i.illFormed = none

end Sys2Proof
end

