-- ==== Sys2Proof/Tests/Slice0.lean ====
section
/-!
SUPPORT. Tests of the model: terms that cannot arrive, the spec's worked examples, and for every statement of Obligations.lean with hypotheses the states and operands that meet them, clause by clause.
-/
set_option linter.all false
set_option Elab.async false

namespace Sys2Proof.Tests

open Sys2Proof Sys2Proof.Machine

/-! ### States and frames that the tests use -/

abbrev started : State := { State.reset with boot := { State.reset.boot with phase := .started, porN := true, warmN := true } }
abbrev linked : State := { started with mg := ⟨true, [], 0⟩ }
abbrev fielded : State := { started with fuses := { Fuses.blank with life := 2 } }
abbrev booting : State := { started with boot := { started.boot with phase := .starting } }
abbrev warm : State := { started with boot := { started.boot with phase := .warm } }
abbrev nx (o : Host.Outcome State Fault Refusal) : State := match o with | .next t => t | _ => State.reset
abbrev img0 : Image := ⟨0, zeros 256, [], []⟩
abbrev img1 : Image := ⟨0, zeros 6 ++ [1] ++ zeros 249, zeros 64, []⟩
abbrev mreq (p : List Byte) : MgReq := ⟨1, 7, p⟩
abbrev job0 : Job := { Job.none with bind := { JobRec.none with valid := true, role := 1, fronds := 1, channels := 1, ways := 1 } }
abbrev working : State := { (linked.setJst 0 1) with jobs := linked.jobs.set 0 job0, image := some img0 }
abbrev stored : State := ({ working with flashSize := 0x4000000, flash := [(25165830, 0), (25165831, 0), (25165836, 0)] }).p Reg.IMG_SLOT_STS_STATE_B 1
abbrev ringed : State := { (started.p Reg.SYS_EVR_BASE_SET 1) with mems := ⟨(List.range 1024).map (fun b => (b, 1)), [], [], []⟩ }
abbrev clocked : State := { linked with domA := { Domain.reset with sec := 5, ns := 500, reached := true }, domB := { Domain.reset with sec := 5, ns := 400, reached := true }, ticks := 77 }
abbrev ptpOn0 : State := (clocked.p (Reg.TIME_d_CFG_EN 0) 1).p (Reg.TIME_d_CFG_PORT 0) 16
abbrev ptpOn1 : State := { ptpOn0 with ptpA := { Ptp.reset with master := some 5 } }
abbrev pmsg (t : BitVec 4) : PtpMsg := ⟨16, BitVec.ofNat 8 (ptpOn0.g (Reg.TIME_d_CFG_PTPDOM 0)), t, 9, 5, 1, true, ⟨7, 8, 9⟩, 0⟩
abbrev capped : State := ((((linked.p Reg.PWR_CAP 600).p Reg.PWR_CEIL_AR_CEIL 3).p Reg.PWR_CEIL_LN_CEIL 2).p Reg.PWR_CEIL_FB_CEIL 1).p Reg.PWR_ISL_CFG_FB_MAX 2
abbrev bgJob : Job := { Job.none with bind := { JobRec.none with valid := true, kind := true, fronds := 3, sliceMs := 2 } }
abbrev slicing : State := { ((linked.setJst 0 1).setJst 1 2) with jobs := (linked.jobs.set 0 bgJob).set 1 bgJob, rings := [⟨3, 0, 0, none, false⟩] }
abbrev vw (op ty d b m imm : Nat) : Nat := op + 64 * ty + 512 * d + 32768 * b + 0x200000 * m + 0x1000000 * imm
abbrev vcmd : List Word := [0x800, 1, 0, 0, 0, 1, 0, 0xF, 0, 0xF, 1, 1, 1, 0xF, 0, 0]
abbrev vrun : VecRun := ⟨vcmd, 0, 0, #v[0x0002000000020001, 9, 0x0001000000070003, 0, 0, 0, 0, 0], #v[15, 3, 5, 2], #v[7, 8, 9, 1, 2, 3, 4, 5], Vector.replicate 16 0⟩
abbrev vrun2 : VecRun := { vrun with cmd := vcmd.set 1 2 }
abbrev vrunB : VecRun := { vrun with cmd := vcmd.set 13 0xB }
abbrev vdone : VecRun := { vrun with cmd := vcmd.set 0 0x80800, iter := 1 }
abbrev vpost : VecRun := { vrun with cmd := vcmd.set 2 0x2003, iter := 1 }
abbrev vecImg (w : Nat) : Image := ⟨0, zeros 256, [], [⟨3, 7, [1] ++ zeros 31 ++ toLE 4 w ++ zeros 92, .plain⟩]⟩
abbrev vecIn (w : Nat) (v : Vec) : State := { working with image := some (vecImg w), fronds := working.fronds.set 0 { Frond.idle with vec := v } }
abbrev vecAt (w : Nat) : State := vecIn w ⟨[], some vrun, [], false⟩
abbrev vecQ (l : List (List Word)) : State := vecIn 0 ⟨l, none, [], false⟩
abbrev detOn (w : Nat) : State := { (vecAt w) with image := some { (vecImg w) with header := zeros 12 ++ [2] ++ zeros 243 } }
abbrev core0 : SigCore := { SigCore.zero with d := #v[5, 0x00030007, 0xFFFF0002, 9, 4, 5, 6, 7, 8, 9, 10, 11, 12, 13, 14, 15], p := #v[0, 16, 0x18000, 0x30010, 0x20, 0, 0, 0], n := Vector.replicate 8 32, l := Vector.replicate 8 64, accRe := #v[0x7FFFFFFFFF, 3, 4, 5], ph := 0x10000000, frq := 0x01000000, ix := 40, pc := 9, mbi := [] }
abbrev cored (x : SigCore) : State := ({ working with fronds := working.fronds.set 0 { Frond.idle with sig := Frond.idle.sig.set 0 x } }).p (Reg.SIG_Cc_STS_STATE 0 0) 1
abbrev coredAt : State := cored core0
abbrev sigBits (dd sa sb imm x y : Nat) : SigOp := ⟨BitVec.ofNat 64 (dd * 2 ^ 8 + sa * 2 ^ 12 + sb * 2 ^ 16 + imm * 2 ^ 20 + x * 2 ^ 28 + y * 2 ^ 40)⟩
abbrev slotBits (st q p m z : Nat) : Nat := 1 + 2 * st + 4 * q + 16 * p + 128 * m + 1024 * z
abbrev opN : SigOp := sigBits 2 0 1 0x23 0 0
abbrev opL : SigOp := sigBits 2 0 1 0x23 (slotBits 0 3 1 1 0) 0
abbrev opM : SigOp := sigBits 2 0 1 0x23 (slotBits 0 3 1 1 0) (slotBits 1 1 2 3 1)
abbrev opBad : SigOp := sigBits 2 0 1 0x23 (slotBits 0 0 2 0 0) 0
abbrev opR : SigOp := sigBits 2 0 1 0 0 0
abbrev coreW (x : SigCore) (o : SigOp) : State := (cored x).st (sigBase 0 0 + 0x30000 + 8 * x.pc.toNat) (toLE 8 o.word.toNat)
abbrev coreN : State := coreW core0 opN
abbrev coreL : State := coreW core0 opL
abbrev coreM : State := coreW core0 opM
abbrev coreBad : State := coreW core0 opBad
abbrev coreR : State := coreW core0 opR
abbrev opRep : SigOp := ⟨BitVec.ofNat 64 (3 * 2 ^ 28 + 20 * 2 ^ 44)⟩
abbrev opRep0 : SigOp := ⟨BitVec.ofNat 64 (20 * 2 ^ 44)⟩
abbrev opPst : SigOp := ⟨BitVec.ofNat 64 (5 * 2 ^ 8 + 2 ^ 19 + 3 * 2 ^ 20)⟩
abbrev opPstB : SigOp := ⟨BitVec.ofNat 64 (0x100 * 2 ^ 8 + 2 ^ 19 + 2 ^ 20)⟩
abbrev opMv : SigOp := sigBits 2 4 1 0x23 0 0
abbrev coredMv : State := coreW { core0 with d := #v[5, 0, 0, 0, 0, 0, 0x80000002, 32, 0, 0, 0, 0, 0, 0, 0, 0] } opMv
abbrev cmd1 : PassCmd := { passOf 0 0 0 with pane := 0, op := 1, newstat := true, accInc := true, pitch := 1, stride := 8, blocks := 2, tile := 3, mValid := 5, nValid := 7, kValid := 30, strm := 64, stat := 4096 }
abbrev cmd6 : PassCmd := { cmd1 with fmtS := 6, fmtT := 6, blocks := 1, kValid := 32 }
abbrev cmdE (n : Nat) : PassCmd := { cmd1 with op := n, newstat := false }
abbrev tag2 : List TagCheck := [⟨true, 0, 1, 2⟩, ⟨false, 64, 1, 2⟩]
abbrev stat1 : StatReg := ⟨0, (List.range 512).map (fun i => BitVec.ofNat 8 (i * 7)), [], false⟩
abbrev repC : PassRep := ⟨.clean, 0, 0, 0⟩
abbrev repP : PassRep := ⟨.parity 3 2 1 0 true, 0, 0, 0⟩
abbrev arrIn (a : Arr) : State := { working with fronds := working.fronds.set 0 { Frond.idle with arr := a }, mem := [(leafBase 0 + 64, 3), (leafBase 0 + 65, 200), (leafBase 0 + 131, 9), (leafBase 0 + 0x60CA10, 77)] }
abbrev paneAt (l : List PassCmd) : State := arrIn { Frond.idle.arr with panes := Frond.idle.arr.panes.set 0 { Pane.empty with cfg := some ⟨2, 2, 4, 4⟩, queue := l, loaded := [stat1] } }
abbrev rec9 : List Byte := [9, 0x10, 8, 0, 23, 0, 0, 0, 1, 0, 0, 0, 0, 0, 0, 0]
abbrev sclAt1 : State := { started with mem := [(0x200000030, 9), (0x200000031, 0x10), (0x200000032, 8), (0x200000034, 23), (0x200000038, 1)] }
abbrev strAt (d : BitVec 256) : State := ({ working with fronds := working.fronds.set 0 { Frond.idle with streams := Frond.idle.streams.set 3 { Stream.idle with fetched := [(5, d)], next := 6 } }, mem := [(0x200000011, 0x0A), (0x200000040, 0x21), (0x200000042, 1), (0x200001003, 7), (0x200600005, 2), (0x200608001, 5), (0x200609000, 4)] }).p (Reg.STR_Sn_STS_STATE 0 3) 1
abbrev dLoop : BitVec 256 := BitVec.ofNat 256 (2 + 2 * 2 ^ 64 + 2 * 2 ^ 96 + 3 * 2 ^ 112 + 2 ^ 83 + 3 * 2 ^ 192 + 2 ^ 120)
abbrev dDrain : BitVec 256 := BitVec.ofNat 256 (3 + 3 * 2 ^ 79 + 7 * 2 ^ 85 + 2 ^ 91 + 1 * 2 ^ 96 + 0xFFFF * 2 ^ 112 + 64 * 2 ^ 128 + 1 * 2 ^ 146)
abbrev drainAt : State := (strAt dDrain).p (Reg.STR_TILEt_STATE 0 0) 2
abbrev dSpill : BitVec 256 := BitVec.ofNat 256 (4 + 2 * 2 ^ 64 + 1 * 2 ^ 71 + 4 * 2 ^ 96)
abbrev dReload : BitVec 256 := BitVec.ofNat 256 (4 + 2 * 2 ^ 64 + 1 * 2 ^ 71 + 2 ^ 79 + 4 * 2 ^ 96)
abbrev grnJob : State := { ({ (strAt 0) with jobs := working.jobs.set 0 { job0 with bind := { job0.bind with channels := 0xFFFFFF } }, fronds := working.fronds.set 0 { Frond.idle with streams := Frond.idle.streams.set 3 { Stream.idle with next := 0x100002 } }, mem := [(grnBase + 32 * 0x100002, 0x05), (grnBase + 32 * 0x100003, 0x15)] }) with mems := ⟨(List.range 1024).map (fun b => (b, 1)), [], [], []⟩ }
abbrev dSem : BitVec 256 := BitVec.ofNat 256 (5 + 4 * 2 ^ 8 + 2 * 2 ^ 20 + 6 * 2 ^ 24 + 3 * 2 ^ 36)
abbrev dBar : BitVec 256 := BitVec.ofNat 256 (6 + 24 * 2 ^ 64 + 9 * 2 ^ 96)
abbrev dBar1 : BitVec 256 := BitVec.ofNat 256 (6 + 8 * 2 ^ 64 + 9 * 2 ^ 96)
abbrev dLink : BitVec 256 := BitVec.ofNat 256 (7 + 2 * 2 ^ 64 + 3 * 2 ^ 96)
abbrev dMc : BitVec 256 := BitVec.ofNat 256 (1 + 1 * 2 ^ 70 + 2 * 2 ^ 76 + 1 * 2 ^ 192 + 48 * 2 ^ 208 + 1 * 2 ^ 224)
abbrev dXfer : BitVec 256 := BitVec.ofNat 256 (1 + 1 * 2 ^ 70 + 1 * 2 ^ 192 + 48 * 2 ^ 208 + 1 * 2 ^ 224)
abbrev flying (l : List Flight) : State := ({ working with fronds := working.fronds.set 0 { Frond.idle with streams := Frond.idle.streams.set 3 { Stream.idle with flight := l } } }).p (Reg.STR_Sn_STS_STATE 0 3) 1
abbrev tnsIn (s : State) : State := (((((s.p (Reg.STR_TNSt_0 0 0) 0x80).p (Reg.STR_TNSt_1_BASE_HI 0 0) 2).p (Reg.STR_TNSt_1_FILL 0 0) 0xEE).p (Reg.STR_TNSt_1_VALID 0 0) 1).p (Reg.STR_TNSt_2 0 0) 1).p (Reg.STR_TNSt_3_ROW_BYTES 0 0) 40 |>.p (Reg.STR_TNSt_3_PITCH 0 0) 2
abbrev tnsIn2 (s : State) : State := (((((tnsIn s).p (Reg.STR_TNSt_0 0 1) 0x100).p (Reg.STR_TNSt_1_BASE_HI 0 1) 2).p (Reg.STR_TNSt_1_VALID 0 1) 1).p (Reg.STR_TNSt_2 0 1) 1).p (Reg.STR_TNSt_3_ROW_BYTES 0 1) 64 |>.p (Reg.STR_TNSt_3_PITCH 0 1) 2
abbrev xferAt : State := tnsIn2 (strAt dXfer)
abbrev gInfo : GraphInfo := ⟨[], [], [], [(0, 3, 2)], [(0, 7, [4]), (0, 8, [3])], [], [], []⟩
abbrev mcAt : State := { (tnsIn2 (strAt dMc)) with image := some { img0 with sections := [⟨4, 0, [], .graph gInfo⟩] } }
abbrev waitW (s : State) (n o : Nat) : State := ((s.p (Reg.STR_Sn_STS_STATE 0 n) 2).p (Reg.STR_Sn_STS_WKIND 0 n) 1).p (Reg.STR_Sn_STS_WOBJ 0 n) o
abbrev cycled : State := waitW (waitW { working with image := some { img0 with sections := [⟨4, 0, [], .graph gInfo⟩] }, fronds := working.fronds.set 0 { Frond.idle with streams := (Frond.idle.streams.set 3 { Stream.idle with reports := 1 }).set 4 { Stream.idle with reports := 1 } } } 3 7) 4 8
abbrev watching : State := (({ (strAt dLoop) with ticks := 20005, fronds := working.fronds.set 0 { Frond.idle with streams := Frond.idle.streams.set 3 { Stream.idle with waitAt := some 5 } } }).p (Reg.STR_Sn_STS_STATE 0 3) 2).p (Reg.STR_Sn_STS_WKIND 0 3) 4
abbrev banked : State := { working with mems := ⟨(List.range 1024).map (fun b => (b, 1)), [], [], []⟩, mem := [(0x100000400, 5), (0x100000403, 0x80), (0x100000408, 7)] }
abbrev detBank : State := { banked with jobs := grnJob.jobs, image := some { img0 with header := zeros 12 ++ [2] ++ zeros 243 } }
abbrev al0 : Alloc := { (entryAlloc ([7, 1, 9, 0, 0, 0, 1, 0, 0xE0, 2, 4, 0, 0, 0, 0, 0] ++ zeros 16)) with models := true }
abbrev al1 : Alloc := { al0 with index := 8, path := 1, refDone := true }
abbrev rxP : RxSlot := ⟨10000, 5000000000, 0, [al0, al1], 0, [], false, 0, false, [], [], []⟩
abbrev rxS : RxSlot := { rxP with edge := true, released := 1, grid := [(gridKey 3 0 12, 5)] }
abbrev rxS13 : RxSlot := { rxS with released := 0x3FF7 }
abbrev rxSAll : RxSlot := { rxS with released := 0x3FFF }
abbrev rxSDec : RxSlot := { rxSAll with allocs := [{ al0 with decision := some 0 }, { al1 with decision := some 4, done := true }] }
abbrev rxBase : State := (((((clocked.setJst 0 1).p (Reg.FH_Pp_STS_LINK_UP 0) 1).p Reg.JOB_RX_CFG_NPORT 2).p Reg.JOB_RX_CFG_NPRB 2).p Reg.JOB_RX_ALIGN_ABSENT_SYM 9).p Reg.JOB_RX_CFG_SCS 0
abbrev rxHas (l : List RxSlot) : State := { rxBase with jobs := rxBase.jobs.set 0 job0, image := some img0, rx := ⟨l, [], [], [], [], []⟩ }
abbrev rxOn : State := rxHas [rxS]
abbrev rxPre : State := rxHas [rxP]
abbrev rxOn13 : State := rxHas [rxS13]
abbrev rxOnAll : State := rxHas [rxSAll]
abbrev rxOnG : State := { rxOnAll with jobs := rxOnAll.jobs.set 0 { job0 with bind := { job0.bind with channels := 0xFFFFFF } }, mems := ⟨(List.range 1024).map (fun b => (b, 1)), [], [], []⟩ }
abbrev rxOnDec : State := rxHas [rxSDec]
abbrev ulMsg (slot : Byte) (es : List Byte) : FhMsg := ⟨0, 0, 20, [1, 0, 4, 0x80, 0xF4, 1, slot, 0] ++ zeros 12 ++ es⟩
abbrev iqMsg (sym slot : Byte) : FhMsg := ⟨0, 0, 45, [0, 0, 9, 0x80, 0xF4, 1, slot, sym, 0, 0, 1, 0] ++ zeros 8 ++ [2] ++ (List.range 24).map (fun i => BitVec.ofNat 8 (10 * i))⟩
abbrev refV : RefDone := ⟨0, BitVec.ofNat 16 (allocTag 10000 0 7), 0x100010⟩
abbrev atNs (n : Nat) (s : State) : State := { s with domA := { s.domA with sec := 5, ns := BitVec.ofNat 30 n } }
abbrev rxGrd : State := atNs 900000000 rxOnAll
abbrev rxDl : State := atNs 900000000 rxOnDec
abbrev rxSD : RxSlot := { rxSAll with allocs := [{ al0 with decision := some 0 }, al1] }
abbrev thrEnt (r c sh : Nat) : List Byte := toLE 4 (r + c * 128 + sh * 0x4000 + r * 0x800000)
abbrev thrTab : List Byte := [1, 0] ++ zeros 10 ++ [16, 0, 0, 0] ++ [4, 5, 1, 0, 13, 0, 0, 1, 2, 3, 5] ++ zeros 5 ++
  thrEnt 0 0 3 ++ thrEnt 0 1 1 ++ thrEnt 0 2 0 ++ thrEnt 1 0 5 ++ thrEnt 1 1 0 ++ thrEnt 1 2 0 ++ thrEnt 1 3 0 ++ thrEnt 2 0 7 ++ thrEnt 2 3 0 ++ thrEnt 2 4 0 ++ thrEnt 3 0 0 ++ thrEnt 3 1 1 ++ thrEnt 3 4 0
abbrev thrImg : Image := ⟨0, zeros 256, [], [⟨0x0A, 7, thrTab, .plain⟩]⟩
abbrev thrCmd (op : Nat) : List Word := [BitVec.ofNat 32 op, 10, 0x100010, 0x100100, 0x100200, 120 + 2 * 0x1000000, 1, 0, 0x00280C00, 0x01000018, 0, 0x80000005, 0, 0, 0, 0]
abbrev thrCmdP (w : Word) : List Word := (thrCmd 0).set 6 w
abbrev thrRun0 (c : List Word) : ThrRun := ⟨c, true, false, [10, 0, 1, 1, 0, 0, 2, 0, 2, 0, 0, 0]⟩
abbrev thrWith (t : Thr) : State := { grnJob with image := some thrImg, fronds := grnJob.fronds.set 0 { Frond.idle with thr := t }, mem := [(grnBase + 32 * 0x100010, 0x35), (grnBase + 32 * 0x100010 + 1, 0xE1), (grnBase + 32 * 0x100010 + 2, 0x42)] }
abbrev thrAt (c : List Word) : State := thrWith ⟨[c], none, false⟩
theorem thrCmd1_encodes : ((thrAt (thrCmd 1)).thrEncode 0 (thrCmd 1) ((lsbBits ((thrAt (thrCmd 1)).ld (grnBase + 32 * cfield (thrCmd 1) 2 0 23) (ceilDiv (codeParam (thrParam (thrCmd 1))).tbs 8))).take (codeParam (thrParam (thrCmd 1))).tbs)).isSome = true := by decide +kernel
abbrev thrRunAt (c : List Word) : State := thrWith ⟨[thrCmd 1], some (thrRun0 c), false⟩
abbrev thrD : List Word := (thrCmd 0).set 1 7
abbrev thrL : List Word := (((thrCmd 1).set 1 7).set 2 0x100010).set 5 (312 + 2 * 0x1000000)
abbrev alD : Alloc := { al0 with decision := some 0, decode := thrParam thrD, buf := some 0x100010 }
abbrev alE : Alloc := { al0 with decision := some 0, decode := thrParam thrL, dec := some 0x100010, labelled := 1, done := true }
abbrev rxW (l : List Alloc) : RxSlot := { rxSAll with allocs := l }
abbrev thrRx (c : List Word) (l : List Alloc) : State := { (rxHas [rxW l]) with fronds := (thrRunAt c).fronds.set 0 { Frond.idle with thr := ⟨[], some { thrRun0 c with status := if cfield c 0 0 2 = 1 then [10, 0, 3, 1, 0, 0, 2, 0, 2, 0, 0, 0] else (thrRun0 c).status }, false⟩ } }
abbrev txGraph : GraphInfo := { gInfo with txLinks := [(5, 2, 77)] }
abbrev txBase0 : State := (((((clocked.setJst 1 1).p (Reg.FH_Pp_STS_LINK_UP 0) 7).p Reg.JOB_TX_CFG_NPORT 8).p Reg.JOB_TX_CFG_NPRB 20).p Reg.JOB_TX_CFG_SCS 0).p Reg.JOB_TX_CFG_GRAN 0
abbrev txBase : State := { txBase0 with jobs := txBase0.jobs.set 1 { job0 with bind := { job0.bind with role := 2, fhShare := [64, 64, 64, 64] } }, image := some { img0 with sections := [⟨4, 1, [], .graph txGraph⟩] } }
abbrev txOn (l : List TxSlot) : State := { txBase with tx := l }
abbrev dlMsg (k slot : Byte) : FhMsg := ⟨0, 0, 24, [k, 0, 4, 0x80, 0xF4, 1, slot, 0] ++ zeros 12⟩
abbrev txA : TxAlloc := txAlloc (entryAlloc ([7, 1, 9, 0, 0, 0, 1, 0, 0xE0, 2, 4, 0, 0, 0, 0, 0] ++ [0, 0, 0, 0, 64, 0, 0, 1] ++ zeros 8))
abbrev txS : TxSlot := ⟨10002, 5001000000, [txA, { txA with index := 8, started := true }], false, [], []⟩
abbrev tbMsg (k : Byte) : FhMsg := ⟨0, 0, 24, [k, 0, 4, 0x80, 0xF4, 1, 2, 7, 2, 0, 0, 0, 0x11, 0x22, 0x33]⟩
abbrev txSec (sym : BitVec 4) : TxSection := ⟨5, 500, 2, sym, 0, 1⟩
abbrev launchE : Launch := ⟨2, 77, 1, (5000000500 : Nat) % 2 ^ 32, 10002, 5, 1, 0, 1, [7], [1, 2, 3]⟩
abbrev txS0 : TxSlot := { txS with allocs := [txA] }
abbrev txFull : State := (txOn [txS0]).modFhp 0 (fun p => { p with launch := List.replicate 4096 launchE, busy := true })
abbrev txLate : State := { (txOn [txS0]) with domA := { Domain.reset with sec := 5, ns := 1900000 } }
abbrev txDue : State := (txOn [txS]).modFhp 0 (fun p => { p with launch := [launchE] })
abbrev txBusy : State := { txLate with tx := [txS] }.modFhp 0 (fun p => { p with busy := true })
abbrev owdC : CtlOut := ⟨1, 8, 16, 5, owdBody 6 2 ⟨5, 6, 7⟩⟩
abbrev owdQ : State := txBusy.modFhp 0 (fun p => { p with ctl := [owdC] })
abbrev owdM (a : Byte) : OwdMsg := ⟨1, 8, 6, a, ⟨0, 0, 0⟩, 0⟩
abbrev standing : State := { linked with image := some { img0 with sections := [⟨8, 0, zeros 22 ++ [2] ++ zeros 200, .plain⟩] } }
abbrev labA (n : Nat) : Alloc := { al0 with sym0 := 0, nsym := 1, pilotMap := 1, decision := some 0, done := true, crcOk := true, labelled := n }
abbrev labS (n : Nat) : RxSlot := { rxSAll with allocs := [labA n] }
abbrev labW : LabelRec := ⟨10000, 0⟩
abbrev trnJobs (s : State) : State := { (s.setJst 2 1) with jobs := s.jobs.set 2 { job0 with bind := { job0.bind with role := 3, kind := true, fronds := 8 } } }
abbrev trnBase (s : State) (k : Nat) : State := (((((s.p Reg.JOB_TRN_TRING_NREC 2000).p Reg.JOB_TRN_TRING_TSLOT k).p Reg.JOB_TRN_CFG_BATCH 32).p Reg.JOB_TRN_CFG_EVERY 8).p Reg.JOB_TRN_CFG_HOLD_MOD 64).p Reg.JOB_TRN_LABEL_WPRB 4 |>.p Reg.JOB_TRN_LABEL_SILO_BW 32 |>.p Reg.JOB_TRN_RES 1024
abbrev trnLab (n k : Nat) : State := { (trnBase (rxHas [labS n]) k) with trn := { State.reset.trn with credit := 100000 } }
abbrev labE : LabelEnc := ⟨7, 0x100010, 0x100100⟩
abbrev labSH : RxSlot := { (labS 2) with idx := 10047, start := 5023500000 }
abbrev trnHeld : State := { ((trnBase (rxHas [labSH]) 3).p Reg.JOB_TRN_HRING_NHREC 2000 |>.p Reg.JOB_TRN_HRING_HSLOT 3) with trn := { State.reset.trn with credit := 100000 } }
abbrev labRH : List Byte := trnHeld.siloRecord labSH { labW with idx := 10047 } 0
abbrev trnOn : State := trnJobs (trnBase working 3)
abbrev trnScl : State := { trnOn with trn := { trnOn.trn with slots := [(0, [⟨true, .int8, 1, [3], [1], [1], [], [(5, 2)]⟩])] } }
abbrev trnSnap : State := { ((trnLab 2 3).p Reg.JOB_TRN_RSEQ_LO 5 |>.p Reg.JOB_TRN_TRING_NREC 4) with trn := { State.reset.trn with credit := 100000, running := true, snap := some (0, 3) } }
abbrev gRec : GateRec := ⟨5, ⟨3, 10, 7, 9⟩, ⟨4, 10, 99999, 8⟩⟩
abbrev trnSettled : State := { trnOn with flashSize := 0x4000000, ticks := 10000000000000, boot := { trnOn.boot with flashOk := true }, trn := { trnOn.trn with settled := some (6, 77) } }
abbrev trnCk : State := { trnOn with trn := { trnOn.trn with since := 4095 } }
abbrev labR (k : Nat) : List Byte := (trnLab 2 k).siloRecord (labS 2) labW 0
abbrev labRS : List Byte := trnSnap.siloRecord (labS 2) labW 5
abbrev rzIdent : List Byte := [0, 0, 0, 0, 0, 0, 0, 0, 9, 0, 0, 0, 1, 0, 0, 0, 32, 0, 0, 0, 0, 0, 3, 0] ++ [1, 0, 0, 0, 0, 0, 1, 0] ++ [2, 0, 2, 0, 2, 0, 2, 0] ++ [2, 0, 3, 0, 5, 0, 3, 0] ++ [3, 0, 0, 0, 0, 0, 9, 0] ++ zeros 8
abbrev rzImg : Image := { img0 with sections := [⟨8, 0, rzIdent, .plain⟩] }
abbrev rzPorts : Vector RzPort 4 := Vector.replicate 4 ⟨none, [], [], [], [], true, [], 0, some ⟨5, 100, 0⟩, [7]⟩
abbrev rzRegs (s : State) : State := (List.finRange 4).foldl (fun s (p : Fin 4) => (s.p (Reg.RZ_Pp_STS_UP p) 1).p (Reg.RZ_Pp_STS_ROLE p) (if p.val = 0 then 1 else if p.val = 3 then 3 else 2)) s
abbrev rzOn : State := (rzRegs { (clocked.setJst 0 1) with image := some rzImg, jobs := working.jobs, grp := { State.reset.grp with ports := rzPorts, members := [0, 1, 2, 3, 4], version := 6 } }).p Reg.RZ_GRP_STS_SELF_ID 1
abbrev rzF (k : Byte) : RzFrame := ⟨0, 3, 1, k, 16, false, false, 1, 4, 9, 0, 77, []⟩
abbrev rzQ : State := ((rzOn.modRzp 1 (fun p => { p with q1 := [rzF 0x10, rzF 1] })).modRzp 2 (fun p => { p with q3 := [rzF 0x14] }))
abbrev rzQ4 : State := rzOn.modRzp 1 (fun p => { p with q4 := [(16, rzF 0x30)], busy := false })
abbrev joined : State := ((rzOn.p Reg.RZ_GRP_STS_ROLE 1).p Reg.RZ_GRP_LEAD_LEADER 0)
abbrev leading : State := (rzOn.p Reg.RZ_GRP_STS_ROLE 2).p Reg.RZ_GRP_LEAD_LEADER 1
abbrev bcF (k : Byte) : RzFrame := { (rzF k) with bc := true, port := 0 }
abbrev valid0 (s : State) : State := s.p (Reg.TIME_d_STS_VALID 0) 1
abbrev gsl : Nat := 10000
abbrev gcmd (k len : Nat) : List Word := [BitVec.ofNat 32 k, BitVec.ofNat 32 gsl, 0x100010, 0x100100, BitVec.ofNat 32 len, 0, 0, 0x100200]
abbrev grpSt : State := ((rzRegs { (clocked.setJst 0 1) with image := some rzImg, jobs := grnJob.jobs, mems := grnJob.mems, mem := [(grnBase + 32 * 0x100010, 0x35), (grnBase + 32 * 0x100010 + 9, 0xE1)], grp := { State.reset.grp with ports := rzPorts, members := [0, 1], version := 6 } }).p Reg.RZ_GRP_STS_SELF_ID 1).p Reg.JOB_RX_CFG_SCS 0
abbrev grpAt (role : Nat) (w : List Word) : State := { (grpSt.p Reg.RZ_GRP_STS_ROLE role) with fronds := grpSt.fronds.set 0 { Frond.idle with grp := [w] } }
abbrev grpLeaf (w : List Word) : State := grpAt 1 w
abbrev grpRoot (w : List Word) : State := { (grpAt 2 w) with grp := { grpSt.grp with members := [1, 4] } }
abbrev rootHas (o : GrpOp) : State := { (grpRoot []) with grp := { grpSt.grp with members := [1, 4], ops := [o] } }
abbrev leafHas (o : GrpOp) : State := { (grpLeaf []) with grp := { grpSt.grp with ops := [o] } }
abbrev gfr (k : Byte) : RzFrame := { (rzF k) with tag := BitVec.ofNat 32 (opTag 0 0 gsl false) }
abbrev pairOn (act : Nat) : State := { (rzOn.p Reg.RZ_PAIR_STS_ACTIVE act) with image := some { img0 with sections := [⟨8, 0, rzIdent.take 22 ++ [7] ++ rzIdent.drop 23, .plain⟩] }, pair := { State.reset.pair with sds := [(0, 10000, [1, 2, 3, 4, 5, 6, 7, 8])], blocks := [⟨0, 10000, 3, 77, [1]⟩] } }
abbrev pairF (k : Byte) (p : List Byte) : RzFrame := { (rzF k) with port := 3, payload := p }
abbrev syncP (n flags : Byte) : List Byte := zeros 14 ++ toLE 4 10000 ++ [0, flags, n, 0, 0, 1, 2, 3, 4, 5, 6, 7, 8]
abbrev blkP : List Byte := [0, 0, 0, 0] ++ toLE 4 10000 ++ toLE 4 1 ++ toLE 4 78
abbrev xfC : XferRep := ⟨0, .clean, 0⟩
abbrev barnTo (m : Nat) (s : State) : State := ((({ s with jobs := s.jobs.set 0 { job0 with bind := { job0.bind with barn := [⟨0, 0x2000, m⟩] } } }).p Reg.BRN_CFG_USABLE 14).p (Reg.STR_TNSt_0 0 1) 0).p (Reg.STR_TNSt_1_BASE_HI 0 1) 0x10
abbrev xferRo : State := barnTo 1 xferAt
abbrev xferFull : State := { (barnTo 2 xferAt) with fronds := xferAt.fronds.set 0 { xferAt.fronds[0] with streams := xferAt.fronds[0].streams.set 4 { Stream.idle with flight := [{ mkFlight dSem 5 false with reqB := 512 }] } } }
abbrev xferCross : State := { (xferRo.setJst 1 1) with jobs := (xferRo.jobs.set 0 { job0 with bind := { job0.bind with role := 3, barn := [⟨0, 0x2000, 2⟩] } }).set 1 { job0 with bind := { job0.bind with fronds := 2 } } }
abbrev detLate : State := { ({ (strAt dSem) with image := some { img0 with header := zeros 12 ++ [2] ++ zeros 243 }, fronds := working.fronds.set 0 { Frond.idle with streams := (Frond.idle.streams.set 3 { Stream.idle with fetched := [(5, 0x5)], next := 6 }).set 4 { Stream.idle with fetched := [(5, 0x5)], next := 6 } } }) with regs := ((strAt dSem).p (Reg.STR_Sn_STS_STATE 0 4) 1).regs }
abbrev fhIn0 : FhIn := ⟨0, true, 1, [], 0xAEFE, 0x10, 0, 4, 4, 64⟩

/-! ### Commands that cannot arrive are refused -/

theorem test_ill_mgPayload : (Instr.identGet ⟨1, 1, zeros 1485⟩).illFormed = some .mgPayload := by decide +kernel
theorem test_ill_rzPayload : (Instr.beacon ⟨0, 3, 1, 0x10, 16, false, false, 1, 4, 9, 0, 77, zeros 8193⟩).illFormed = some .rzPayload := by decide +kernel
theorem test_ill_fhBody : (Instr.ulPlan ⟨0, 0, 20, zeros 9217⟩).illFormed = some .fhBody := by decide +kernel
theorem test_ill_slotNo : (Instr.slotStartEdge .a 0 80).illFormed = some .slotNo := by decide +kernel
theorem test_ill_access : (Instr.registerWrite ⟨0x100, 0, 0⟩ 5).illFormed = some .access := by decide +kernel
theorem test_ill_dbgLength : (Instr.debugAccess (.read 0 0)).illFormed = some .dbgLength := by decide +kernel
theorem test_ill_sensors : (Instr.thermalSample (List.replicate 33 0)).illFormed = some .sensors := by decide +kernel
theorem test_ill_item : (Instr.crossingItemArrival ⟨0, 0, 0⟩ .other [] 0).illFormed = some .item := by decide +kernel
theorem test_well_formed : (Instr.slotStartEdge .a 1023 79).illFormed = none := by decide +kernel

/-! ### Worked examples of the spec -/

/-- R17, example of 00: 0x00000100 lies 512 ns after 0xFFFFFF00. -/
theorem test_compact_wrap : ctDiff 0x00000100 0xFFFFFF00 = 512 := by decide +kernel

/-- Example after R296: granary offset 0x01234560 is bank 72, in channel 1. -/
theorem test_bank_channel : 0x01234560 >>> 18 = 72 ∧ bankChannel 72 = 1 := by decide +kernel

/-- Example after R109: 56, 272 and −8 give 240 with NK 64, ZP_S 3 and ZP_T −2. -/
theorem test_zero_points :
    ({ State.reset with
        mem := [(leafBase 0 + 0x1000, 0xF8), (leafBase 0 + 0x1001, 0xFF), (leafBase 0 + 0x1002, 0xFF), (leafBase 0 + 0x1003, 0xFF), (accAddr 0 0 0 0, 56)]
        fronds := State.reset.fronds.set 0 { Frond.idle with cells := [(0, ⟨272, 0, 0, 0, 64, 3, -2, false, 0⟩)] } } : State).corrected
      0 ⟨0, 0, 0⟩ 0x1000 0 0 = 240 := by decide +kernel

/-- Example after R123: SHIFT 9 and MMAX 8 give SHIFT 10; then 6 keeps it; then 5 gives 9. -/
theorem test_adapt_up : ((adaptRecord ([9, 0x10, 8, 0] ++ zeros 12)).1).take 4 = [10, 0x10, 0x00, 0x80] := by decide +kernel
theorem test_adapt_stays : ((adaptRecord ([10, 0x10, 6, 0] ++ zeros 12)).1).take 1 = [10] := by decide +kernel
theorem test_adapt_down : ((adaptRecord ([10, 0x10, 5, 0] ++ zeros 12)).1).take 1 = [9] := by decide +kernel

/-- Example after R122: 91,000 under SHIFT 9 saturates in INT8 and measures 8. -/
theorem test_drain_saturates : drainElem (.int 8 true) 9 (Machine.Num.ofInt 91000) = ⟨127, true, false, some 8⟩ := by decide +kernel

/-- Example after R98: ARR_PANE_CFG3 0x00013812 is I0 2, H 2, J0 8, W 8. -/
theorem test_pane_cfg : paneOf 0x00013812 = ⟨2, 2, 8, 8⟩ := by decide +kernel

/-- The same example: word 0 0x00198823 is PANE 3, MM_SET, CI8, NEWSTAT, ACC_INC, LAST_K. -/
theorem test_pass_word : passOf 0x00198823 0 0 = { passOf 0 0 0 with pane := 3, op := 1, fmtS := 8, fmtT := 8, newstat := true, accInc := true, lastK := true } := by decide +kernel

/-- Example of R180: 0x000382C7 is MUL T1, T0, T7 of type FP16. -/
theorem test_vec_mul : vecDecode 0x000382C7 = some (7, ⟨.fp16, 1, 0, 7, 0, 0, false, 0⟩) := by decide +kernel

/-- The same program: 0x000010C2 is ST Q0, T1. -/
theorem test_vec_st : (vecDecode 0x000010C2).map (fun x => (x.1, x.2.ty, x.2.d, x.2.a)) = some (2, .fp16, 0, 1) := by decide +kernel

/-- Budget example after R251: TBS 303,240 in 36 blocks has K′ 8,448, and each block carries 11,264 of 405,504 coded bits. -/
theorem test_segments : ({ codeParam (zeros 16) with tbs := 303240, c := 36 } : CodeParam).kp = 8448 ∧ blockBits 405504 8 4 36 35 = 11264 := by decide +kernel

/-- Example after R346: 24 PRBs with W 9 are 680 bytes; a claim of 30 implies 845. -/
theorem test_section_size : (⟨0, 0, 0, 0, 9, 0, 24⟩ : SectHdr).size = 680 ∧ (⟨0, 0, 0, 0, 9, 0, 30⟩ : SectHdr).size = 845 := by decide +kernel

/-- Example after R234: a mean of 2^14 is code 193. -/
theorem test_noise_code : noiseCode (3840 * 2 ^ 14) 3840 = 193 := by decide +kernel

/-- Example after R275: the two record lengths. -/
theorem test_record_lengths : recLen [128, 172032, 1024, 21504, 9216] = 204032 ∧ recLen [128, 3784704, 22528, 473088, 202752] = 4483328 := by decide +kernel

/-- Example after R285: the set passes; with the incumbent's information it fails for reason 1. -/
theorem test_gate : gateWhy false ⟨7901, 3228622848, 0, 0⟩ ⟨7915, 3228622848, 296233000000, 0⟩ = 0 ∧
    gateWhy false ⟨7901, 3228622848, 0, 0⟩ ⟨7915, 3228622848, 0, 0⟩ = 2 := by decide +kernel

/-- Example after R399: 5 s is compact 0x2A05F200, an edge, the first slot of frame 500. -/
theorem test_slot_time :
    ({ State.reset with domA := { Domain.reset with sec := 5, ns := 0 } } : State).compact .a = 0x2A05F200 ∧
    State.reset.isEdge .a 2 5000000000 = true ∧ State.reset.slotIdxAt .a 2 5000000000 = 500 * 80 := by decide +kernel

/-- Example after R400: INCR 0x00FFFFD60E95 is in range. -/
theorem test_incr : incrOk 0x00FFFFD60E95 = true ∧ incrOk 0x010020000001 = false := by decide +kernel

/-- Example of 16: cube (5, 9) of F1 is location 0x00A913. -/
theorem test_location : locCode 3 1 (32 * 5 + 9) = 0x00A913 := by decide +kernel

/-! ### One step each -/

/-- R387: an empty queue is a tick of 1 ns at INCR 2^40. -/
theorem test_tick : (nx (step started)).ticks = started.ticks + 1 ∧ (nx (step started)).domA.ns = started.domA.ns + 1 := by decide +kernel

/-- R33 to R36: an event in the ring moves WR_IDX and SEQ by one. -/
theorem test_event : (ringed.ev 0x0101 0x40 0).g Reg.SYS_EVR_WR_IDX = 1 ∧ (ringed.ev 0x0101 0x40 0).g Reg.SYS_EVR_SEQ = ringed.g Reg.SYS_EVR_SEQ + 1 := by decide +kernel

/-- Example after R38: a full ring drops the event, counts it and numbers it. -/
theorem test_ring_full :
    let s := ((ringed.p Reg.SYS_EVR_RD_IDX 0x010).p Reg.SYS_EVR_WR_IDX 0x00F).p Reg.SYS_EVR_SEQ 0x2A00
    (s.ev 0x0101 0x40 0).g Reg.SYS_EVR_WR_IDX = 0x00F ∧ (s.ev 0x0101 0x40 0).g Reg.SYS_EVR_OVF_CNT = 1 ∧ (s.ev 0x0101 0x40 0).g Reg.SYS_EVR_SEQ = 0x2A01 := by decide +kernel

/-- R23: an arrival takes one credit of a crossing queue. -/
theorem test_crossing : ((nx (exec (.crossingItemArrival ⟨0, 0, 0⟩ .other [1] 5) started)).xq ⟨0, 0, 0⟩).credits = xqDepth 0 - 1 := by decide +kernel


/-- R261: the largest components are 64 in QPSK, 120 in 256-QAM and 126 in 4096-QAM. -/
theorem test_r261_largest : Machine.qamSymbol [false, true] = (64, -64) ∧ Machine.qamSymbol [false, false, true, true, true, true, true, true] = (120, 120) ∧
    Machine.qamSymbol [false, true, true, true, true, true, true, true, true, true, true, true] = (126, -126) := by decide

/-- R475: with t on a slot edge, the slot 5.12 s away is the one 5.12 s before. -/
theorem test_r475_far : State.reset.edgeOf .a 0 10240000000 10240 = 5120000000 ∧ State.reset.edgeOf .a 0 10240000000 10239 = 15359500000 := by decide +kernel

/-- R103, R362: a delay of 2,560 and a half times 1/64 ns goes to the even 2,560. -/
theorem test_r362_even : linkDelay 0 0 0 5243904 = 2560 := by decide +kernel
/-! ### The statements' hypotheses are met -/

theorem witness_EveryStepAnswersAndPopsQueue :
    (∃ (s : State) (c : Instr) (rest : List Instr), s.pending = c :: rest) ∧
    (∃ (s : State), s.pending = []) ∧
    (∃ (c : Instr) (s : State), s.held = true ∧ c.reachesHeld = false) ∧
    (∃ (c : Instr) (s : State), s.boot.phase = .por ∧ c.reachesPor = false) :=
  ⟨⟨{ started with pending := [.jtagTrst] }, .jtagTrst, [], by decide +kernel⟩,
   ⟨started, by decide +kernel⟩,
   ⟨.telemetry, warm, by decide +kernel⟩,
   ⟨.telemetry, State.reset, by decide +kernel⟩⟩

theorem witness_CrossingCreditsKeptByEveryStep :
    (∃ (s : State) (t : State), s.CreditsOk ∧ step s = .next t) ∧
    (∃ (s : State) (q : XqRef), s.CreditsOk ∧ xqExists q.cross q.inst = true) ∧
    (∃ (s : State) (q : XqRef), s.cross = []) ∧
    (∃ (s : State) (q : XqRef) (src : XqSrc) (b : List Byte) (n : Nat), s.held = false ∧ xqExists q.cross q.inst = true ∧ itemFits q.cross b = true) ∧
    (∃ (s : State) (q : XqRef) (n : Nat), s.held = false ∧ xqExists q.cross q.inst = true ∧ 0 < (s.xq q).items.length ∧ (s.xq q).waiting = []) ∧
    (∃ (s : State) (q : XqRef) (n : Nat) (w : XqSrc × List Byte), s.held = false ∧ xqExists q.cross q.inst = true ∧ 0 < (s.xq q).items.length ∧ (s.xq q).waiting[(s.xq q).nextHeld (laneQueue q)]? = some w) ∧
    (∃ (c : Crossing) (b : List Byte) (l : List (XqSrc × List Byte)) (k : Nat), c.last = .thresher ∧ c.waiting = (.thresher, b) :: l ∧ l.findIdx? (fun x => x.1 == .mover) = some k) :=
  ⟨⟨started, nx (step started), by unfold State.CreditsOk; decide, rfl⟩,
   ⟨started, ⟨0, 0, 0⟩, by unfold State.CreditsOk; decide, rfl⟩,
   ⟨started, ⟨0, 0, 0⟩, by decide +kernel⟩,
   ⟨started, ⟨0, 0, 0⟩, .other, [1], 5, by decide +kernel⟩,
   ⟨{ started with cross := [(0, ⟨[[1]], [], 15, .other⟩)] }, ⟨0, 0, 0⟩, 5, by decide +kernel⟩,
   ⟨{ started with cross := [(64, ⟨[[1]], [(.thresher, [2]), (.mover, [3])], 0, .thresher⟩)] }, ⟨2, 0, 0⟩, 5, (.mover, [3]), by decide +kernel⟩,
   ⟨⟨[], [(.thresher, [2]), (.mover, [3])], 0, .thresher⟩, [2], [(.mover, [3])], 0, by decide +kernel⟩⟩

theorem witness_ResetInputsActAsSpecified :
    (∃ (s : State) (m : Bool) (a : BitVec 3), s.boot.phase = .por) ∧
    (∃ (s : State), s.held = false) ∧
    (∃ (s : State), s.boot.phase = .warm ∧ s.boot.warmCause = false ∧ s.boot.hotWait = false) ∧
    (∃ (s : State) (r : Fin 8), s.held = false) ∧
    (∃ (s : State), s.boot.phase = .warm ∧ s.boot.warmN = true ∧ s.boot.hotWait = false) ∧
    (∃ (s : State), s.boot.phase ≠ .por ∧ s.g Reg.PWR_STS_STATE = 2) ∧
    (∃ (s : State), s.boot.phase = .safe) :=
  ⟨⟨State.reset, true, 5#3, by decide +kernel⟩,
   ⟨started, by decide +kernel⟩,
   ⟨warm, by decide +kernel⟩,
   ⟨started, (2 : Fin 8), by decide +kernel⟩,
   ⟨warm, by decide +kernel⟩,
   ⟨started.p Reg.PWR_STS_STATE 2, by decide +kernel⟩,
   ⟨{ started with boot := { started.boot with phase := .safe } }, by decide +kernel⟩⟩

theorem witness_PinLevelsAreTakenAndShown_1 :
    (∃ (s : State), s.boot.phase ≠ .por) ∧
    (∃ (s : State), s.boot.phase ≠ .por) ∧
    (∃ (s : State), s.held = false) ∧
    (∃ (s : State), s.held = false) ∧
    (∃ (s : State) (low : Bool), s.boot.phase ≠ .por) ∧
    (∃ (s : State) (low : Bool), s.boot.phase ≠ .por) ∧
    (∃ (s : State), s.held = false ∧ s.boot.caplimN = false ∧ s.boot.longRaised = false ∧ s.boot.caplimAt + 10000000000 < s.ticks) ∧
    (∃ (s : State), s.boot.phase = .started ∧ s.g Reg.PWR_STS_STATE ≠ 0 ∧ s.pwr.trans = none ∧ s.pwr.tripped = false) ∧
    (∃ (s : State) (w : Nat), s.held = false ∧ w < 20) ∧
    (∃ (s : State) (w : Nat), s.held = false ∧ 20 ≤ w ∧ w ≤ 100000000 ∧ s.pps.lastEdge = none) :=
  ⟨⟨started, by decide +kernel⟩,
   ⟨started, by decide +kernel⟩,
   ⟨started, by decide +kernel⟩,
   ⟨started, by decide +kernel⟩,
   ⟨started, true, by decide +kernel⟩,
   ⟨started, true, by decide +kernel⟩,
   ⟨{ started with boot := { started.boot with caplimN := false }, ticks := 10000000001 }, by decide +kernel⟩,
   ⟨started.p Reg.PWR_STS_STATE 1, by decide +kernel⟩,
   ⟨started, 19, by decide +kernel⟩,
   ⟨started, 20, by decide +kernel⟩⟩

theorem witness_PinLevelsAreTakenAndShown_2 :
    (∃ (s : State) (w : Nat) (k : Nat), s.held = false ∧ 20 ≤ w ∧ w ≤ 100000000 ∧ s.pps.lastEdge = some k ∧ s.ticks - k < 900000000) ∧
    (∃ (s : State) (w : Nat), s.held = false ∧ 100000000 < w) ∧
    (∃ (s : State), s.held = false ∧ s.pps.lastEdge.getD 0 + 1100000000 ≤ s.ticks) ∧
    (∃ (s : State) (l : Fin 33) (v : Bool), s.boot.phase ≠ .por) ∧
    (∃ (s : State) (l : Fin 33) (v : Bool), s.boot.phase ≠ .por) ∧
    (∃ (s : State) (l : Fin 33), s.held = false) ∧
    (∃ (s : State) (l : Fin 33) (k : Nat), s.held = false ∧ (s.lanes.get l).lossAt = some k ∧ k + 10000000 ≤ s.ticks ∧ (s.lanes.get l).detect = false) ∧
    (∃ (s : State) (l : Fin 33) (k : Nat), s.held = false ∧ (s.lanes.get l).lossAt = some k ∧ k + 10000000 ≤ s.ticks ∧ (s.lanes.get l).detect = true ∧ l.val < 32 ∧ ((∀ e ∈ s.flt.hist, e.loc = locCode 5 15 l → 86400 ≤ s.g Reg.FLT_UPTIME - e.first))) ∧
    (∃ (s : State) (l : Fin 33) (k : Nat), s.held = false ∧ (s.lanes.get l).lossAt = some k ∧ k + 10000000 ≤ s.ticks ∧ (s.lanes.get l).detect = true ∧ l.val < 32 ∧ (s.flt.hist.find? (fun e => e.loc == locCode 5 15 l)).any (fun e => decide (s.g Reg.FLT_UPTIME - e.first < 86400)) = true) ∧
    (∃ (s : State) (k : LinkRef), s.held = false ∧ s.g Reg.PWR_STS_STATE ≠ 2 ∧ (k = .mg ∨ s.boot.phase ≠ .safe) ∧ ((∀ p, k = .rz p → s.g (Reg.RZ_Pp_STS_ROLE p) ≠ 0)) ∧ s.linkLanes k ≠ [] ∧ s.linkInUse k = true ∧ (∀ l ∈ s.linkLanes k, (s.lanes.get l).detect = true)) :=
  ⟨⟨{ started with pps := { started.pps with lastEdge := some 0 }, ticks := 899999999 }, 100000000, 0, by decide +kernel⟩,
   ⟨started, 100000001, by decide +kernel⟩,
   ⟨{ started with pps := { started.pps with badRun := 2 }, ticks := 1100000000 }, by decide +kernel⟩,
   ⟨started, (3 : Fin 33), true, by decide +kernel⟩,
   ⟨started, (3 : Fin 33), true, by decide +kernel⟩,
   ⟨started, (3 : Fin 33), by decide +kernel⟩,
   ⟨{ started with lanes := started.lanes.set 3 ⟨false, some 0⟩, ticks := 10000000 }, (3 : Fin 33), 0, by decide +kernel⟩,
   ⟨{ started with lanes := started.lanes.set 3 ⟨true, some 0⟩, ticks := 10000000 }, (3 : Fin 33), 0, by decide +kernel⟩,
   ⟨{ started with lanes := started.lanes.set 3 ⟨true, some 0⟩, ticks := 10000000, flt := { started.flt with hist := [⟨locCode 5 15 3, 0⟩] } }, (3 : Fin 33), 0, by decide +kernel⟩,
   ⟨{ started with lanes := Vector.replicate 33 ⟨true, none⟩ }, LinkRef.mg, by decide +kernel⟩⟩

theorem witness_PinLevelsAreTakenAndShown_3 :
    ∃ (s : State), s.boot.phase ≠ .por :=
  ⟨started, by decide +kernel⟩

theorem witness_StartSequenceCommandsAct_1 :
    (∃ (s : State), s.boot.phase = .starting) ∧
    (∃ (s : State) (r : Fin 5), s.boot.phase = .starting ∧ r ≠ 0) ∧
    (∃ (s : State) (i : SfdpInfo), s.boot.phase = .starting ∧ sfdpOk i = true) ∧
    (∃ (s : State) (i : SfdpInfo), s.boot.phase = .starting ∧ sfdpOk i = false) ∧
    (∃ (s : State), s.boot.phase = .starting) ∧
    (∃ (s : State), s.boot.phase = .starting ∧ s.boot.flashOk = true ∧ s.boot.selfOk = true ∧ s.boot.dirOk = false) ∧
    (∃ (s : State), s.boot.phase = .safe ∧ s.boot.flashOk = true) ∧
    (∃ (s : State) (im : Image) (x : SecExtra), s.boot.phase = .starting ∧ s.image = some im ∧ s.boot.loaded < im.count ∧ s.boot.memOk = false ∧ s.boot.barnOk = false) ∧
    (∃ (s : State), s.boot.phase = .starting ∧ s.boot.memOk = false ∧ s.image = none) ∧
    (∃ (s : State) (b : Fin 1024) (k : Nat), s.boot.phase = .starting ∧ s.boot.memOk = false ∧ s.image = none ∧ s.bank b ≠ 3 ∧ s.boot.ringKept.map ringBankOf ≠ some b.val ∧ s.freeSpare = some k) :=
  ⟨⟨booting, by decide +kernel⟩,
   ⟨booting, (1 : Fin 5), by decide +kernel⟩,
   ⟨booting, (⟨0, 512, true⟩ : SfdpInfo), by decide +kernel⟩,
   ⟨booting, (⟨0, 256, true⟩ : SfdpInfo), by decide +kernel⟩,
   ⟨booting, by decide +kernel⟩,
   ⟨{ booting with boot := { booting.boot with selfOk := true, flashOk := true } }, by decide +kernel⟩,
   ⟨{ booting with boot := { booting.boot with phase := .safe, flashOk := true }, flash := [(0, 0)], flashSize := 0x4000000 }, by decide +kernel⟩,
   ⟨{ booting with image := some img1 }, img1, SecExtra.plain, by decide +kernel⟩,
   ⟨booting, by decide +kernel⟩,
   ⟨booting, (0 : Fin 1024), 0, by decide +kernel⟩⟩

theorem witness_StartSequenceCommandsAct_2 :
    (∃ (s : State) (n : Nat) (c : Fin 2), s.boot.phase = .starting ∧ s.boot.barnOk = false ∧ s.image = none ∧ barnPart n = true) ∧
    (∃ (s : State) (n : Nat) (m : Nat) (c : Fin 2), s.boot.phase = .starting ∧ s.boot.barnOk = false) ∧
    (∃ (s : State) (im : Image), s.boot.phase = .starting ∧ s.image = some im ∧ s.boot.loaded = im.count ∧ s.boot.dirOk = true ∧ s.boot.memOk = true ∧ s.boot.barnOk = true) ∧
    (∃ (s : State) (im : Image) (n : Nat), s.boot.phase = .started ∧ s.g Reg.PWR_STS_STATE = 0 ∧ s.boot.confirmed = false ∧ s.image = some im ∧ s.boot.runAt + 10000000000 ≤ s.ticks ∧ im.hdr 16 4 ≤ s.fuses.arb) ∧
    (∃ (s : State) (d : FuseDue) (ds : List FuseDue) (n : Nat), s.held = false ∧ s.fuses.due = d :: ds ∧ s.canFuse = true) :=
  ⟨⟨booting, 16, (0 : Fin 2), by decide +kernel⟩,
   ⟨booting, 16, 16, (1 : Fin 2), by decide +kernel⟩,
   ⟨{ booting with boot := { booting.boot with dirOk := true, memOk := true, barnOk := true }, image := some img0 }, img0, by decide +kernel⟩,
   ⟨{ started with image := some img0, ticks := 10000000000 }, img0, 768, by decide +kernel⟩,
   ⟨{ started with fuses := { Fuses.blank with due := [.arb] } }, FuseDue.arb, [], 768, by decide +kernel⟩⟩

theorem witness_ManagementRequestsAreAnswered_1 :
    (∃ (s : State) (x : MgIn), s.held = false ∧ s.mg.up = true ∧ x.etherType = 0x88B5 ∧ x.cls ≠ 2) ∧
    (∃ (s : State) (x : MgIn), s.held = false ∧ s.mg.up = true ∧ x.etherType ≠ 0x88B5 ∧ x.etherType ≠ 0x88F7) ∧
    (∃ (s : State) (x : MgIn), s.held = false ∧ s.mg.up = true ∧ x.etherType = 0x88B5 ∧ s.g64 Reg.MG_PEER_MAC_LO Reg.MG_PEER_MAC_HI ≠ 0 ∧ x.src.toNat ≠ s.g64 Reg.MG_PEER_MAC_LO Reg.MG_PEER_MAC_HI) ∧
    (∃ (s : State) (x : MgIn), s.held = false ∧ s.mg.up = true ∧ x.etherType = 0x88F7 ∧ ptpAddr x.dst = true) ∧
    (∃ (s : State) (op : BitVec 16) (r : MgReq), s.held = false ∧ s.mg.up = true ∧ op.toNat ∉ mgRequests) ∧
    (∃ (s : State) (r : MgReq), s.held = false ∧ s.mg.up = true ∧ r.ver ≠ 1) ∧
    (∃ (s : State) (r : MgReq), s.held = false ∧ s.mg.up = true ∧ r.ver = 1 ∧ r.payload = []) ∧
    (∃ (s : State) (r : MgReq) (k : Nat), s.held = false ∧ s.mg.up = true ∧ r.ver = 1 ∧ k < ceilDiv s.fuses.cert.length 1024 ∧ k < 65536 ∧ r.payload = toLE 2 k ++ [0, 0]) ∧
    (∃ (s : State) (r : MgReq), s.held = false ∧ s.mg.up = true ∧ r.ver = 1 ∧ r.payload.length = 8 ∧ regSpan r.payload = true) ∧
    (∃ (s : State) (r : MgReq), s.boot.phase = .started ∧ s.mg.up = true ∧ r.ver = 1 ∧ r.payload.length = 8 + 4 * byteAt r.payload 0 ∧ regSpan r.payload = true) :=
  ⟨⟨linked, (⟨0x88B5, 0, 0, 3⟩ : MgIn), by decide +kernel⟩,
   ⟨linked, (⟨0x0800, 0, 0, 2⟩ : MgIn), by decide +kernel⟩,
   ⟨linked.setReg Reg.MG_PEER_MAC_LO.addr 1, (⟨0x88B5, 0, 2, 2⟩ : MgIn), by decide +kernel⟩,
   ⟨linked, (⟨0x88F7, 0x011B19000000, 2, 2⟩ : MgIn), by decide +kernel⟩,
   ⟨linked, 0x7777#16, mreq [], by decide +kernel⟩,
   ⟨linked, ⟨2, 7, []⟩, by decide +kernel⟩,
   ⟨linked, mreq [], by decide +kernel⟩,
   ⟨{ linked with fuses := { Fuses.blank with cert := zeros 1025 } }, mreq (toLE 2 1 ++ [0, 0]), 1, by decide +kernel⟩,
   ⟨linked, mreq [1, 0, 0, 0, 0, 0, 0, 0], by decide +kernel⟩,
   ⟨linked, mreq [1, 0, 0, 0, 0, 0, 0, 0, 1, 0, 0, 0], by decide +kernel⟩⟩

theorem witness_ManagementRequestsAreAnswered_2 :
    (∃ (s : State) (r : MgReq), s.boot.phase = .started ∧ s.mg.up = true ∧ r.ver = 1 ∧ r.payload.length = 4 ∧ zeroRange r.payload 2 2 = true ∧ 240 ≤ le r.payload 0 2 ∧ le r.payload 0 2 ≤ 720 ∧ s.pwr.sheds = [] ∧ s.pwr.hold = false) ∧
    (∃ (s : State) (r : MgReq), s.boot.phase = .started ∧ s.mg.up = true ∧ r.ver = 1 ∧ (le r.payload 0 2 < 240 ∨ 720 < le r.payload 0 2)) ∧
    (∃ (s : State) (r : MgReq), s.held = false ∧ s.mg.up = true ∧ r.ver = 1 ∧ r.payload = []) ∧
    (∃ (s : State), s.held = false ∧ s.boot.warmDue = true ∧ s.boot.warmN = true ∧ s.boot.warmCause = false ∧ sx 16 (s.g Reg.PWR_TEMP_T) < 800) ∧
    (∃ (s : State), s.held = false) :=
  ⟨⟨linked, mreq (toLE 2 240 ++ [0, 0]), by decide +kernel⟩,
   ⟨linked, mreq (toLE 2 721 ++ [0, 0]), by decide +kernel⟩,
   ⟨linked, mreq [], by decide +kernel⟩,
   ⟨{ started with boot := { started.boot with warmDue := true } }, by decide +kernel⟩,
   ⟨started, by decide +kernel⟩⟩

theorem witness_SlotAndAdoptionRequestsAct_1 :
    (∃ (s : State) (r : MgReq) (k : Fin 2), s.held = false ∧ s.mg.up = true ∧ r.ver = 1 ∧ r.payload = [BitVec.ofNat 8 k.val, 0, 0, 0] ∧ s.adopting = false ∧ s.flashSize ≠ 0 ∧ s.runSlot ≠ some k) ∧
    (∃ (s : State) (r : MgReq) (o : OpenSlot), s.held = false ∧ s.mg.up = true ∧ r.ver = 1 ∧ s.adopting = false ∧ s.openSlot = some o ∧ r.payload.length = 8 + le r.payload 4 2 ∧ 1 ≤ le r.payload 4 2 ∧ le r.payload 4 2 ≤ 1024 ∧ zeroRange r.payload 6 2 = true ∧ le r.payload 0 4 + le r.payload 4 2 ≤ s.slotSize) ∧
    (∃ (s : State) (r : MgReq) (o : OpenSlot) (l : List SecExtra), s.held = false ∧ s.mg.up = true ∧ r.ver = 1 ∧ r.payload = [] ∧ s.adopting = false ∧ s.openSlot = some o) ∧
    (∃ (s : State) (r : MgReq) (k : Fin 2), s.held = false ∧ s.mg.up = true ∧ r.ver = 1 ∧ r.payload = [BitVec.ofNat 8 k.val, 0, 0, 0] ∧ s.adopting = false ∧ s.flashSize ≠ 0 ∧ (s.slotState k = 1 ∨ s.slotState k = 3)) ∧
    (∃ (s : State) (r : MgReq), s.boot.phase = .started ∧ s.mg.up = true ∧ r.ver = 1 ∧ s.rebindBad r.payload = false ∧ s.g Reg.PWR_STS_STATE = 0 ∧ s.pwr.trans = none ∧ s.rebind = none ∧ s.zeroLock = false ∧ s.adopting = false) ∧
    (∃ (s : State) (r : MgReq) (im : Image), s.boot.phase = .started ∧ s.mg.up = true ∧ r.ver = 1 ∧ s.image = some im ∧ r.payload.length = 12 ∧ s.atOk s.isMember (le r.payload 0 8) (le r.payload 8 4) = true ∧ s.adopting = false ∧ s.slotState (otherSlot im.slot) = 1 ∧ s.zeroLock = false ∧ s.needsFull (s.readHead (otherSlot im.slot)) = false) ∧
    (∃ (s : State) (a : Adopt) (l : List SecExtra), s.held = false ∧ s.adopt = some a ∧ a.checked = false ∧ s.adoptOrder ≠ []) ∧
    (∃ (s : State) (a : Adopt) (j : Nat) (js : List Nat), s.held = false ∧ s.undo = none ∧ s.adopt = some a ∧ a.checked = true ∧ a.todo = j :: js ∧ s.jobNums.all (fun j => s.jst j != 3) = true ∧ s.slotBoundary = true ∧ s.atReached s.isMember a.atSec a.atNs = true ∧ s.isMember = false ∧ (({ s with adopt := some { a with started := true, todo := js, done := a.done ++ [j] } }).adoptJob j true).jst j ≠ 5) ∧
    (∃ (s : State) (u : Undo) (j : Nat) (js : List Nat), s.held = false ∧ s.undo = some u ∧ u.left = j :: js ∧ s.jobNums.all (fun j => s.jst j != 3) = true ∧ s.slotBoundary = true) ∧
    (∃ (s : State) (a : Adopt), s.held = false ∧ s.undo = none ∧ s.adopt = some a ∧ (a.checked = false ∨ s.slotBoundary = false ∨ s.atReached s.isMember a.atSec a.atNs = false)) :=
  ⟨⟨{ linked with flashSize := 0x4000000 }, mreq [1, 0, 0, 0], (1 : Fin 2), by decide +kernel⟩,
   ⟨{ linked with flashSize := 0x4000000, openSlot := some ⟨1, []⟩ }, mreq [0, 0, 0, 0, 2, 0, 0, 0, 5, 6], ⟨1, []⟩, by decide +kernel⟩,
   ⟨{ linked with flashSize := 0x4000000, flash := stored.flash, openSlot := some ⟨1, []⟩ }, mreq [], ⟨1, []⟩, [], by decide +kernel⟩,
   ⟨({ linked with flashSize := 0x4000000 }).p Reg.IMG_SLOT_STS_STATE_B 1, mreq [1, 0, 0, 0], (1 : Fin 2), by decide +kernel⟩,
   ⟨working, mreq ([1] ++ zeros 15 ++ [0, 1, 0, 0, 1, 0, 0, 0, 1] ++ zeros 23), by decide +kernel⟩,
   ⟨{ stored with jobs := State.reset.jobs }, mreq (zeros 12), img0, by decide +kernel⟩,
   ⟨{ working with flash := [(6, 0), (7, 0), (12, 0)], adopt := some ⟨img1, 0, 0, false, false, [], [], []⟩ }, ⟨img1, 0, 0, false, false, [], [], []⟩, [], by decide +kernel⟩,
   ⟨{ working with adopt := some ⟨img1, 0, 0, true, true, [0], [], []⟩ }, ⟨img1, 0, 0, true, true, [0], [], []⟩, 0, [], by decide +kernel⟩,
   ⟨{ working with undo := some ⟨img1, [0]⟩ }, ⟨img1, [0]⟩, 0, [], by decide +kernel⟩,
   ⟨{ working with adopt := some ⟨img1, 9, 0, true, true, [0], [], []⟩ }, ⟨img1, 9, 0, true, true, [0], [], []⟩, by decide +kernel⟩⟩

theorem witness_SlotAndAdoptionRequestsAct_2 :
    ∃ (s : State) (r : MgReq) (k : Nat), s.boot.phase = .started ∧ s.mg.up = true ∧ r.ver = 1 ∧ k ≤ 2 ∧ r.payload = toLE 1 k ++ zeros 15 ∧ s.adopting = false ∧ s.rebind = none ∧ k ≠ s.g Reg.PWR_STS_STATE ∧ s.pwr.trans = none ∧ s.pwr.tripped = false ∧ s.sec.zero = none ∧ s.sec.zeroised = false :=
  ⟨linked, mreq ([1] ++ zeros 15), 1, by decide +kernel⟩

theorem witness_SmbusTargetAnswers :
    (∃ (s : State) (p : Option Bool), s.boot.phase ≠ .por ∧ p ≠ some false) ∧
    (∃ (s : State) (v : BitVec 16) (p : Option Bool), s.boot.phase ≠ .por ∧ p ≠ some false ∧ 240 ≤ v.toNat ∧ v.toNat ≤ 720 ∧ s.pwr.sheds = [] ∧ s.pwr.hold = false) ∧
    (∃ (s : State) (v : BitVec 16) (p : Option Bool), s.boot.phase ≠ .por ∧ p ≠ some false ∧ (v.toNat < 240 ∨ 720 < v.toNat)) ∧
    (∃ (s : State) (m : Byte) (p : Option Bool), s.boot.phase ≠ .por ∧ p ≠ some false) ∧
    (∃ (s : State) (c : Byte), s.boot.phase ≠ .por ∧ 6 < c.toNat) ∧
    (∃ (s : State), s.boot.phase ≠ .por ∧ s.smbAlert = true) ∧
    (∃ (s : State), s.boot.phase ≠ .por) ∧
    (∃ (s : State) (c : Instr), s.boot.phase ≠ .por ∧ c ∈ [.smbIdent (some false), .smbStatus (some false), .smbTemp (some false), .smbPower (some false), .smbCapRead (some false), .smbCapWrite 300 (some false), .smbAlarmsRead (some false), .smbAlarmsClear 0xFF (some false), .smbEvents (some false)]) :=
  ⟨⟨started, none, by decide +kernel⟩,
   ⟨started, 240#16, some true, by decide +kernel⟩,
   ⟨started, 239#16, none, by decide +kernel⟩,
   ⟨{ started with smbAlarms := 5, smbAlert := true }, 5#8, none, by decide +kernel⟩,
   ⟨started, 7#8, by decide +kernel⟩,
   ⟨{ started with smbAlert := true }, by decide +kernel⟩,
   ⟨started, by decide +kernel⟩,
   ⟨started, Instr.smbTemp (some false), by decide +kernel⟩⟩

theorem witness_JtagInstructionsLoad :
    (∃ (s : State), s.boot.phase ≠ .por) ∧
    (∃ (s : State), s.boot.phase ≠ .por) ∧
    (∃ (s : State) (l : List Bool), s.boot.phase ≠ .por) ∧
    (∃ (s : State) (l : List Bool), s.boot.phase ≠ .por ∧ s.scopes.getLsbD 3 = true) ∧
    (∃ (s : State), s.boot.phase ≠ .por ∧ s.scopes.getLsbD 3 = true) ∧
    (∃ (s : State), s.boot.phase ≠ .por ∧ s.scopes.getLsbD 3 = true) ∧
    (∃ (s : State) (l : List Bool) (c : Instr), s.boot.phase ≠ .por ∧ s.scopes.getLsbD 3 = false ∧ c ∈ [.extest l, .clamp, .highz]) ∧
    (∃ (s : State) (w : Word), s.boot.phase ≠ .por) :=
  ⟨⟨started, by decide +kernel⟩,
   ⟨started, by decide +kernel⟩,
   ⟨started, [true], by decide +kernel⟩,
   ⟨started, [true], by decide +kernel⟩,
   ⟨started, by decide +kernel⟩,
   ⟨started, by decide +kernel⟩,
   ⟨fielded, [true], Instr.clamp, by decide +kernel⟩,
   ⟨started, 5#32, by decide +kernel⟩⟩

theorem witness_DebugUnlockCommandsAct :
    (∃ (s : State) (r : MgReq), s.held = false ∧ s.mg.up = true ∧ r.ver = 1 ∧ r.payload = [1, 0, 0, 0] ∧ s.dbgState = true) ∧
    (∃ (s : State) (r : MgReq) (n : Nat), s.held = false ∧ s.mg.up = true ∧ r.ver = 1 ∧ r.payload.length = 196 ∧ r.payload.take 4 = [2, 0, 0, 0]) ∧
    (∃ (s : State) (r : MgReq) (x : Session), s.held = false ∧ s.mg.up = true ∧ r.ver = 1 ∧ r.payload = [3, 0, 0, 0] ∧ s.sec.session = some x) ∧
    (∃ (s : State) (r : MgReq) (n : Nat), s.held = false ∧ s.mg.up = true ∧ r.ver = 1 ∧ r.payload.length = 104 ∧ r.payload.take 8 = [4, 0, 0, 0, 1, 0, 0, 0] ∧ s.dbgState = true) ∧
    (∃ (s : State) (r : MgReq) (k : Fin 3) (n : Nat), s.held = false ∧ r.payload.length = 104 ∧ r.payload.take 8 = [4, 0, 0, 0, BitVec.ofNat 8 (k.val + 1), 0, 0, 0] ∧ s.dbgState = true ∧ s.fuses.life = 1 ∧ s.fuses.slots.get (k.succ) = none ∧ s.canFuse = true ∧ 768 ≤ n) ∧
    (∃ (s : State) (r : MgReq), s.held = false ∧ s.mg.up = true ∧ r.ver = 1) ∧
    (∃ (s : State) (x : Session) (e : Nat), s.held = false ∧ s.sec.session = some x ∧ x.until_ = some e) ∧
    (∃ (s : State) (c : List Byte) (t0 : Nat), s.held = false ∧ s.sec.chal = some (c, t0)) ∧
    (∃ (s : State), s.held = false) ∧
    (∃ (s : State) (z : Zeroise), s.held = false ∧ s.sec.zero = some z ∧ z.open_ = none) :=
  ⟨⟨{ started with mg := ⟨true, [], 0⟩ }, (⟨1, 7, [1, 0, 0, 0]⟩ : MgReq), by decide +kernel⟩,
   ⟨linked, (⟨1, 7, [2, 0, 0, 0] ++ zeros 192⟩ : MgReq), 0, by decide +kernel⟩,
   ⟨{ linked with sec := { Sec.reset with session := some ⟨1, 0, false, none, 60⟩ } }, (⟨1, 7, [3, 0, 0, 0]⟩ : MgReq), (⟨1, 0, false, none, 60⟩ : Session), by decide +kernel⟩,
   ⟨linked, (⟨1, 7, [4, 0, 0, 0, 1, 0, 0, 0] ++ zeros 96⟩ : MgReq), 0, by decide +kernel⟩,
   ⟨{ linked with fuses := { Fuses.blank with life := 1 } }, (⟨1, 7, [4, 0, 0, 0, 2, 0, 0, 0] ++ zeros 96⟩ : MgReq), (1 : Fin 3), 768, by decide +kernel⟩,
   ⟨linked, (⟨1, 7, [9]⟩ : MgReq), by decide +kernel⟩,
   ⟨{ linked with sec := { Sec.reset with session := some ⟨1, 0, false, some 50, 60⟩ }, ticks := 50 }, (⟨1, 0, false, some 50, 60⟩ : Session), 50, by decide +kernel⟩,
   ⟨{ started with sec := { Sec.reset with chal := some ([1], 5) } }, [1], 5, by decide +kernel⟩,
   ⟨started, by decide +kernel⟩,
   ⟨{ linked with sec := { Sec.reset with zero := some ⟨none, 2, 0⟩ } }, (⟨none, 2, 0⟩ : Zeroise), by decide +kernel⟩⟩

theorem witness_CountersStopAndReadClears :
    (∃ (F : Fld), F ∈ Reg.TEL_XQ_STALL_CNT :: (deviceCounters ++ indexedCounters)) ∧
    (∃ (s : State) (F : Fld) (n : Nat), F ∈ deviceCounters ++ indexedCounters) ∧
    (∃ (s : State) (F : Fld), s.held = false ∧ F ∈ deviceCounters ++ indexedCounters) :=
  ⟨⟨Reg.JOB_RX_LATE_CNT, by decide +kernel⟩,
   ⟨started, Reg.JOB_RX_LATE_CNT, 5, by decide +kernel⟩,
   ⟨started, Reg.LEAF_SAT_CNT 5, by decide +kernel⟩⟩

theorem witness_SelectedStallCounterReadsAndClears :
    (∃ (c : Nat) (i : Nat), c < 16 ∧ i < 8) ∧
    (∃ (s : State) (g : Byte), s.held = false ∧ s.agentJob g.toNat = none ∧ xqExists (s.g Reg.TEL_XQ_SEL_CROSS) (s.g Reg.TEL_XQ_SEL_INST) = true) ∧
    (∃ (s : State) (g : Byte), s.held = false ∧ s.agentJob g.toNat = none ∧ xqExists (s.g Reg.TEL_XQ_SEL_CROSS) (s.g Reg.TEL_XQ_SEL_INST) = false) ∧
    (∃ (s : State) (g : Byte) (v : Word), s.held = false) :=
  ⟨⟨4, 3, by decide +kernel⟩,
   ⟨({ started with stalls := [(1, 7)] }).p Reg.TEL_XQ_SEL_QUEUE 1, 0x70#8, by decide +kernel⟩,
   ⟨({ started with stalls := [(1, 7)] }).p Reg.TEL_XQ_SEL_CROSS 9, 0#8, by decide +kernel⟩,
   ⟨{ started with stalls := [(1, 7)] }, 0#8, 0x12#32, by decide +kernel⟩⟩

theorem witness_RegisterWritesGoFieldByField :
    (∃ (s : State) (a : RegAcc) (v : Word), s.held = false ∧ a.width = 4 ∧ isReg a.addr.toNat = true ∧ frondOfReg a.addr.toNat = none ∧ s.deviceWrite a.agent a.addr.toNat v = none ∧ s.agentJob a.agent.toNat = none) ∧
    (∃ (s : State) (w : Nat) (g : Nat) (a : Nat) (v : Nat) (r : RegSpec) (f : FieldSpec), regSpecAt a = some r ∧ f ∈ r.fields ∧ a ≠ Reg.SYS_WR_IGN_CNT.addr) ∧
    (∃ (s : State) (w : Nat) (g : Nat) (a : Nat) (v : Nat) (r : RegSpec), regSpecAt a = some r ∧ a ≠ Reg.SYS_WR_IGN_CNT.addr ∧ v < 2 ^ 32) ∧
    (∃ (s : State) (v : Word) (g : Byte), s.held = false ∧ (g = 0 ∨ g = 0x70)) ∧
    (∃ (s : State) (v : Word), s.held = false) ∧
    (∃ (s : State) (a : RegAcc) (v : Word), s.held = false ∧ (a.width ≠ 4 ∨ isReg a.addr.toNat = false)) ∧
    (∃ (s : State) (a : RegAcc), s.held = false ∧ s.agentJob a.agent.toNat = none ∧ (a.width ≠ 4 ∨ isReg a.addr.toNat = false)) :=
  ⟨⟨started, ⟨0x70, 0x108, 4⟩, 9#32, by decide +kernel⟩,
   ⟨started, 0, 0x70, 0x108, 9, ⟨0x108, 1, 4, false, [⟨0, 12, .fwmg, 0, .por⟩]⟩, ⟨0, 12, .fwmg, 0, .por⟩, by decide +kernel⟩,
   ⟨started, 0, 0x70, 0x108, 9, ⟨0x108, 1, 4, false, [⟨0, 12, .fwmg, 0, .por⟩]⟩, by decide +kernel⟩,
   ⟨started, 0xFFFFF#32, 0x70#8, by decide +kernel⟩,
   ⟨started, 0#32, by decide +kernel⟩,
   ⟨started, ⟨0, 0x2FFFE, 4⟩, 1#32, by decide +kernel⟩,
   ⟨started, ⟨0, 0x108, 2⟩, by decide +kernel⟩⟩

theorem witness_ResetSourcesRestoreTheirFields :
    (∃ (a : Nat) (t : RegSpec) (f : FieldSpec), regSpecAt a = some t ∧ f ∈ t.fields) ∧
    (∃ (s : State) (r : Src) (p : Nat → Bool) (a : Nat) (t : RegSpec) (f : FieldSpec), regSpecAt a = some t ∧ f ∈ t.fields) ∧
    (∃ (s : State) (r : Src) (p : Nat → Bool) (a : Nat) (t : RegSpec) (f : FieldSpec), regSpecAt a = some t ∧ f ∈ t.fields ∧ f.src = .por ∧ r ≠ .por) :=
  ⟨⟨0x108, ⟨0x108, 1, 4, false, [⟨0, 12, .fwmg, 0, .por⟩]⟩, ⟨0, 12, .fwmg, 0, .por⟩, by decide +kernel⟩,
   ⟨started, Src.warm, fun _ => true, 0x108, ⟨0x108, 1, 4, false, [⟨0, 12, .fwmg, 0, .por⟩]⟩, ⟨0, 12, .fwmg, 0, .por⟩, by decide +kernel⟩,
   ⟨started, Src.warm, fun _ => true, 0x108, ⟨0x108, 1, 4, false, [⟨0, 12, .fwmg, 0, .por⟩]⟩, ⟨0, 12, .fwmg, 0, .por⟩, by decide +kernel⟩⟩

theorem witness_EventsTakeSeqAndGoToRingOrHold :
    (∃ (s : State) (code : Nat) (src : Nat) (job : Nat) (arg : Nat), s.ringReady = true ∧ s.hold = [] ∧ (s.g Reg.SYS_EVR_WR_IDX + 4096 - s.g Reg.SYS_EVR_RD_IDX) % 4096 < 4095) ∧
    (∃ (s : State) (code : Nat) (src : Nat) (job : Nat) (arg : Nat), s.ringReady = true ∧ s.hold = [] ∧ (s.g Reg.SYS_EVR_WR_IDX + 4096 - s.g Reg.SYS_EVR_RD_IDX) % 4096 = 4095) ∧
    (∃ (s : State) (code : Nat) (src : Nat) (job : Nat) (arg : Nat), s.ringReady = false ∧ s.hold.length < 16) ∧
    (∃ (s : State) (code : Nat) (src : Nat) (job : Nat) (arg : Nat), s.ringReady = false ∧ 16 ≤ s.hold.length) ∧
    (∃ (s : State) (code : Nat) (src : Nat) (job : Nat) (arg : Nat), (s.g Reg.SYS_EVR_MIRROR_MASK).testBit (code / 256) = true) ∧
    (∃ (s : State) (code : Nat) (src : Nat) (job : Nat) (arg : Nat), (s.g Reg.SYS_EVR_MIRROR_MASK).testBit (code / 256) = false) :=
  ⟨⟨ringed, 0x0101, 0x40, 0xFF, 5, by decide +kernel⟩,
   ⟨(ringed.p Reg.SYS_EVR_WR_IDX 15).p Reg.SYS_EVR_RD_IDX 16, 0x0101, 0x40, 0xFF, 5, by decide +kernel⟩,
   ⟨{ started with hold := List.replicate 15 [] }, 0x0101, 0x40, 0xFF, 5, by decide +kernel⟩,
   ⟨{ started with hold := List.replicate 16 [] }, 0x0101, 0x40, 0xFF, 5, by decide +kernel⟩,
   ⟨started, 0x0F00, 0, 0, 0, by decide +kernel⟩,
   ⟨started, 0x1000, 0, 0, 0, by decide +kernel⟩⟩

theorem witness_IdleStepIsOneNanosecond :
    (∃ (s : State), s.pending = [] ∧ s.boot.phase = .por) ∧
    (∃ (s : State), s.pending = [] ∧ s.boot.phase ≠ .por) ∧
    (∃ (s : State) (m : MgMsg) (q : List MgMsg), s.pending = [] ∧ s.boot.phase ≠ .por ∧ s.mg.up = true ∧ s.mg.queue = m :: q) ∧
    (∃ (s : State) (d : Dom), s.pending = [] ∧ s.boot.phase ≠ .por ∧ s.follows d = false ∧ (s.dom d).ns.toNat < 1000000000 ∧ (s.dom d).sec.toNat + 1000 < 2 ^ 64) :=
  ⟨⟨State.reset, by decide +kernel⟩,
   ⟨started, by decide +kernel⟩,
   ⟨{ linked with mg := ⟨true, [⟨1, 2, 3, []⟩], 0⟩ }, ⟨1, 2, 3, []⟩, [], by decide +kernel⟩,
   ⟨{ started with domA := { started.domA with ns := 999999999 } }, Dom.a, by decide +kernel⟩⟩

theorem witness_CapturesGatesAndDebugAct :
    (∃ (s : State) (d : Dom) (g : Byte), s.held = false ∧ s.agentJob g.toNat = none) ∧
    (∃ (s : State) (i : Island), s.held = false ∧ s.inputsEmpty (islandNo i) = true ∧ s.gated.contains (islandNo i) = false) ∧
    (∃ (s : State) (a : Addr) (n : Nat), s.held = false ∧ s.g Reg.PWR_STS_STATE ≠ 2 ∧ s.scopes.getLsbD 1 = true ∧ s.dbgReach a.toNat n = true ∧ s.region a.toNat ≠ .reg) ∧
    (∃ (s : State) (a : Addr) (bs : List Byte), s.held = false ∧ s.g Reg.PWR_STS_STATE ≠ 2 ∧ s.scopes.getLsbD 2 = true ∧ s.dbgReach a.toNat bs.length = true ∧ s.region a.toNat ≠ .reg) ∧
    (∃ (s : State) (c : Fin 7), s.held = false ∧ s.g Reg.PWR_STS_STATE ≠ 2 ∧ s.scopes.getLsbD 0 = true ∧ s.dbgCtl c = true ∧ s.sec.halted.contains c.val = false) ∧
    (∃ (s : State) (c : Fin 7), s.held = false ∧ s.g Reg.PWR_STS_STATE ≠ 2 ∧ s.scopes.getLsbD 0 = true) ∧
    (∃ (s : State), s.held = false ∧ s.g Reg.PWR_STS_STATE ≠ 2 ∧ s.scopes.getLsbD 4 = true) ∧
    (∃ (s : State), s.held = false) ∧
    (∃ (s : State) (a : DbgAcc), s.held = false ∧ s.scopes = 0) :=
  ⟨⟨started, Dom.b, 0x70#8, by decide +kernel⟩,
   ⟨started, Island.fabric, by decide +kernel⟩,
   ⟨ringed, 0x100000010#48, 5, by decide +kernel⟩,
   ⟨ringed, 0x100000010#48, [1, 2, 3], by decide +kernel⟩,
   ⟨started, (6 : Fin 7), by decide +kernel⟩,
   ⟨{ started with sec := { started.sec with halted := [6] } }, (6 : Fin 7), by decide +kernel⟩,
   ⟨started, by decide +kernel⟩,
   ⟨started, by decide +kernel⟩,
   ⟨fielded, DbgAcc.read 0 4, by decide +kernel⟩⟩

theorem witness_IncrementWritesApplyInRange :
    (∃ (s : State) (g : Byte) (d : Dom) (v : Word) (x : Nat), s.held = false ∧ (g = 0 ∨ g = 0x70) ∧ s.follows d = false ∧ x = s.g (Reg.TIME_d_INCR_LO (domNo d)) + v.toNat % 2 ^ 16 * 2 ^ 32 ∧ 0x00FFE0000000 ≤ x ∧ x ≤ 0x010020000000) ∧
    (∃ (s : State) (g : Byte) (d : Dom) (v : Word), s.held = false ∧ (g = 0 ∨ g = 0x70) ∧ s.follows d = false ∧ (s.g (Reg.TIME_d_INCR_LO (domNo d)) + v.toNat % 2 ^ 16 * 2 ^ 32 < 0x00FFE0000000 ∨ 0x010020000000 < s.g (Reg.TIME_d_INCR_LO (domNo d)) + v.toNat % 2 ^ 16 * 2 ^ 32)) ∧
    (∃ (s : State) (g : Byte) (d : Dom) (v : Word), s.held = false ∧ (g = 0 ∨ g = 0x70) ∧ s.follows d = false) :=
  ⟨⟨started, 0x70#8, Dom.b, 0x100#32, 0x010000000000, by decide +kernel⟩,
   ⟨started, 0#8, Dom.a, 0xFF#32, by decide +kernel⟩,
   ⟨started, 0#8, Dom.a, 5#32, by decide +kernel⟩⟩

theorem witness_TimeCommandsStepSetAndLock_1 :
    (∃ (s : State) (g : Byte) (d : Dom) (v : Word) (o : Int), s.held = false ∧ (g = 0 ∨ g = 0x70) ∧ s.follows d = false ∧ v.getLsbD 16 = true ∧ o = stepUnits (sx 32 (s.g (Reg.TIME_d_STEP_NS (domNo d)))) (v.toNat % 2 ^ 16) ∧ o ≤ 0 ∧ 0 ≤ ((s.dom d).units : Int) + o ∧ (sx 32 (s.g (Reg.TIME_d_STEP_NS (domNo d)))).natAbs ≤ 999999999 ∧ o.natAbs ≤ s.g (Reg.TIME_d_CFG2_STEP_MAX (domNo d)) * 2 ^ 40 ∧ (s.dom d).setAt ≠ s.ticks + 1 ∧ s.follows (other d) = false) ∧
    (∃ (s : State) (g : Byte) (d : Dom) (v : Word), s.held = false ∧ (g = 0 ∨ g = 0x70) ∧ s.follows d = false ∧ v.getLsbD 16 = true ∧ 999999999 < (sx 32 (s.g (Reg.TIME_d_STEP_NS (domNo d)))).natAbs ∧ (s.dom d).setAt ≠ s.ticks + 1) ∧
    (∃ (s : State) (g : Byte) (d : Dom) (v : Word), s.held = false ∧ (g = 0 ∨ g = 0x70) ∧ s.follows d = false ∧ s.follows (other d) = false ∧ v.getLsbD 31 = true ∧ v.toNat % 2 ^ 30 < 1000000000 ∧ s.leads = false ∧ s.domUsers d = [] ∧ (s.dom d).stepAt ≠ s.ticks + 1 ∧ s.g64 (Reg.TIME_d_SET_SEC_LO (domNo d)) (Reg.TIME_d_SET_SEC_HI (domNo d)) * 1000000000 + v.toNat % 2 ^ 30 ≤ (s.dom d).nanos) ∧
    (∃ (s : State) (g : Byte) (d : Dom) (v : Word), s.held = false ∧ (g = 0 ∨ g = 0x70) ∧ s.follows d = false ∧ v.getLsbD 31 = true ∧ 1000000000 ≤ v.toNat % 2 ^ 30) ∧
    (∃ (s : State) (g : Byte) (d : Dom) (v : Word), s.held = false ∧ (g = 0 ∨ g = 0x70) ∧ s.follows d = false ∧ v.toNat % 4 = 1 ∧ s.leads = false ∧ s.g (Reg.TIME_d_STS_STATE (domNo d)) ≠ 0) ∧
    (∃ (s : State) (g : Byte) (d : Dom) (v : Word), s.held = false ∧ (g = 0 ∨ g = 0x70) ∧ s.follows d = false ∧ v.toNat % 4 = 2 ∧ s.leads = false ∧ 1 < s.g (Reg.TIME_d_STS_STATE (domNo d))) ∧
    (∃ (s : State) (g : Byte) (d : Dom) (v : Word) (c : Instr), s.held = false ∧ (g = 0 ∨ g = 0x70) ∧ s.follows d = false ∧ (v.toNat % 4 = 3 ∨ (v.toNat % 4 = 1 ∧ s.g (Reg.TIME_d_STS_STATE (domNo d)) = 0)) ∧ c ∈ [.timeLock g d v, .timeUnlock g d v]) ∧
    (∃ (s : State) (r : MgReq) (c : Instr), s.boot.phase = .started ∧ s.mg.up = true ∧ r.ver = 1 ∧ c ∈ [.timeServoIncr r, .timeServoStep r, .timeServoSet r, .timeServoLock r, .timeServoUnlock r] ∧ (servoForm r.payload = false ∨ s.follows (domOf (byteAt r.payload 0)) = true)) ∧
    (∃ (s : State) (r : MgReq) (d : Dom), s.boot.phase = .started ∧ s.mg.up = true ∧ r.ver = 1 ∧ servoForm r.payload = true ∧ s.follows d = false ∧ d = domOf (byteAt r.payload 0) ∧ byteAt r.payload 1 = 1 ∧ incrOk (le r.payload 8 8) = true) ∧
    (∃ (s : State) (r : MgReq) (d : Dom), s.boot.phase = .started ∧ s.mg.up = true ∧ r.ver = 1 ∧ servoForm r.payload = true ∧ s.follows d = false ∧ d = domOf (byteAt r.payload 0) ∧ byteAt r.payload 1 = 2 ∧ stepUnits (sx 32 (le r.payload 8 4)) (le r.payload 12 2) ≤ 0 ∧ 0 ≤ ((s.dom d).units : Int) + stepUnits (sx 32 (le r.payload 8 4)) (le r.payload 12 2) ∧ (sx 32 (le r.payload 8 4)).natAbs ≤ 999999999 ∧ (stepUnits (sx 32 (le r.payload 8 4)) (le r.payload 12 2)).natAbs ≤ s.g (Reg.TIME_d_CFG2_STEP_MAX (domNo d)) * 2 ^ 40 ∧ (s.dom d).setAt ≠ s.ticks + 1 ∧ s.follows (other d) = false) :=
  ⟨⟨(clocked.p (Reg.TIME_d_STEP_NS 0) 0xFFFFFFF6).p (Reg.TIME_d_CFG2_STEP_MAX 0) 1000, 0#8, Dom.a, 0x10001#32, -10 * 2 ^ 40 + 2 ^ 24, by decide +kernel⟩,
   ⟨clocked.p (Reg.TIME_d_STEP_NS 0) 1000000000, 0#8, Dom.a, 0x10000#32, by decide +kernel⟩,
   ⟨clocked.p (Reg.TIME_d_SET_SEC_LO 1) 3, 0x70#8, Dom.b, 0x80000007#32, by decide +kernel⟩,
   ⟨clocked, 0x70#8, Dom.b, 0xBB9ACA00#32, by decide +kernel⟩,
   ⟨clocked.p (Reg.TIME_d_STS_STATE 1) 1, 0#8, Dom.b, 1#32, by decide +kernel⟩,
   ⟨clocked.p (Reg.TIME_d_STS_STATE 1) 3, 0#8, Dom.b, 2#32, by decide +kernel⟩,
   ⟨clocked, 0#8, Dom.a, 1#32, .timeLock 0 .a 1, by decide +kernel⟩,
   ⟨clocked, mreq (zeros 20), .timeServoLock (mreq (zeros 20)), by decide +kernel⟩,
   ⟨clocked, mreq ([1, 1] ++ zeros 11 ++ [1] ++ zeros 6), Dom.b, by decide +kernel⟩,
   ⟨clocked.p (Reg.TIME_d_CFG2_STEP_MAX 1) 1000, mreq ([1, 2] ++ zeros 6 ++ [0xFF, 0xFF, 0xFF, 0xFF, 1] ++ zeros 7), Dom.b, by decide +kernel⟩⟩

theorem witness_TimeCommandsStepSetAndLock_2 :
    (∃ (s : State) (r : MgReq) (d : Dom), s.boot.phase = .started ∧ s.mg.up = true ∧ r.ver = 1 ∧ servoForm r.payload = true ∧ s.follows d = false ∧ d = domOf (byteAt r.payload 0) ∧ byteAt r.payload 1 = 3 ∧ le r.payload 16 4 < 1000000000 ∧ s.follows (other d) = false ∧ s.leads = false ∧ s.domUsers d = [] ∧ le r.payload 8 8 * 1000000000 + le r.payload 16 4 ≤ (s.dom d).nanos) ∧
    (∃ (s : State) (r : MgReq) (d : Dom), s.boot.phase = .started ∧ s.mg.up = true ∧ r.ver = 1 ∧ servoForm r.payload = true ∧ s.follows d = false ∧ d = domOf (byteAt r.payload 0) ∧ byteAt r.payload 1 = 4 ∧ s.leads = false ∧ s.g (Reg.TIME_d_STS_STATE (domNo d)) ≠ 0) ∧
    (∃ (s : State) (r : MgReq) (d : Dom), s.boot.phase = .started ∧ s.mg.up = true ∧ r.ver = 1 ∧ servoForm r.payload = true ∧ s.follows d = false ∧ d = domOf (byteAt r.payload 0) ∧ byteAt r.payload 1 = 5 ∧ s.leads = false ∧ 1 < s.g (Reg.TIME_d_STS_STATE (domNo d))) ∧
    (∃ (s : State) (r : MgReq) (c : Instr), c ∈ [.timeServoStep r, .timeServoSet r, .timeServoLock r, .timeServoUnlock r]) :=
  ⟨⟨clocked, mreq ([1, 3] ++ zeros 6 ++ [3] ++ zeros 7 ++ [7, 0, 0, 0]), Dom.b, by decide +kernel⟩,
   ⟨clocked.p (Reg.TIME_d_STS_STATE 1) 3, mreq ([1, 4] ++ zeros 18), Dom.b, by decide +kernel⟩,
   ⟨clocked.p (Reg.TIME_d_STS_STATE 1) 3, mreq ([1, 5] ++ zeros 18), Dom.b, by decide +kernel⟩,
   ⟨clocked, mreq [], Instr.timeServoLock (mreq []), by decide +kernel⟩⟩

theorem witness_HoldoverAndHandoverAct :
    (∃ (s : State) (g : Byte) (v : Word) (f : Dom), s.held = false ∧ (g = 0 ∨ g = 0x70) ∧ s.g Reg.TIME_HO_CTL = 0 ∧ v.toNat % 4 = domNo f + 1 ∧ s.leads = false ∧ (s.gap f).natAbs ≤ s.g Reg.TIME_HO_CFG_HO_MAX * 1000 * 2 ^ 40) ∧
    (∃ (s : State) (g : Byte) (v : Word) (c : Instr), s.held = false ∧ (g = 0 ∨ g = 0x70) ∧ v.toNat % 4 = 3 ∧ c ∈ [.handoverFollow g v, .handoverRelease g v]) ∧
    (∃ (s : State) (g : Byte) (v : Word) (f : Dom), s.held = false ∧ (g = 0 ∨ g = 0x70) ∧ v.toNat % 4 = 0 ∧ s.follower = some f ∧ s.leads = false) ∧
    (∃ (s : State) (f : Dom), s.held = false ∧ s.follows f = true ∧ s.g (Reg.TIME_d_STS_COUPLED (domNo f)) = 0) ∧
    (∃ (s : State) (d : Dom), s.held = false ∧ s.follows d = false ∧ s.leads = false ∧ s.g (Reg.TIME_d_STS_STATE (domNo d)) = 2 ∧ (s.dom d).servoAt + 2000000000 ≤ s.ticks) ∧
    (∃ (s : State) (d : Dom), s.held = false ∧ s.follows d = false ∧ s.leads = false ∧ s.g Reg.TIME_HO_CFG_AUTO = 0 ∧ s.g (Reg.TIME_d_STS_STATE (domNo d)) = 3 ∧ (s.dom d).holdAt + s.g (Reg.TIME_d_CFG3 (domNo d)) * 1000000000 ≤ s.ticks) ∧
    (∃ (s : State) (d : Dom), s.held = false ∧ s.ticks < (s.dom d).servoAt + 2000000000) ∧
    (∃ (s : State) (d : Dom), s.held = false ∧ s.ticks < (s.dom d).holdAt + s.g (Reg.TIME_d_CFG3 (domNo d)) * 1000000000) ∧
    (∃ (s : State) (d : Dom) (o : Nat), s.held = false ∧ s.follower = none ∧ s.leads = false ∧ s.g (Reg.TIME_d_CFG_SERVO (domNo d)) = 0 ∧ (s.g (Reg.TIME_d_STS_STATE (domNo d)) = 3 ∨ s.g (Reg.TIME_d_STS_STATE (domNo d)) = 4) ∧ o ≤ s.g (Reg.TIME_d_CFG2_STEP_MAX (domNo d)) ∧ o ≤ (s.dom d).nanos ∧ o ≤ 999999999 ∧ (s.dom d).setAt ≠ s.ticks + 1) ∧
    (∃ (s : State) (d : Dom) (o : Int), s.held = false ∧ s.follower = none ∧ s.g (Reg.TIME_d_CFG_SERVO (domNo d)) = 0 ∧ (s.g (Reg.TIME_d_STS_STATE (domNo d)) = 3 ∨ s.g (Reg.TIME_d_STS_STATE (domNo d)) = 4) ∧ s.g (Reg.TIME_d_CFG2_STEP_MAX (domNo d)) < o.natAbs ∧ o.natAbs ≤ s.g Reg.TIME_HO_CFG_HO_MAX * 1000) :=
  ⟨⟨clocked, 0#8, 1#32, Dom.a, by decide +kernel⟩,
   ⟨clocked, 0#8, 3#32, .handoverFollow 0 3, by decide +kernel⟩,
   ⟨clocked.p Reg.TIME_HO_CTL 2, 0#8, 0#32, Dom.b, by decide +kernel⟩,
   ⟨clocked.p Reg.TIME_HO_CTL 2, Dom.b, by decide +kernel⟩,
   ⟨{ (clocked.p (Reg.TIME_d_STS_STATE 0) 2) with ticks := 2000000000 }, Dom.a, by decide +kernel⟩,
   ⟨{ ((clocked.p (Reg.TIME_d_STS_STATE 0) 3).p Reg.TIME_HO_CFG_AUTO 0) with ticks := 100000000000000 }, Dom.a, by decide +kernel⟩,
   ⟨clocked, Dom.b, by decide +kernel⟩,
   ⟨clocked.p (Reg.TIME_d_CFG3 0) 7, Dom.a, by decide +kernel⟩,
   ⟨((clocked.p (Reg.TIME_d_STS_STATE 0) 3).p (Reg.TIME_d_CFG_SERVO 0) 0).p (Reg.TIME_d_CFG2_STEP_MAX 0) 50, Dom.a, 50, by decide +kernel⟩,
   ⟨(((clocked.p (Reg.TIME_d_STS_STATE 0) 3).p (Reg.TIME_d_CFG_SERVO 0) 0).p (Reg.TIME_d_CFG2_STEP_MAX 0) 50).p Reg.TIME_HO_CFG_HO_MAX 1, Dom.a, -51, by decide +kernel⟩⟩

theorem witness_PtpMessagesAreServed :
    (∃ (s : State) (d : Dom) (m : PtpMsg), s.held = false ∧ s.ptpOn d m.link.val = true ∧ m.typ = 0xB ∧ m.ptpdom.toNat = s.g (Reg.TIME_d_CFG_PTPDOM (domNo d)) ∧ (s.ptp d).master = none) ∧
    (∃ (s : State) (d : Dom) (m : PtpMsg), s.held = false ∧ s.ptpOn d m.link.val = true ∧ m.typ = 0 ∧ m.ptpdom.toNat = s.g (Reg.TIME_d_CFG_PTPDOM (domNo d)) ∧ (s.ptp d).master = some m.master) ∧
    (∃ (s : State) (d : Dom) (m : PtpMsg), s.held = false ∧ s.ptpOn d m.link.val = true ∧ m.typ = 8 ∧ m.ptpdom.toNat = s.g (Reg.TIME_d_CFG_PTPDOM (domNo d)) ∧ (s.ptp d).master = some m.master ∧ (s.ptp d).twoStep = some m.seq) ∧
    (∃ (s : State) (d : Dom) (m : PtpMsg) (t1 : FullTime) (t2 : FullTime) (t3 : FullTime), s.held = false ∧ s.ptpOn d m.link.val = true ∧ m.typ = 9 ∧ m.ptpdom.toNat = s.g (Reg.TIME_d_CFG_PTPDOM (domNo d)) ∧ (s.ptp d).master = some m.master ∧ (s.ptp d).reqSeq = m.seq ∧ (s.ptp d).t1 = some t1 ∧ (s.ptp d).t2 = some t2 ∧ (s.ptp d).t3 = some t3 ∧ s.g (Reg.TIME_d_STS_STATE (domNo d)) ≤ 2) ∧
    (∃ (s : State) (d : Dom), s.held = false ∧ s.ptpOn d (s.g (Reg.TIME_d_CFG_PORT (domNo d))) = true ∧ (s.ptp d).master ≠ none) ∧
    (∃ (s : State) (d : Dom), s.held = false ∧ (s.ptp d).master ≠ none) ∧
    (∃ (s : State) (d : Dom) (m : PtpMsg), s.held = false ∧ s.ptpOn d m.link.val = true ∧ (m.ptpdom.toNat ≠ s.g (Reg.TIME_d_CFG_PTPDOM (domNo d)) ∨ m.typ.toNat ∉ [0, 8, 9, 11])) ∧
    (∃ (s : State), s.boot.phase = .started ∧ s.valid (domOf (s.g Reg.TIME_PPS_CFG_DOM)) = true ∧ (s.dom (domOf (s.g Reg.TIME_PPS_CFG_DOM))).ns.toNat ≤ 2) :=
  ⟨⟨ptpOn0, Dom.a, pmsg 0xB, by decide +kernel⟩,
   ⟨ptpOn1, Dom.a, pmsg 0, by decide +kernel⟩,
   ⟨{ ptpOn1 with ptpA := { ptpOn1.ptpA with twoStep := some 9 } }, Dom.a, pmsg 8, by decide +kernel⟩,
   ⟨{ ptpOn1 with ptpA := { ptpOn1.ptpA with t1 := some ⟨1, 2, 3⟩, t2 := some ⟨1, 2, 3⟩, t3 := some ⟨1, 2, 3⟩, reqSeq := 9 } }, Dom.a, pmsg 9, ⟨1, 2, 3⟩, ⟨1, 2, 3⟩, ⟨1, 2, 3⟩, by decide +kernel⟩,
   ⟨ptpOn1, Dom.a, by decide +kernel⟩,
   ⟨ptpOn1, Dom.a, by decide +kernel⟩,
   ⟨ptpOn1, Dom.a, pmsg 1, by decide +kernel⟩,
   ⟨started.p (Reg.TIME_d_STS_VALID 0) 1, by decide +kernel⟩⟩

theorem witness_OperatingPointsFollowOccupancyAndDroop :
    (∃ (s : State) (i : Fin 13) (occ : Nat) (depth : Nat) (p : Nat), s.held = false ∧ (s.isl i).target = none ∧ p = min (if 3 * depth ≤ 4 * occ then (s.isl i).point + 1 else if 4 * occ ≤ depth ∧ s.islFloor i < (s.isl i).point then (s.isl i).point - 1 else (s.isl i).point) (s.islCeil i)) ∧
    (∃ (s : State) (i : Fin 13) (p : Nat), s.held = false ∧ (s.isl i).target = some p ∧ (s.isl i).waitAt = none) ∧
    (∃ (s : State) (i : Fin 13), s.held = false) ∧
    (∃ (s : State) (i : Fin 13), s.held = false) ∧
    (∃ (s : State) (i : Fin 13) (w : Nat), s.held = false ∧ (s.isl i).waitAt = some w ∧ w + 1000000 ≤ s.ticks) ∧
    (∃ (s : State) (i : Fin 13) (w : Nat), s.held = false ∧ (s.isl i).waitAt = some w ∧ s.ticks < w + 1000000) :=
  ⟨⟨linked.p Reg.PWR_CEIL_AR_CEIL 3, (2 : Fin 13), 3, 4, 1, by decide +kernel⟩,
   ⟨{ linked with pwr := { linked.pwr with isl := linked.pwr.isl.set 2 ⟨0, some 1, none, false⟩ } }, (2 : Fin 13), 1, by decide +kernel⟩,
   ⟨{ linked with pwr := { linked.pwr with isl := linked.pwr.isl.set 2 ⟨0, some 1, none, false⟩ } }, (2 : Fin 13), by decide +kernel⟩,
   ⟨{ linked with pwr := { linked.pwr with isl := linked.pwr.isl.set 2 ⟨0, some 1, some 5, true⟩ } }, (2 : Fin 13), by decide +kernel⟩,
   ⟨{ linked with ticks := 1000005, pwr := { linked.pwr with isl := linked.pwr.isl.set 12 ⟨0, some 1, some 5, true⟩ } }, (12 : Fin 13), 5, by decide +kernel⟩,
   ⟨{ linked with ticks := 1000004, pwr := { linked.pwr with isl := linked.pwr.isl.set 12 ⟨0, some 1, some 5, true⟩ } }, (12 : Fin 13), 5, by decide +kernel⟩⟩

theorem witness_CapControllerTightensAndRelaxes :
    (∃ (s : State) (rep : PowerRep), s.boot.phase = .started ∧ s.g Reg.PWR_STS_STATE = 0 ∧ s.pwr.sheds = [] ∧ s.pwr.hold = false ∧ s.pwr.floorAt = none ∧ s.effCap < rep.p ∧ (0 < s.g Reg.PWR_CEIL_AR_CEIL ∨ 0 < s.g Reg.PWR_CEIL_LN_CEIL)) ∧
    (∃ (s : State) (rep : PowerRep), s.boot.phase = .started ∧ s.g Reg.PWR_STS_STATE = 0 ∧ s.pwr.sheds = [] ∧ s.pwr.hold = false ∧ s.pwr.floorAt = none ∧ s.effCap < rep.p ∧ s.g Reg.PWR_CEIL_AR_CEIL = 0 ∧ s.g Reg.PWR_CEIL_LN_CEIL = 0 ∧ s.g Reg.PWR_STS_DUTY < 56 ∧ rep.pc ≠ 0) ∧
    (∃ (s : State) (rep : PowerRep), s.boot.phase = .started ∧ s.g Reg.PWR_STS_STATE = 0 ∧ s.pwr.sheds = [] ∧ s.pwr.hold = false ∧ s.pwr.floorAt = none ∧ s.effCap < rep.p ∧ s.g Reg.PWR_CEIL_AR_CEIL = 0 ∧ s.g Reg.PWR_CEIL_LN_CEIL = 0 ∧ s.g Reg.PWR_STS_DUTY = 56 ∧ 0 < s.g Reg.PWR_CEIL_FB_CEIL) ∧
    (∃ (s : State) (rep : PowerRep), s.boot.phase = .started ∧ s.g Reg.PWR_STS_STATE = 0 ∧ s.pwr.sheds = [] ∧ s.pwr.hold = false ∧ rep.p ≤ s.effCap ∧ 49 * s.effCap ≤ 50 * rep.p) ∧
    (∃ (s : State) (rep : PowerRep), s.boot.phase = .started ∧ s.g Reg.PWR_STS_STATE = 0 ∧ s.pwr.sheds = [] ∧ s.pwr.hold = false ∧ 50 * rep.p < 49 * s.effCap ∧ s.pwr.relax = 9) ∧
    (∃ (s : State) (g : Byte) (v : Word), s.held = false ∧ (g = 0 ∨ g = 0x70) ∧ s.pwr.sheds = [] ∧ s.pwr.hold = false ∧ 240 ≤ v.toNat % 1024 ∧ v.toNat % 1024 ≤ 720) ∧
    (∃ (s : State) (g : Byte) (v : Word), s.held = false ∧ (g = 0 ∨ g = 0x70) ∧ (v.toNat % 1024 < 240 ∨ 720 < v.toNat % 1024)) ∧
    (∃ (s : State) (p : Nat) (j : Nat) (p0 : Nat), s.held = false ∧ s.pwr.measure = some (j, p0)) :=
  ⟨⟨capped, ⟨3000, 2990, 500⟩, by decide +kernel⟩,
   ⟨(capped.p Reg.PWR_CEIL_AR_CEIL 0).p Reg.PWR_CEIL_LN_CEIL 0, ⟨3000, 2990, 500⟩, by decide +kernel⟩,
   ⟨((capped.p Reg.PWR_CEIL_AR_CEIL 0).p Reg.PWR_CEIL_LN_CEIL 0).p Reg.PWR_STS_DUTY 56, ⟨3000, 2990, 0⟩, by decide +kernel⟩,
   ⟨capped, ⟨2400, 2400, 500⟩, by decide +kernel⟩,
   ⟨{ capped with pwr := { capped.pwr with relax := 9 } }, ⟨1000, 1000, 500⟩, by decide +kernel⟩,
   ⟨linked, 0x70#8, 240#32, by decide +kernel⟩,
   ⟨linked, 0#8, 721#32, by decide +kernel⟩,
   ⟨{ linked with pwr := { linked.pwr with measure := some (3, 900), sheds := [(3, 0)] } }, 700, 3, 900, by decide +kernel⟩⟩

theorem witness_PowerStatesAndTemperatureAct :
    (∃ (s : State) (c : Nat), s.held = false ∧ s.pwr.trans = some ⟨1, c⟩ ∧ ((s.g Reg.PWR_STS_STATE = 0 → s.bgBusy = false))) ∧
    (∃ (s : State) (c : Nat), s.held = false ∧ s.pwr.trans = some ⟨2, c⟩ ∧ ((s.g Reg.PWR_STS_STATE = 0 → s.bgBusy = false)) ∧ s.pwr.wake = none) ∧
    (∃ (s : State) (x : Nat) (c : Nat), s.held = false ∧ x ≠ 0 ∧ s.pwr.trans = some ⟨x, c⟩ ∧ s.g Reg.PWR_STS_STATE = 0 ∧ s.bgBusy = true) ∧
    (∃ (s : State) (c : Nat), s.held = false ∧ s.pwr.trans = some ⟨0, c⟩ ∧ s.jobNums = []) ∧
    (∃ (s : State) (x : Nat) (y : Nat), s.held = false ∧ s.pwr.wake = some (x, y) ∧ s.g Reg.PWR_STS_STATE = 2 ∧ s.pwr.trans = none ∧ s.pwr.tripped = false ∧ x * 1000000000 + y ≤ s.domA.nanos) ∧
    (∃ (s : State) (l : List (BitVec 16)), s.held = false ∧ l ≠ [] ∧ s.pwr.therm = none ∧ (hottest l).1 < 800) ∧
    (∃ (s : State) (l : List (BitVec 16)), s.held = false ∧ l ≠ [] ∧ s.pwr.therm = none ∧ 800 ≤ (hottest l).1 ∧ (hottest l).1 < 920 ∧ s.g Reg.PWR_STS_STATE = 0) ∧
    (∃ (s : State) (l : List (BitVec 16)), s.held = false ∧ l ≠ [] ∧ s.pwr.tripped = false ∧ 920 ≤ (hottest l).1) :=
  ⟨⟨{ ringed with pwr := { ringed.pwr with trans := some ⟨1, 0⟩ } }, 0, by decide +kernel⟩,
   ⟨{ ringed with pwr := { ringed.pwr with trans := some ⟨2, 0⟩ } }, 0, by decide +kernel⟩,
   ⟨{ slicing with pwr := { slicing.pwr with trans := some ⟨1, 0⟩ }, fronds := slicing.fronds.set 0 { Frond.idle with gens := [⟨1, 1⟩] } }, 1, 0, by decide +kernel⟩,
   ⟨{ (ringed.p Reg.PWR_STS_STATE 1) with pwr := { ringed.pwr with trans := some ⟨0, 2⟩ } }, 2, by decide +kernel⟩,
   ⟨{ (clocked.p Reg.PWR_STS_STATE 2) with pwr := { clocked.pwr with wake := some (5, 500) } }, 5, 500, by decide +kernel⟩,
   ⟨linked, [799, 0xFFFF], by decide +kernel⟩,
   ⟨{ linked with pwr := { linked.pwr with p := 2000 } }, [5, 919], by decide +kernel⟩,
   ⟨{ linked with pwr := { linked.pwr with p := 2000 } }, [5, 920], by decide +kernel⟩⟩

theorem witness_FaultCommandsClassifyAndJournal_1 :
    (∃ (s : State) (g : Byte) (j : Option (Fin 16)) (l : Loc) (a : Addr) (ok : Bool), s.held = false ∧ chargeable (locOf l) = true ∧ locKind (locOf l) ≠ 7 ∧ s.locOwner (locOf l) = none ∧ s.flt.hist.any (fun e => e.loc == locOf l) = false ∧ s.flt.hist.length < 256) ∧
    (∃ (s : State) (g : Byte) (u : Byte) (l : Loc) (ok : Bool), s.held = false ∧ locKind (locOf l) = 6 ∧ locIndex (locOf l) ∈ [1, 3, 4, 6] ∧ g.toNat % 16 = u.toNat % 16 ∧ s.locOwner (locOf l) = none ∧ s.flt.hist.any (fun e => e.loc == locOf l) = false ∧ s.flt.hist.length < 256) ∧
    (∃ (s : State) (b : Fin 1024) (n : Nat), s.held = false ∧ s.flt.ce = [((locCode 1 15 b).toNat, n)] ∧ s.g Reg.FLT_CFG_CE_THR < n) ∧
    (∃ (s : State) (b : Fin 1024) (l : List (Fin 8192)), s.held = false ∧ s.flt.rateTests.contains b.val = true) ∧
    (∃ (s : State) (b : Fin 1024) (k : Nat) (l : List (Fin 8192)), s.held = false ∧ s.flt.rateTests.contains b.val = true ∧ s.locOwner (locCode 1 15 b) = none ∧ s.freeSpare = some k) ∧
    (∃ (s : State) (l : Loc), s.held = false) ∧
    (∃ (s : State), s.held = false) ∧
    (∃ (s : State) (m : Word), s.held = false) ∧
    (∃ (s : State) (m : Word), s.held = false ∧ m.toNat ≠ s.g Reg.FLT_LANE_RET ∧ s.memw = false) ∧
    (∃ (s : State) (r : JrnlRec) (e : Bool), s.held = false ∧ s.jrnlOpen = true ∧ s.jrnlHead = some r) :=
  ⟨⟨linked, 0x10#8, none, ⟨1, 15, 5⟩, 7#48, true, by decide +kernel⟩,
   ⟨linked, 0x13#8, 3#8, ⟨6, 1, 3⟩, false, by decide +kernel⟩,
   ⟨{ linked with flt := { linked.flt with ce := [((locCode 1 15 9).toNat, 100000)] } }, (9 : Fin 1024), 100000, by decide +kernel⟩,
   ⟨{ linked with flt := { linked.flt with rateTests := [9] } }, (9 : Fin 1024), [5], by decide +kernel⟩,
   ⟨{ linked with flt := { linked.flt with rateTests := [9] } }, (9 : Fin 1024), 0, [5], by decide +kernel⟩,
   ⟨{ linked with flt := { linked.flt with hist := [⟨0x0005F1, 0⟩] } }, ⟨1, 15, 5⟩, by decide +kernel⟩,
   ⟨linked, by decide +kernel⟩,
   ⟨linked.p Reg.FLT_LANE_RET 0x0F, 0x05#32, by decide +kernel⟩,
   ⟨fielded, 1#32, by decide +kernel⟩,
   ⟨{ linked with flashSize := 0x4000000, flt := { linked.flt with waiting := [⟨[1], true⟩] } }, ⟨[1], true⟩, true, by decide +kernel⟩⟩

theorem witness_FaultCommandsClassifyAndJournal_2 :
    ∃ (s : State), s.held = false :=
  ⟨linked, by decide +kernel⟩

theorem witness_JobsBecomeReadyAndRestart :
    (∃ (s : State) (g : Byte) (v : Word) (j : Fin 16), s.held = false ∧ (g = 0 ∨ g = 0x70) ∧ v.getLsbD Reg.JOB_RESTART_GO.lo = true ∧ bits v.toNat Reg.JOB_RESTART_JOB.lo Reg.JOB_RESTART_JOB.width = j.val ∧ (s.job j).bind.valid = true ∧ s.jst j ≠ 3 ∧ s.jst j ≠ 4 ∧ s.zeroLock = false ∧ s.flt.tests = [] ∧ s.flt.perm = []) ∧
    (∃ (s : State) (g : Byte) (v : Word) (j : Fin 16), s.held = false ∧ (g = 0 ∨ g = 0x70) ∧ v.getLsbD Reg.JOB_RESTART_GO.lo = true ∧ bits v.toNat Reg.JOB_RESTART_JOB.lo Reg.JOB_RESTART_JOB.width = j.val ∧ ((s.job j).bind.valid = false ∨ s.jst j = 3) ∧ v.toNat < 2 ^ 5) ∧
    (∃ (s : State) (j : Fin 16) (r : Restart), s.held = false ∧ (s.job j).restart = some r ∧ s.jst j = 3 ∧ r.adopt = false ∧ s.rebind = none ∧ (s.job j).bind.role ≠ 3 ∧ ((∀ g, s.graph j = some g → ∀ x ∈ g.descriptors, s.access (unitSrc x.frond 6) j (grnBase + 32 * x.place.toNat) 32 true = .ok))) ∧
    (∃ (s : State) (j : Fin 16) (r : Restart), s.held = false ∧ (s.job j).restart = some r ∧ s.jst j = 3 ∧ s.adopt = none) ∧
    (∃ (s : State) (b : Rebind), s.held = false ∧ s.rebind = some b ∧ b.recs ≠ [] ∧ (b.recs.map (fun x => x.1)).Nodup ∧ (∀ x ∈ b.recs, x.1 < 16 ∧ x.2.valid = true) ∧ s.isMember = false ∧ s.flt.tests = [] ∧ s.flt.perm = [] ∧ s.rebound b ≠ [] ∧ s.slotBoundary = true ∧ s.atReached false b.atSec b.atNs = true) ∧
    (∃ (s : State) (b : Rebind), s.held = false ∧ s.rebind = some b ∧ (s.slotBoundary = false ∨ s.atReached (s.isMember && b.recs.any (fun x => s.gjobs.testBit x.1)) b.atSec b.atNs = false)) :=
  ⟨⟨working, 0x70#8, 0x10#32, (0 : Fin 16), by decide +kernel⟩,
   ⟨working, 0x70#8, 0x11#32, (1 : Fin 16), by decide +kernel⟩,
   ⟨{ (working.setJst 0 3) with jobs := working.jobs.set 0 { job0 with restart := some ⟨5, false, false, false⟩ } }, (0 : Fin 16), ⟨5, false, false, false⟩, by decide +kernel⟩,
   ⟨{ (working.setJst 0 3) with jobs := working.jobs.set 0 { job0 with restart := some ⟨5, false, false, false⟩ } }, (0 : Fin 16), ⟨5, false, false, false⟩, by decide +kernel⟩,
   ⟨{ working with rebind := some ⟨0, 0, [(0, { job0.bind with fronds := 2 })], [0]⟩ }, ⟨0, 0, [(0, { job0.bind with fronds := 2 })], [0]⟩, by decide +kernel⟩,
   ⟨{ working with rebind := some ⟨9, 0, [(0, { job0.bind with fronds := 2 })], [0]⟩ }, ⟨9, 0, [(0, { job0.bind with fronds := 2 })], [0]⟩, by decide +kernel⟩⟩

theorem witness_SlicesEndSwitchAndStick :
    (∃ (s : State) (m : BitVec 6) (r : Ring) (n : Nat), s.held = false ∧ s.ringBy m = some r ∧ r.endedAt = none ∧ s.ringNext r = some n ∧ s.inRun = true ∧ r.began + (s.job r.running).bind.sliceMs * 1000000 ≤ (s.dom .a).nanos + (s.job r.running).short) ∧
    (∃ (s : State) (m : BitVec 6) (r : Ring) (n : Nat) (k : Nat), s.held = false ∧ s.ringBy m = some r ∧ r.endedAt = some k ∧ s.ringNext r = some n ∧ r.switch = false ∧ s.ringBusy m = none) ∧
    (∃ (s : State) (m : BitVec 6) (r : Ring) (k : Nat) (src : Nat), s.held = false ∧ s.ringBy m = some r ∧ r.endedAt = some k ∧ r.switch = false ∧ s.ringBusy m = some src ∧ k + 100000 ≤ s.ticks ∧ s.adopt = none ∧ s.flt.tests = [] ∧ s.flt.perm = []) ∧
    (∃ (s : State) (m : BitVec 6) (r : Ring) (n : Nat), s.held = false ∧ s.ringBy m = some r ∧ r.switch = true ∧ s.ringNext r = some n) ∧
    (∃ (s : State) (m : BitVec 6) (r : Ring), s.held = false ∧ s.ringBy m = some r ∧ (s.dom .a).nanos + (s.job r.running).short < r.began + (s.job r.running).bind.sliceMs * 1000000) ∧
    (∃ (s : State) (m : BitVec 6) (r : Ring) (k : Nat), s.held = false ∧ s.ringBy m = some r ∧ r.endedAt = some k ∧ s.ticks < k + 100000) :=
  ⟨⟨slicing.setDom .a { slicing.dom .a with ns := 2000000 }, 3#6, ⟨3, 0, 0, none, false⟩, 1, by decide +kernel⟩,
   ⟨{ slicing with rings := [⟨3, 0, 0, some 3, false⟩], ticks := 9 }, 3#6, ⟨3, 0, 0, some 3, false⟩, 1, 3, by decide +kernel⟩,
   ⟨{ slicing with rings := [⟨3, 0, 0, some 3, false⟩], ticks := 100003, fronds := slicing.fronds.set 0 { Frond.idle with gens := [⟨1, 1⟩] } }, 3#6, ⟨3, 0, 0, some 3, false⟩, 3, 0x10, by decide +kernel⟩,
   ⟨{ slicing with rings := [⟨3, 0, 0, some 3, true⟩] }, 3#6, ⟨3, 0, 0, some 3, true⟩, 1, by decide +kernel⟩,
   ⟨slicing.setDom .a { slicing.dom .a with ns := 1999999 }, 3#6, ⟨3, 0, 0, none, false⟩, by decide +kernel⟩,
   ⟨{ slicing with rings := [⟨3, 0, 0, some 3, false⟩], ticks := 100002 }, 3#6, ⟨3, 0, 0, some 3, false⟩, 3, by decide +kernel⟩⟩

theorem witness_VectorLanesActUnderMask_1 :
    (∃ (s : State) (f : Fin 6) (r : VecRun) (o : VecOp), s.held = false ∧ s.vecNext f = some (r, 0x05, o) ∧ (∀ k ∈ r.lanes o, vecClosed [r.num o o.a k, r.num o o.b k] = true)) ∧
    (∃ (s : State) (f : Fin 6) (r : VecRun) (o : VecOp), s.held = false ∧ s.vecNext f = some (r, 0x06, o) ∧ (∀ k ∈ r.lanes o, vecClosed [r.num o o.a k, r.num o o.b k] = true)) ∧
    (∃ (s : State) (f : Fin 6) (r : VecRun) (o : VecOp), s.held = false ∧ s.vecNext f = some (r, 0x07, o) ∧ (∀ k ∈ r.lanes o, vecClosed [r.num o o.a k, r.num o o.b k] = true)) ∧
    (∃ (s : State) (f : Fin 6) (r : VecRun) (o : VecOp), s.held = false ∧ s.vecNext f = some (r, 0x08, o) ∧ (∀ k ∈ r.lanes o, vecClosed [r.num o o.a k, r.num o o.b k, r.num o o.c k] = true)) ∧
    (∃ (s : State) (f : Fin 6) (r : VecRun) (o : VecOp), s.held = false ∧ s.vecNext f = some (r, 0x10, o) ∧ (∀ k ∈ r.lanes o, vecClosed [r.num o o.a k] = true)) ∧
    (∃ (s : State) (f : Fin 6) (r : VecRun) (o : VecOp), s.held = false ∧ s.vecNext f = some (r, 0x1E, o) ∧ (∀ k ∈ r.lanes o, vecClosed [r.num o o.a (k / 2 * 2), r.num o o.a (k / 2 * 2 + 1), r.num o o.b (k / 2 * 2), r.num o o.b (k / 2 * 2 + 1)] = true)) ∧
    (∃ (s : State) (f : Fin 6) (r : VecRun) (o : VecOp), s.held = false ∧ s.vecNext f = some (r, 0x09, o)) ∧
    (∃ (s : State) (f : Fin 6) (r : VecRun) (o : VecOp), s.held = false ∧ s.vecNext f = some (r, 0x0A, o)) ∧
    (∃ (s : State) (f : Fin 6) (r : VecRun) (o : VecOp), s.held = false ∧ s.vecNext f = some (r, 0x0B, o)) ∧
    (∃ (s : State) (f : Fin 6) (r : VecRun) (o : VecOp), s.held = false ∧ s.vecNext f = some (r, 0x0C, o)) :=
  ⟨⟨vecAt (vw 0x5 1 1 1 0 0), 0, vrun, ⟨.int16, 1, 0, 1, 0, 0, false, 0⟩, by decide +kernel⟩,
   ⟨vecAt (vw 0x6 1 1 1 0 0), 0, vrun, ⟨.int16, 1, 0, 1, 0, 0, false, 0⟩, by decide +kernel⟩,
   ⟨vecAt (vw 0x7 1 1 1 0 0), 0, vrun, ⟨.int16, 1, 0, 1, 0, 0, false, 0⟩, by decide +kernel⟩,
   ⟨vecAt (vw 0x8 1 1 1 2 0), 0, vrun, ⟨.int16, 1, 0, 1, 0, 2, false, 0⟩, by decide +kernel⟩,
   ⟨vecAt (vw 0x10 3 1 1 0 255), 0, vrun, ⟨.fp16, 1, 0, 1, 0, 0, false, 255⟩, by decide +kernel⟩,
   ⟨vecAt (vw 0x1E 1 1 1 0 1), 0, vrun, ⟨.int16, 1, 0, 1, 0, 0, false, 1⟩, by decide +kernel⟩,
   ⟨vecAt (vw 0x9 1 1 1 0 0), 0, vrun, ⟨.int16, 1, 0, 1, 0, 0, false, 0⟩, by decide +kernel⟩,
   ⟨vecAt (vw 0xA 1 1 1 0 0), 0, vrun, ⟨.int16, 1, 0, 1, 0, 0, false, 0⟩, by decide +kernel⟩,
   ⟨vecAt (vw 0xB 1 1 1 0 0), 0, vrun, ⟨.int16, 1, 0, 1, 0, 0, false, 0⟩, by decide +kernel⟩,
   ⟨vecAt (vw 0xC 1 1 1 0 0), 0, vrun, ⟨.int16, 1, 0, 1, 0, 0, false, 0⟩, by decide +kernel⟩⟩

theorem witness_VectorLanesActUnderMask_2 :
    (∃ (s : State) (f : Fin 6) (r : VecRun) (o : VecOp), s.held = false ∧ s.vecNext f = some (r, 0x0D, o)) ∧
    (∃ (s : State) (f : Fin 6) (r : VecRun) (o : VecOp), s.held = false ∧ s.vecNext f = some (r, 0x04, o)) ∧
    (∃ (s : State) (f : Fin 6) (r : VecRun) (o : VecOp), s.held = false ∧ s.vecNext f = some (r, 0x11, o)) ∧
    (∃ (s : State) (f : Fin 6) (r : VecRun) (o : VecOp), s.held = false ∧ s.vecNext f = some (r, 0x03, o)) ∧
    (∃ (s : State) (f : Fin 6) (r : VecRun) (o : VecOp), s.held = false ∧ s.vecNext f = some (r, 0x0E, o)) ∧
    (∃ (s : State) (f : Fin 6) (r : VecRun) (o : VecOp), s.held = false ∧ s.vecNext f = some (r, 0x0F, o)) ∧
    (∃ (s : State) (f : Fin 6) (r : VecRun) (o : VecOp), s.held = false ∧ s.vecNext f = some (r, 0x12, o)) ∧
    (∃ (s : State) (f : Fin 6) (r : VecRun) (o : VecOp), s.held = false ∧ s.vecNext f = some (r, 0x13, o)) ∧
    (∃ (s : State) (f : Fin 6) (r : VecRun) (o : VecOp), s.held = false ∧ s.vecNext f = some (r, 0x14, o)) ∧
    (∃ (s : State) (f : Fin 6) (r : VecRun) (o : VecOp), s.held = false ∧ s.vecNext f = some (r, 0x19, o)) :=
  ⟨⟨vecAt (vw 0xD 1 1 1 2 0), 0, vrun, ⟨.int16, 1, 0, 1, 0, 2, false, 0⟩, by decide +kernel⟩,
   ⟨vecAt (vw 0x4 1 1 1 0 0), 0, vrun, ⟨.int16, 1, 0, 1, 0, 0, false, 0⟩, by decide +kernel⟩,
   ⟨vecAt (vw 0x11 1 1 1 0 3), 0, vrun, ⟨.int16, 1, 0, 1, 0, 0, false, 3⟩, by decide +kernel⟩,
   ⟨vecAt (vw 0x3 1 1 1 0 0), 0, vrun, ⟨.int16, 1, 0, 1, 0, 0, false, 0⟩, by decide +kernel⟩,
   ⟨vecAt (vw 0xE 1 1 1 0 15), 0, vrun, ⟨.int16, 1, 0, 1, 0, 0, false, 15⟩, by decide +kernel⟩,
   ⟨vecAt (vw 0xF 1 1 1 0 1), 0, vrun, ⟨.int16, 1, 0, 1, 0, 0, false, 1⟩, by decide +kernel⟩,
   ⟨vecAt (vw 0x12 1 1 1 0 0), 0, vrun, ⟨.int16, 1, 0, 1, 0, 0, false, 0⟩, by decide +kernel⟩,
   ⟨vecAt (vw 0x13 1 1 1 0 0), 0, vrun, ⟨.int16, 1, 0, 1, 0, 0, false, 0⟩, by decide +kernel⟩,
   ⟨vecAt (vw 0x14 1 1 1 0 0), 0, vrun, ⟨.int16, 1, 0, 1, 0, 0, false, 0⟩, by decide +kernel⟩,
   ⟨vecAt (vw 0x19 3 1 1 0 0), 0, vrun, ⟨.fp16, 1, 0, 1, 0, 0, false, 0⟩, by decide +kernel⟩⟩

theorem witness_VectorLanesActUnderMask_3 :
    (∃ (s : State) (f : Fin 6) (r : VecRun) (o : VecOp), s.held = false ∧ s.vecNext f = some (r, 0x1A, o)) ∧
    (∃ (s : State) (f : Fin 6) (r : VecRun) (o : VecOp), s.held = false ∧ s.vecNext f = some (r, 0x1B, o)) ∧
    (∃ (s : State) (f : Fin 6) (r : VecRun) (o : VecOp), s.held = false ∧ s.vecNext f = some (r, 0x1C, o)) ∧
    (∃ (s : State) (f : Fin 6) (r : VecRun) (o : VecOp), s.held = false ∧ s.vecNext f = some (r, 0x15, o)) ∧
    (∃ (s : State) (f : Fin 6) (r : VecRun) (o : VecOp), s.held = false ∧ s.vecNext f = some (r, 0x16, o)) ∧
    (∃ (s : State) (f : Fin 6) (r : VecRun) (o : VecOp), s.held = false ∧ s.vecNext f = some (r, 0x17, o)) ∧
    (∃ (s : State) (f : Fin 6) (c : Instr) (op : Nat) (r : VecRun) (o : VecOp), (c, op) ∈ vecRoundCommands f ∧ s.held = false ∧ s.vecNext f = some (r, op, o)) ∧
    (∃ (s : State) (f : Fin 6) (r : VecRun) (o : VecOp), s.held = false ∧ s.vecNext f = some (r, 0x18, o)) ∧
    (∃ (s : State) (f : Fin 6) (r : VecRun) (o : VecOp), s.held = false ∧ s.vecNext f = some (r, 0x00, o)) :=
  ⟨⟨vecAt (vw 0x1A 3 1 1 0 0), 0, vrun, ⟨.fp16, 1, 0, 1, 0, 0, false, 0⟩, by decide +kernel⟩,
   ⟨vecAt (vw 0x1B 3 1 1 0 0), 0, vrun, ⟨.fp16, 1, 0, 1, 0, 0, false, 0⟩, by decide +kernel⟩,
   ⟨vecAt (vw 0x1C 3 1 1 0 0), 0, vrun, ⟨.fp16, 1, 0, 1, 0, 0, false, 0⟩, by decide +kernel⟩,
   ⟨vecAt (vw 0x15 1 1 1 0 0), 0, vrun, ⟨.int16, 1, 0, 1, 0, 0, false, 0⟩, by decide +kernel⟩,
   ⟨vecAt (vw 0x16 1 1 1 0 0), 0, vrun, ⟨.int16, 1, 0, 1, 0, 0, false, 0⟩, by decide +kernel⟩,
   ⟨vecAt (vw 0x17 1 1 1 0 0), 0, vrun, ⟨.int16, 1, 0, 1, 0, 0, false, 0⟩, by decide +kernel⟩,
   ⟨vecAt (vw 0x10 3 1 0 0 255), 0, Instr.vecScl 0, 16, vrun, ⟨.fp16, 1, 0, 0, 0, 0, false, 0xFF⟩, by decide +kernel⟩,
   ⟨vecAt (vw 0x18 1 1 1 2 0), 0, vrun, ⟨.int16, 1, 0, 1, 0, 2, false, 0⟩, by decide +kernel⟩,
   ⟨vecAt 0, 0, vrun, ⟨.int8, 0, 0, 0, 0, 0, false, 0⟩, by decide +kernel⟩⟩

theorem witness_VectorMemoryInstructionsAct :
    (∃ (s : State) (f : Fin 6) (b : Nat) (r : VecRun) (o : VecOp), s.held = false ∧ s.vecNext f = some (r, 0x01, o) ∧ (r.lanes o).any (fun k => s.lanePoison f (vport r.cmd (o.imm.toNat % 4)).fmt ((vport r.cmd (o.imm.toNat % 4)).at r.iter) k) = false) ∧
    (∃ (s : State) (f : Fin 6) (b : Nat) (r : VecRun) (o : VecOp), s.held = false ∧ s.vecNext f = some (r, 0x02, o) ∧ (o.imm.getLsbD 7 = false ∨ r.iter + 1 = r.nv) ∧ (vport r.cmd (3 + o.imm.toNat % 2)).fmt = ownFmt o.ty) ∧
    (∃ (s : State) (f : Fin 6) (b : Nat) (r : VecRun) (o : VecOp), s.held = false ∧ s.vecNext f = some (r, 0x02, o) ∧ o.imm.getLsbD 7 = true ∧ r.iter + 1 ≠ r.nv) ∧
    (∃ (s : State) (f : Fin 6) (b : Nat) (r : VecRun) (o : VecOp) (p : VPort) (w : Nat), s.held = false ∧ s.vecNext f = some (r, 0x02, o) ∧ p = vport r.cmd (3 + o.imm.toNat % 2) ∧ w = p.at r.iter) ∧
    (∃ (s : State) (f : Fin 6) (r : VecRun) (o : VecOp), s.held = false ∧ s.vecNext f = some (r, 0x1F, o) ∧ (∀ k ∈ r.lanes o, s.poisoned (leafBase f + 0x500000 + 32 * cfield r.cmd 2 16 15 + 32 + 1024 * (o.imm.toNat % 4) + vtBytes o.ty * (r.src o o.a k % 256)) (vtBytes o.ty) = false)) ∧
    (∃ (s : State) (f : Fin 6) (r : VecRun) (o : VecOp), s.held = false ∧ s.vecNext f = some (r, 0x1D, o) ∧ (1 < vtBytes o.ty ∨ o.b.val % 2 = 0)) ∧
    (∃ (s : State) (f : Fin 6) (b : Nat) (r : VecRun) (o : VecOp) (j : Nat), s.held = false ∧ s.vecNext f = some (r, 0x01, o) ∧ s.jobOf f = some j ∧ s.plainJob j ∧ (r.lanes o).any (fun k => s.lanePoison f (vport r.cmd (o.imm.toNat % 4)).fmt ((vport r.cmd (o.imm.toNat % 4)).at r.iter) k) = true) ∧
    (∃ (s : State) (f : Fin 6) (r : VecRun) (o : VecOp) (j : Nat) (k : Nat), s.held = false ∧ s.vecNext f = some (r, 0x1F, o) ∧ s.jobOf f = some j ∧ s.plainJob j ∧ k ∈ r.lanes o ∧ s.poisoned (leafBase f + 0x500000 + 32 * cfield r.cmd 2 16 15 + 32 + 1024 * (o.imm.toNat % 4) + vtBytes o.ty * (r.src o o.a k % 256)) (vtBytes o.ty) = true) :=
  ⟨⟨vecAt (vw 1 1 1 0 0 0), 0, 3, vrun, ⟨.int16, 1, 0, 0, 0, 0, false, 0⟩, by decide +kernel⟩,
   ⟨vecAt (vw 2 1 1 0 0 0), 0, 3, vrun, ⟨.int16, 1, 0, 0, 0, 0, false, 0⟩, by decide +kernel⟩,
   ⟨vecIn (vw 2 1 1 0 0 0x80) ⟨[], some vrun2, [], false⟩, 0, 3, vrun2, ⟨.int16, 1, 0, 0, 0, 0, false, 0x80⟩, by decide +kernel⟩,
   ⟨vecIn (vw 2 1 1 0 0 1) ⟨[], some vrunB, [], false⟩, 0, 3, vrunB, ⟨.int16, 1, 0, 0, 0, 0, false, 1⟩, ⟨0x20, 0, 0xB, 0⟩, 0x20, by decide +kernel⟩,
   ⟨vecAt (vw 0x1F 1 1 0 0 0), 0, vrun, ⟨.int16, 1, 0, 0, 0, 0, false, 0⟩, by decide +kernel⟩,
   ⟨vecAt (vw 0x1D 1 1 2 0 0), 0, vrun, ⟨.int16, 1, 0, 2, 0, 0, false, 0⟩, by decide +kernel⟩,
   ⟨{ (vecAt (vw 1 1 1 0 0 0)) with poison := [eccWord (winAddr 0 0)] }, 0, 3, vrun, ⟨.int16, 1, 0, 0, 0, 0, false, 0⟩, 0, by decide +kernel⟩,
   ⟨{ (vecAt (vw 0x1F 1 1 0 0 0)) with poison := [eccWord (winAddr 0 32)] }, 0, vrun, ⟨.int16, 1, 0, 0, 0, 0, false, 0⟩, 0, 0, by decide +kernel⟩⟩

theorem witness_VectorReductionsAct :
    (∃ (s : State) (f : Fin 6) (r : VecRun) (o : VecOp), s.held = false ∧ s.vecNext f = some (r, 0x20, o) ∧ vtFp o.ty = none) ∧
    (∃ (s : State) (f : Fin 6) (r : VecRun) (o : VecOp), s.held = false ∧ s.vecNext f = some (r, 0x20, o) ∧ (vtFp o.ty).isSome = true ∧ s.det = true ∧ (∀ k ∈ r.lanes o, (r.num o o.a k).isInf = false) ∧ ((o.imm.getLsbD 0 = true → (scalarNum true (r.s.get o.d)).isInf = false))) ∧
    (∃ (s : State) (f : Fin 6) (r : VecRun) (o : VecOp) (k : Nat) (x : Machine.Num), s.held = false ∧ s.vecNext f = some (r, 0x21, o) ∧ extreme true ((r.lanes o).map (fun k => (k, r.num o o.a k))) = some (k, x)) ∧
    (∃ (s : State) (f : Fin 6) (r : VecRun) (o : VecOp) (k : Nat) (x : Machine.Num), s.held = false ∧ s.vecNext f = some (r, 0x22, o) ∧ extreme false ((r.lanes o).map (fun k => (k, r.num o o.a k))) = some (k, x)) ∧
    (∃ (s : State) (f : Fin 6) (r : VecRun) (o : VecOp) (k : Nat) (x : Machine.Num), s.held = false ∧ s.vecNext f = some (r, 0x23, o) ∧ extreme true ((r.lanes o).map (fun k => (k, r.num o o.a k))) = some (k, x) ∧ o.d.val % 2 = 0) ∧
    (∃ (s : State) (f : Fin 6) (r : VecRun) (o : VecOp) (k : Nat) (x : Machine.Num), s.held = false ∧ s.vecNext f = some (r, 0x24, o) ∧ extreme false ((r.lanes o).map (fun k => (k, r.num o o.a k))) = some (k, x) ∧ o.d.val % 2 = 0) ∧
    (∃ (s : State) (f : Fin 6) (c : Instr) (op : Nat) (g : Bool) (i : Bool) (r : VecRun) (o : VecOp), (c, op, g, i) ∈ [(Instr.vecRmax f, 0x21, true, false), (Instr.vecRmin f, 0x22, false, false), (Instr.vecRmaxi f, 0x23, true, true), (Instr.vecRmini f, 0x24, false, true)] ∧ s.held = false ∧ s.vecNext f = some (r, op, o) ∧ extreme g ((r.lanes o).map (fun k => (k, r.num o o.a k))) = none ∧ o.imm.getLsbD 0 = true) ∧
    (∃ (g : Bool) (l : List (Nat × Machine.Num)) (k : Nat) (x : Machine.Num), extreme g l = some (k, x)) ∧
    (∃ (s : State) (f : Fin 6) (r : VecRun) (o : VecOp), s.held = false ∧ s.vecNext f = some (r, 0x25, o)) :=
  ⟨⟨vecAt (vw 0x20 2 1 0 0 1), 0, vrun, ⟨.int32, 1, 0, 0, 0, 0, false, 1⟩, by decide +kernel⟩,
   ⟨detOn (vw 0x20 3 1 0 0 1), 0, vrun, ⟨.fp16, 1, 0, 0, 0, 0, false, 1⟩, by decide +kernel⟩,
   ⟨vecAt (vw 0x21 1 2 0 0 0), 0, vrun, ⟨.int16, 2, 0, 0, 0, 0, false, 0⟩, 1, .fin false 2 0, by decide +kernel⟩,
   ⟨vecAt (vw 0x22 1 2 0 0 0), 0, vrun, ⟨.int16, 2, 0, 0, 0, 0, false, 0⟩, 2, .fin false 0 0, by decide +kernel⟩,
   ⟨vecAt (vw 0x23 1 2 0 0 0), 0, vrun, ⟨.int16, 2, 0, 0, 0, 0, false, 0⟩, 1, .fin false 2 0, by decide +kernel⟩,
   ⟨vecAt (vw 0x24 1 2 0 0 0), 0, vrun, ⟨.int16, 2, 0, 0, 0, 0, false, 0⟩, 2, .fin false 0 0, by decide +kernel⟩,
   ⟨vecIn (vw 0x24 1 2 0 0 1) ⟨[], some { vrun with m := #v[0, 3, 5, 2] }, [], false⟩, 0, Instr.vecRmini 0, 0x24, false, true, { vrun with m := #v[0, 3, 5, 2] }, ⟨.int16, 2, 0, 0, 0, 0, false, 1⟩, by decide +kernel⟩,
   ⟨false, [(3, .fin false 2 0)], 3, .fin false 2 0, by decide +kernel⟩,
   ⟨vecAt (vw 0x25 0 0 0 0 5), 0, vrun, ⟨.int8, 0, 0, 0, 0, 0, false, 5⟩, by decide +kernel⟩⟩

theorem witness_VectorCommandsQueueRunAndComplete :
    (∃ (s : State) (g : Byte) (f : Fin 6) (v : Word), s.held = false ∧ s.agentJob g.toNat = none ∧ s.mayWrite g.toNat .fw = true ∧ v = 1 ∧ (s.fr f).vec.queue.length < 16) ∧
    (∃ (s : State) (g : Byte) (f : Fin 6) (v : Word), s.held = false ∧ s.agentJob g.toNat = none ∧ s.mayWrite g.toNat .fw = true ∧ v = 1 ∧ 16 ≤ (s.fr f).vec.queue.length) ∧
    (∃ (s : State) (f : Fin 6) (c : List Word) (q : List (List Word)) (j : Nat), s.held = false ∧ (s.fr f).vec.queue = c :: q ∧ (s.fr f).vec.run = none ∧ (s.fr f).vec.halted = false ∧ s.jobOf f = some j ∧ s.frondRuns f = true ∧ s.vecCheck f j c = 0 ∧ s.poisoned (winAddr f (32 * cfield c 2 16 15)) 32 = false) ∧
    (∃ (s : State) (f : Fin 6) (c : List Word) (q : List (List Word)) (j : Nat), s.held = false ∧ (s.fr f).vec.queue = c :: q ∧ (s.fr f).vec.run = none ∧ (s.fr f).vec.halted = false ∧ s.jobOf f = some j ∧ s.frondRuns f = true ∧ s.vecCheck f j c ≠ 0 ∧ s.plainJob j) ∧
    (∃ (s : State) (f : Fin 6) (r : VecRun), s.held = false ∧ (s.fr f).vec.run = some r ∧ r.nv ≤ r.iter ∧ (cfield r.cmd 0 19 1 = 0 ∨ (s.fr f).vec.sums.length < 16) ∧ cfield r.cmd 2 12 4 = 0) ∧
    (∃ (s : State) (f : Fin 6) (r : VecRun), s.held = false ∧ (s.fr f).vec.run = some r ∧ r.nv ≤ r.iter ∧ cfield r.cmd 0 19 1 = 1 ∧ 16 ≤ (s.fr f).vec.sums.length) ∧
    (∃ (s : State) (f : Fin 6) (r : VecRun), s.held = false ∧ (s.fr f).vec.run = some r ∧ r.nv ≤ r.iter ∧ (cfield r.cmd 0 19 1 = 0 ∨ (s.fr f).vec.sums.length < 16) ∧ cfield r.cmd 2 0 11 < 0x100 ∧ cfield r.cmd 2 11 1 = 0 ∧ s.g (Reg.STR_SEMs_FULL f (cfield r.cmd 2 0 11)) + cfield r.cmd 2 12 4 ≤ 65535) ∧
    (∃ (s : State) (g : Byte) (f : Fin 6) (v : Word) (x : SumRec) (l : List SumRec), s.held = false ∧ s.agentJob g.toNat = none ∧ s.mayWrite g.toNat .fw = true ∧ v = 1 ∧ (s.fr f).vec.sums = x :: l) ∧
    (∃ (s : State) (g : Byte) (f : Fin 6) (v : Word), s.held = false ∧ s.agentJob g.toNat = none ∧ s.mayWrite g.toNat .fw = true ∧ v = 1 ∧ (s.fr f).vec.sums = []) :=
  ⟨⟨started, 0, 0, 1, by decide +kernel⟩,
   ⟨{ started with fronds := started.fronds.set 0 { Frond.idle with vec := ⟨List.replicate 16 [], none, [], false⟩ } }, 0, 0, 1, by decide +kernel⟩,
   ⟨vecQ [vcmd], 0, vcmd, [], 0, by decide +kernel⟩,
   ⟨vecQ [[]], 0, [], [], 0, by decide +kernel⟩,
   ⟨vecIn 0 ⟨[], some { vrun with iter := 2 }, [], false⟩, 0, { vrun with iter := 2 }, by decide +kernel⟩,
   ⟨vecIn 0 ⟨[], some vdone, List.replicate 16 ⟨0, Vector.replicate 16 0⟩, false⟩, 0, vdone, by decide +kernel⟩,
   ⟨vecIn 0 ⟨[], some vpost, [], false⟩, 0, vpost, by decide +kernel⟩,
   ⟨{ started with fronds := started.fronds.set 0 { Frond.idle with vec := ⟨[], none, [⟨3, Vector.replicate 16 0⟩], false⟩ } }, 0, 0, 1, ⟨3, Vector.replicate 16 0⟩, [], by decide +kernel⟩,
   ⟨started, 0, 0, 1, by decide +kernel⟩⟩

theorem witness_SignalComputeWritesItsResult_1 :
    (∃ (s : State) (k : CoreRef) (o : SigOp) (st : Nat), s.sigGoes k o ∧ (s.core k).flowBad .seq = []) ∧
    (∃ (s : State) (k : CoreRef) (o : SigOp) (st : Nat), s.sigGoes k o ∧ (s.core k).flowBad .seq = []) ∧
    (∃ (s : State) (k : CoreRef) (o : SigOp) (st : Nat), s.sigGoes k o ∧ (s.core k).flowBad .seq = []) ∧
    (∃ (s : State) (k : CoreRef) (o : SigOp) (st : Nat), s.sigGoes k o ∧ (s.core k).flowBad .seq = []) ∧
    (∃ (s : State) (k : CoreRef) (o : SigOp) (st : Nat), s.sigGoes k o ∧ (s.core k).flowBad .seq = []) ∧
    (∃ (s : State) (k : CoreRef) (o : SigOp) (st : Nat), s.sigGoes k o ∧ (s.core k).flowBad .seq = []) ∧
    (∃ (s : State) (k : CoreRef) (o : SigOp) (st : Nat), s.sigGoes k o ∧ (s.core k).flowBad .seq = []) ∧
    (∃ (s : State) (k : CoreRef) (o : SigOp) (st : Nat), s.sigGoes k o ∧ (s.core k).flowBad .seq = []) ∧
    (∃ (s : State) (k : CoreRef) (o : SigOp) (st : Nat), s.sigGoes k o ∧ (s.core k).flowBad .seq = []) ∧
    (∃ (s : State) (k : CoreRef) (o : SigOp) (st : Nat), s.sigGoes k o ∧ (s.core k).flowBad .seq = []) :=
  ⟨⟨coreL, ⟨0, 0⟩, opL, 2, by decide +kernel⟩,
   ⟨coreL, ⟨0, 0⟩, opL, 2, by decide +kernel⟩,
   ⟨coreL, ⟨0, 0⟩, opL, 2, by decide +kernel⟩,
   ⟨coreL, ⟨0, 0⟩, opL, 2, by decide +kernel⟩,
   ⟨coreL, ⟨0, 0⟩, opL, 2, by decide +kernel⟩,
   ⟨coreL, ⟨0, 0⟩, opL, 2, by decide +kernel⟩,
   ⟨coreL, ⟨0, 0⟩, opL, 2, by decide +kernel⟩,
   ⟨coreL, ⟨0, 0⟩, opL, 2, by decide +kernel⟩,
   ⟨coreL, ⟨0, 0⟩, opL, 2, by decide +kernel⟩,
   ⟨coreL, ⟨0, 0⟩, opL, 2, by decide +kernel⟩⟩

theorem witness_SignalComputeWritesItsResult_2 :
    (∃ (s : State) (k : CoreRef) (o : SigOp) (st : Nat), s.sigGoes k o ∧ (s.core k).flowBad .seq = []) ∧
    (∃ (s : State) (k : CoreRef) (o : SigOp) (st : Nat), s.sigGoes k o ∧ (s.core k).flowBad .seq = []) ∧
    (∃ (s : State) (k : CoreRef) (o : SigOp) (st : Nat), s.sigGoes k o ∧ (s.core k).flowBad .seq = []) ∧
    (∃ (s : State) (k : CoreRef) (o : SigOp) (st : Nat), s.sigGoes k o ∧ (s.core k).flowBad .seq = []) ∧
    (∃ (s : State) (k : CoreRef) (o : SigOp) (reg : SpecReg) (st : Nat), s.sigGoes k o ∧ (s.core k).flowBad .seq = []) ∧
    (∃ (s : State) (k : CoreRef) (o : SigOp) (st : Nat), s.sigGoes k o ∧ (s.core k).flowBad .seq = []) ∧
    (∃ (s : State) (k : CoreRef) (o : SigOp) (st : Nat), o.dd.val % 2 = 0 ∧ s.sigGoes k o ∧ (s.core k).flowBad .seq = []) ∧
    (∃ (s : State) (k : CoreRef) (o : SigOp) (st : Nat), s.sigGoes k o ∧ (s.core k).flowBad .seq = []) ∧
    (∃ (s : State) (k : CoreRef) (o : SigOp) (st : Nat), s.sigGoes k o ∧ (s.core k).flowBad .seq = [] ∧ (satS 16 (rneInt ((s.core k).accRe.get (Fin.ofNat 4 o.sa.val)).toInt (o.imm.toNat % 32)) ≠ rneInt ((s.core k).accRe.get (Fin.ofNat 4 o.sa.val)).toInt (o.imm.toNat % 32) ∨ satS 16 (rneInt ((s.core k).accIm.get (Fin.ofNat 4 o.sa.val)).toInt (o.imm.toNat % 32)) ≠ rneInt ((s.core k).accIm.get (Fin.ofNat 4 o.sa.val)).toInt (o.imm.toNat % 32))) :=
  ⟨⟨coreL, ⟨0, 0⟩, opL, 2, by decide +kernel⟩,
   ⟨coreL, ⟨0, 0⟩, opL, 2, by decide +kernel⟩,
   ⟨coreL, ⟨0, 0⟩, opL, 2, by decide +kernel⟩,
   ⟨coreL, ⟨0, 0⟩, opL, 2, by decide +kernel⟩,
   ⟨coreL, ⟨0, 0⟩, opL, .ix, 2, by decide +kernel⟩,
   ⟨coreL, ⟨0, 0⟩, opL, 2, by decide +kernel⟩,
   ⟨coreL, ⟨0, 0⟩, opL, 0, by decide +kernel⟩,
   ⟨coreL, ⟨0, 0⟩, opL, 0, by decide +kernel⟩,
   ⟨coreR, ⟨0, 0⟩, opR, 0, by decide +kernel⟩⟩

theorem witness_SignalRotateSearchAndSpecialAct :
    (∃ (s : State) (k : CoreRef) (o : SigOp) (st : Nat), s.sigGoes k o ∧ (s.core k).flowBad .seq = []) ∧
    (∃ (s : State) (k : CoreRef) (o : SigOp) (st : Nat), s.sigGoes k o ∧ (s.core k).flowBad .seq = [] ∧ (∀ l ∈ s.sigLoads k o, l.1 ≠ o.dd.val)) ∧
    (∃ (s : State) (k : CoreRef) (o : SigOp) (st : Nat), o.dd.val % 2 = 0 ∧ s.sigGoes k o ∧ (s.core k).flowBad .seq = [] ∧ (∀ l ∈ s.sigLoads k o, l.1 / 2 ≠ o.dd.val / 2)) ∧
    (∃ (s : State) (k : CoreRef) (o : SigOp) (st : Nat), o.dd.val % 2 = 0 ∧ s.sigGoes k o ∧ (s.core k).flowBad .seq = [] ∧ (∀ l ∈ s.sigLoads k o, l.1 / 2 ≠ o.dd.val / 2)) ∧
    (∃ (s : State) (k : CoreRef) (o : SigOp) (st : Nat), o.dd.val % 2 = 0 ∧ s.sigGoes k o ∧ (s.core k).flowBad .seq = [] ∧ (∀ l ∈ s.sigLoads k o, l.1 / 2 ≠ o.dd.val / 2)) ∧
    (∃ (s : State) (k : CoreRef) (o : SigOp) (st : Nat), o.dd.val % 2 = 0 ∧ s.sigGoes k o ∧ (s.core k).flowBad .seq = [] ∧ (∀ l ∈ s.sigLoads k o, l.1 / 2 ≠ o.dd.val / 2)) ∧
    (∃ (s : State) (k : CoreRef) (o : SigOp) (reg : SpecReg) (st : Nat), s.sigGoes k o ∧ (s.core k).flowBad .seq = [] ∧ ((∀ i, reg = .p i → ∀ m ∈ sigMoves o, m.2.ptr ≠ i))) :=
  ⟨⟨coreL, ⟨0, 0⟩, opL, 0, by decide +kernel⟩,
   ⟨coreL, ⟨0, 0⟩, opL, 0, by decide +kernel⟩,
   ⟨coreL, ⟨0, 0⟩, opL, 0, by decide +kernel⟩,
   ⟨coreL, ⟨0, 0⟩, opL, 0, by decide +kernel⟩,
   ⟨coreL, ⟨0, 0⟩, opL, 0, by decide +kernel⟩,
   ⟨coreL, ⟨0, 0⟩, opL, 0, by decide +kernel⟩,
   ⟨coreM, ⟨0, 0⟩, opM, .p 5, 0, by decide +kernel, by decide +kernel, fun i h m hm => by cases h; revert m; decide +kernel⟩⟩

theorem witness_SignalMovesLoadStoreAndStep :
    (∃ (s : State) (k : CoreRef) (o : SigOp) (c : Instr) (st : Nat) (reg : SpecReg), c ∈ sigValueCommands k reg st ∧ s.sigGoes k o ∧ (s.core k).flowBad .seq = []) ∧
    (∃ (s : State) (k : CoreRef) (o : SigOp) (c : Instr) (st : Nat) (j : Nat) (reg : SpecReg), c ∈ sigValueCommands k reg st ∧ s.sigAt k o ∧ (sigMoves o).flatMap (fun m => moveBad (s.core k) m.1 m.2) ≠ [] ∧ s.jobOf k.f = some j ∧ s.plainJob j) ∧
    (∃ (s : State) (k : CoreRef) (o : SigOp) (c : Instr) (st : Nat) (j : Nat) (reg : SpecReg), c ∈ sigValueCommands k reg st ∧ s.sigAt k o ∧ (sigMoves o).flatMap (fun m => moveBad (s.core k) m.1 m.2) = [] ∧ s.movePoison k (s.core k) (sigMoves o) = true ∧ (s.core k).flowBad .seq = [] ∧ s.jobOf k.f = some j ∧ s.plainJob j) ∧
    (∃ (s : State) (k : CoreRef) (code : Nat) (i : Nat), code < 16 ∧ i < 2 ^ 13 ∧ s.jobOf k.f = none) ∧
    (∃ (x : SigCore) (b : Nat) (m : MoveSlot), (m.size = 3 ∨ m.modif = 7)) ∧
    (∃ (x : SigCore) (b : Nat) (m : MoveSlot), m.size ≠ 3 ∧ m.modif ≠ 7 ∧ m.modif ≠ 4 ∧ m.modif ≠ 5) :=
  ⟨⟨coreM, ⟨0, 0⟩, opM, Instr.sigMov ⟨0, 0⟩ false 0, 0, .ix, by decide +kernel⟩,
   ⟨coreBad, ⟨0, 0⟩, opBad, Instr.sigMov ⟨0, 0⟩ false 0, 0, 0, .ix, by decide +kernel⟩,
   ⟨{ coreL with poison := [eccWord (sigBase 0 0 + 16)] }, ⟨0, 0⟩, opL, Instr.sigMov ⟨0, 0⟩ false 0, 0, 0, .ix, by decide +kernel⟩,
   ⟨started, ⟨0, 0⟩, 9, 77, by decide +kernel⟩,
   ⟨core0, 0, ⟨false, 0, 0, 7, 0⟩, by decide +kernel⟩,
   ⟨core0, 0, ⟨false, 0, 0, 0, 0⟩, by decide +kernel⟩⟩

theorem witness_SignalFlowTransfersControl_1 :
    (∃ (s : State) (k : CoreRef) (o : SigOp) (st : Nat) (tg : BitVec 13), s.sigGoes k o ∧ (s.core k).delay = none ∧ (s.core k).reps.any (fun r => r.last == (s.core k).pc.toNat) = false) ∧
    (∃ (s : State) (k : CoreRef) (o : SigOp) (st : Nat) (tg : BitVec 13), s.sigGoes k o ∧ (s.core k).delay = none ∧ (s.core k).reps.any (fun r => r.last == (s.core k).pc.toNat) = false) ∧
    (∃ (s : State) (k : CoreRef) (o : SigOp) (st : Nat) (tg : BitVec 13), s.sigGoes k o ∧ (s.core k).delay = none ∧ (s.core k).reps.any (fun r => r.last == (s.core k).pc.toNat) = false) ∧
    (∃ (s : State) (k : CoreRef) (o : SigOp) (st : Nat) (tg : BitVec 13), s.sigGoes k o ∧ (s.core k).delay = none ∧ (s.core k).reps.any (fun r => r.last == (s.core k).pc.toNat) = false) ∧
    (∃ (s : State) (k : CoreRef) (o : SigOp) (st : Nat) (tg : BitVec 13), s.sigGoes k o ∧ (s.core k).delay = none ∧ (s.core k).reps.any (fun r => r.last == (s.core k).pc.toNat) = false) ∧
    (∃ (s : State) (k : CoreRef) (o : SigOp) (st : Nat) (tg : BitVec 13), s.sigGoes k o ∧ (s.core k).delay = none ∧ (s.core k).reps.any (fun r => r.last == (s.core k).pc.toNat) = false ∧ (s.core k).calls.length < 8) ∧
    (∃ (s : State) (k : CoreRef) (o : SigOp) (st : Nat) (r : BitVec 13) (l : List (BitVec 13)), s.sigGoes k o ∧ (s.core k).delay = none ∧ (s.core k).reps.any (fun r => r.last == (s.core k).pc.toNat) = false ∧ (s.core k).calls = r :: l) ∧
    (∃ (s : State) (k : CoreRef) (o : SigOp) (st : Nat) (h : Shadow), s.sigGoes k o ∧ (s.core k).delay = none ∧ (s.core k).reps.any (fun r => r.last == (s.core k).pc.toNat) = false ∧ (s.core k).shadow = some h) ∧
    (∃ (s : State) (k : CoreRef) (o : SigOp) (c : Instr) (st : Nat) (reg : SpecReg) (d : Delay), c ∈ sigValueCommands k reg st ∧ s.sigGoes k o ∧ (s.core k).flowBad .seq = [] ∧ (s.core k).delay = some d ∧ (s.core k).reps.any (fun r => r.last == (s.core k).pc.toNat) = false ∧ d.left = 2) ∧
    (∃ (s : State) (k : CoreRef) (o : SigOp) (c : Instr) (st : Nat) (reg : SpecReg) (d : Delay) (tg : BitVec 13), c ∈ sigValueCommands k reg st ∧ s.sigGoes k o ∧ (s.core k).flowBad .seq = [] ∧ (s.core k).delay = some d ∧ d.left = 1 ∧ d.target = some tg) :=
  ⟨⟨coreM, ⟨0, 0⟩, opM, 0, 100, by decide +kernel⟩,
   ⟨coreM, ⟨0, 0⟩, opM, 0, 100, by decide +kernel⟩,
   ⟨coreM, ⟨0, 0⟩, opM, 0, 100, by decide +kernel⟩,
   ⟨coreM, ⟨0, 0⟩, opM, 0, 100, by decide +kernel⟩,
   ⟨coreM, ⟨0, 0⟩, opM, 0, 100, by decide +kernel⟩,
   ⟨coreM, ⟨0, 0⟩, opM, 0, 100, by decide +kernel⟩,
   ⟨coreW { core0 with calls := [5, 6] } opM, ⟨0, 0⟩, opM, 0, 5, [6], by decide +kernel⟩,
   ⟨coreW { core0 with shadow := some ⟨3, [], 7, 5, 0⟩ } opM, ⟨0, 0⟩, opM, 0, ⟨3, [], 7, 5, 0⟩, by decide +kernel⟩,
   ⟨coreW { core0 with delay := some ⟨2, some 100, 0⟩ } opM, ⟨0, 0⟩, opM, Instr.sigAdd ⟨0, 0⟩ false 0, 0, .ix, ⟨2, some 100, 0⟩, by decide +kernel⟩,
   ⟨coreW { core0 with delay := some ⟨1, some 100, 0⟩, reps := [⟨2, 50, 3⟩, ⟨1, 200, 2⟩] } opM, ⟨0, 0⟩, opM, Instr.sigAdd ⟨0, 0⟩ false 0, 0, .ix, ⟨1, some 100, 0⟩, 100, by decide +kernel⟩⟩

theorem witness_SignalFlowTransfersControl_2 :
    (∃ (s : State) (k : CoreRef) (o : SigOp) (st : Nat), s.sigAt k o ∧ (s.core k).delay = none ∧ 0 < o.count.toNat ∧ (s.core k).reps.length < 4) ∧
    (∃ (s : State) (k : CoreRef) (o : SigOp) (st : Nat), s.sigAt k o ∧ (s.core k).delay = none ∧ 0 < ((s.core k).dr o.sa.val).toNat % 65536 ∧ (s.core k).reps.length < 4) ∧
    (∃ (s : State) (k : CoreRef) (o : SigOp) (st : Nat), s.sigAt k o ∧ (s.core k).delay = none ∧ (s.core k).reps = [] ∧ o.count = 0) ∧
    (∃ (s : State) (k : CoreRef) (o : SigOp) (c : Instr) (st : Nat) (reg : SpecReg) (r : RepLevel) (l : List RepLevel), c ∈ sigValueCommands k reg st ∧ s.sigGoes k o ∧ (s.core k).delay = none ∧ (s.core k).reps = r :: l ∧ r.last = (s.core k).pc.toNat ∧ 1 < r.left) ∧
    (∃ (s : State) (k : CoreRef) (o : SigOp) (st : Nat), s.sigGoes k o ∧ (s.core k).flowBad .seq = []) ∧
    (∃ (s : State) (k : CoreRef) (o : SigOp) (c : Instr) (tg : BitVec 13) (st : Nat) (j : Nat), s.sigGoes k o ∧ s.jobOf k.f = some j ∧ s.plainJob j ∧ ((c = .sigCall k false tg st ∧ 8 ≤ (s.core k).calls.length) ∨ (c = .sigRet k false st ∧ (s.core k).calls = []) ∨ (c = .sigReti k false st ∧ (s.core k).shadow = none) ∨ (c = .sigBr k false tg st ∧ (s.core k).delay ≠ none))) ∧
    (∃ (s : State) (k : CoreRef) (o : SigOp) (st : Nat) (j : Nat), s.sigAt k o ∧ s.jobOf k.f = some j ∧ s.plainJob j ∧ ((s.core k).delay ≠ none ∨ (o.count ≠ 0 ∧ 4 ≤ (s.core k).reps.length))) ∧
    (∃ (s : State) (k : CoreRef) (o : SigOp) (c : Instr) (tg : BitVec 13) (st : Nat) (j : Nat), s.sigAt k o ∧ s.jobOf k.f = some j ∧ s.plainJob j ∧ c ∈ [.sigAdd k true st, .sigMove k true st, .sigBr k true tg st, .sigRep k true st, .sigHalt k true st] ∧ (s.core k).moves < 4) :=
  ⟨⟨coreW core0 opRep, ⟨0, 0⟩, opRep, 0, by decide +kernel⟩,
   ⟨coreW core0 opRep, ⟨0, 0⟩, opRep, 0, by decide +kernel⟩,
   ⟨coreW core0 opRep0, ⟨0, 0⟩, opRep0, 0, by decide +kernel⟩,
   ⟨coreW { core0 with reps := [⟨2, 9, 3⟩, ⟨1, 200, 2⟩] } opM, ⟨0, 0⟩, opM, Instr.sigAdd ⟨0, 0⟩ false 0, 0, .ix, ⟨2, 9, 3⟩, [⟨1, 200, 2⟩], by decide +kernel⟩,
   ⟨coreM, ⟨0, 0⟩, opM, 0, by decide +kernel⟩,
   ⟨coreN, ⟨0, 0⟩, opN, Instr.sigRet ⟨0, 0⟩ false 0, 0, 0, 0, by decide +kernel⟩,
   ⟨coreW { core0 with delay := some ⟨2, none, 0⟩ } opRep, ⟨0, 0⟩, opRep, 0, 0, by decide +kernel⟩,
   ⟨coreN, ⟨0, 0⟩, opN, Instr.sigHalt ⟨0, 0⟩ true 0, 0, 0, 0, by decide +kernel⟩⟩

theorem witness_SignalCommunicationAndHaltAct_1 :
    (∃ (s : State) (k : CoreRef) (o : SigOp) (st : Nat) (w : Word) (l : List Word), s.sigGoes k o ∧ (s.core k).flowBad .seq = [] ∧ (s.core k).mbi = w :: l ∧ (∀ e ∈ s.sigLoads k o, e.1 ≠ o.dd.val)) ∧
    (∃ (s : State) (k : CoreRef) (o : SigOp) (st : Nat), s.sigGoes k o ∧ (s.core k).flowBad .seq = [] ∧ (s.core k).mbo.length < 8) ∧
    (∃ (s : State) (k : CoreRef) (st : Nat), s.held = false ∧ s.coreRuns k = true ∧ (s.core k).mbi = []) ∧
    (∃ (s : State) (k : CoreRef) (st : Nat), s.held = false ∧ s.coreRuns k = true ∧ 8 ≤ (s.core k).mbo.length) ∧
    (∃ (s : State) (k : CoreRef) (o : SigOp) (st : Nat) (j : Nat), s.sigGoes k o ∧ (s.core k).flowBad .seq = [] ∧ s.jobOf k.f = some j ∧ s.semBad j (o.at 8 11) = false ∧ o.at 24 4 = 0 ∧ (s.core k).mover = [] ∧ o.at 8 11 < 0x100 ∧ s.semGet k.f (o.at 8 11) (o.at 19 1 == 1) + o.at 20 4 ≤ 65535) ∧
    (∃ (s : State) (k : CoreRef) (o : SigOp) (st : Nat) (j : Nat), s.sigGoes k o ∧ (s.core k).flowBad .seq = [] ∧ s.jobOf k.f = some j ∧ s.semBad j (o.at 8 11) = false ∧ o.at 24 4 = 0 ∧ (s.core k).mover ≠ []) ∧
    (∃ (s : State) (k : CoreRef) (o : SigOp) (st : Nat) (m : MovItem), s.sigGoes k o ∧ (s.core k).flowBad .seq = [] ∧ (s.core k).moves < 4 ∧ s.moveParams k (s.core k) o.sa.val = some m) ∧
    (∃ (s : State) (k : CoreRef) (st : Nat), s.held = false ∧ 4 ≤ (s.core k).moves) ∧
    (∃ (s : State) (k : CoreRef) (o : SigOp) (c : Instr) (st : Nat) (j : Nat), s.sigGoes k o ∧ (s.core k).flowBad .seq = [] ∧ s.jobOf k.f = some j ∧ s.plainJob j ∧ ((c = .sigMove k false st ∧ (s.core k).moves < 4 ∧ s.moveParams k (s.core k) o.sa.val = none) ∨ (c = .sigPst k false st ∧ (s.semBad j (o.at 8 11) = true ∨ o.at 24 4 ≠ 0)))) ∧
    (∃ (s : State) (k : CoreRef) (o : SigOp) (st : Nat), s.sigGoes k o ∧ (s.core k).flowBad .seq = [] ∧ (s.core k).stop = false) :=
  ⟨⟨coreW { core0 with mbi := [8, 9] } opM, ⟨0, 0⟩, opM, 0, 8, [9], by decide +kernel⟩,
   ⟨coreM, ⟨0, 0⟩, opM, 0, by decide +kernel⟩,
   ⟨coreM, ⟨0, 0⟩, 0, by decide +kernel⟩,
   ⟨cored { core0 with mbo := List.replicate 8 1 }, ⟨0, 0⟩, 0, by decide +kernel⟩,
   ⟨coreW core0 opPst, ⟨0, 0⟩, opPst, 0, 0, by decide +kernel⟩,
   ⟨coreW { core0 with mover := [.move 0 0 true 16] } opPst, ⟨0, 0⟩, opPst, 0, 0, by decide +kernel⟩,
   ⟨coredMv, ⟨0, 0⟩, opMv, 0, .move 0 0x200000000 true 32, by decide +kernel⟩,
   ⟨cored { core0 with mover := List.replicate 4 (.move 0 0 true 16) }, ⟨0, 0⟩, 0, by decide +kernel⟩,
   ⟨coreW core0 opPstB, ⟨0, 0⟩, opPstB, Instr.sigPst ⟨0, 0⟩ false 0, 0, 0, by decide +kernel⟩,
   ⟨coreM, ⟨0, 0⟩, opM, 0, by decide +kernel⟩⟩

theorem witness_SignalCommunicationAndHaltAct_2 :
    ∃ (s : State) (k : CoreRef) (o : SigOp) (st : Nat), s.sigGoes k o ∧ (s.core k).flowBad .seq = [] ∧ (s.core k).stop = false :=
  ⟨coreM, ⟨0, 0⟩, opM, 0, by decide +kernel⟩

theorem witness_SignalCoresAreControlledFromOutside :
    (∃ (s : State) (g : Byte) (k : CoreRef) (v : Word), s.held = false ∧ s.agentJob g.toNat = none ∧ s.mayWrite g.toNat .fw = true ∧ v.getLsbD 31 = true ∧ v.getLsbD 30 = false ∧ v.getLsbD 29 = false ∧ (s.coreSt k = 0 ∨ s.coreSt k = 3)) ∧
    (∃ (s : State) (g : Byte) (k : CoreRef) (v : Word), s.held = false ∧ s.agentJob g.toNat = none ∧ s.mayWrite g.toNat .fw = true ∧ v = 0x80000000 ∧ (s.coreSt k = 1 ∨ s.coreSt k = 2 ∨ s.coreSt k = 4)) ∧
    (∃ (s : State) (g : Byte) (k : CoreRef) (v : Word), s.held = false ∧ s.agentJob g.toNat = none ∧ s.mayWrite g.toNat .fw = true ∧ v = 0x40000000 ∧ (s.coreSt k = 1 ∨ s.coreSt k = 2)) ∧
    (∃ (s : State) (g : Byte) (k : CoreRef) (v : Word), s.held = false ∧ s.agentJob g.toNat = none ∧ s.mayWrite g.toNat .fw = true ∧ v = 0x20000000) ∧
    (∃ (s : State) (g : Byte) (k : CoreRef) (v : Word), s.held = false ∧ s.agentJob g.toNat = none ∧ s.mayWrite g.toNat .fw = true) ∧
    (∃ (s : State) (g : Byte) (k : CoreRef), s.held = false ∧ s.agentJob g.toNat = none) ∧
    (∃ (s : State) (k : CoreRef), s.held = false ∧ s.g (Reg.SIG_Cc_TCFG_ARM k.f k.c) = 1 ∧ 0 ≤ ctDiff (s.compact (domOf (s.g (Reg.SIG_Cc_TCFG_TDOM k.f k.c)))) (s.g (Reg.SIG_Cc_TCMP k.f k.c))) ∧
    (∃ (s : State) (k : CoreRef) (e : Fin 3), s.held = false ∧ s.coreLive k = true ∧ (s.core k).heldOff = false ∧ ((s.core k).pending &&& (s.core k).ien).getLsbD e.val = true ∧ ((e = 0 → ((s.core k).pending &&& (s.core k).ien).getLsbD 1 = false)) ∧ ((e = 2 → (s.core k).pending &&& (s.core k).ien = 4#3))) ∧
    (∃ (s : State) (k : CoreRef) (loc : Nat) (dev : Nat) (len : Nat) (j : Nat), s.held = false ∧ (s.core k).mover = [.move loc dev true len] ∧ s.jobOf k.f = some j ∧ s.poisoned dev len = false ∧ leafBase k.f ≤ dev ∧ dev + len ≤ leafBase k.f + 0x800000 ∧ loc + len ≤ 0x40000) :=
  ⟨⟨started, 0, ⟨0, 0⟩, 0x80000123, by decide +kernel⟩,
   ⟨coredAt, 0, ⟨0, 0⟩, 0x80000000, by decide +kernel⟩,
   ⟨coredAt, 0, ⟨0, 0⟩, 0x40000000, by decide +kernel⟩,
   ⟨cored { core0 with asleep := true, ien := 4 }, 0, ⟨0, 0⟩, 0x20000000, by decide +kernel⟩,
   ⟨coredAt, 0, ⟨0, 0⟩, 77, by decide +kernel⟩,
   ⟨cored { core0 with mbo := [3, 4] }, 0, ⟨0, 0⟩, by decide +kernel⟩,
   ⟨coredAt.p (Reg.SIG_Cc_TCFG_ARM 0 0) 1, ⟨0, 0⟩, by decide +kernel⟩,
   ⟨cored { core0 with ien := 7, pend := 6, mbi := [1] }, ⟨0, 0⟩, 1, by decide +kernel⟩,
   ⟨cored { core0 with mover := [.move 0 (leafBase 0) true 32] }, ⟨0, 0⟩, 0, leafBase 0, 32, 0, by decide +kernel⟩⟩

theorem witness_PassesWriteTheirElements :
    (∃ (s : State) (f : Fin 6) (p : Fin 32) (rep : PassRep) (g : PaneCfg) (cmd : PassCmd) (q : List PassCmd) (sr : StatReg), s.held = false ∧ cmd.op = 0 ∧ s.passHead f p g cmd q sr ∧ s.passCode f { cmd with pane := p.val } = 0 ∧ rep.check = .clean ∧ g.i0 + g.h ≤ 16 ∧ g.j0 + g.w ≤ 16 ∧ s.poison = [] ∧ sr.poison = false ∧ (((cmd.fmtS = 6 ∨ cmd.fmtS = 7) → cmd.blocks = 1 ∨ s.mapsLow f))) ∧
    (∃ (s : State) (f : Fin 6) (p : Fin 32) (rep : PassRep) (g : PaneCfg) (cmd : PassCmd) (q : List PassCmd) (sr : StatReg), s.held = false ∧ cmd.op = 1 ∧ s.passHead f p g cmd q sr ∧ s.passCode f { cmd with pane := p.val } = 0 ∧ rep.check = .clean ∧ g.i0 + g.h ≤ 16 ∧ g.j0 + g.w ≤ 16 ∧ s.poison = [] ∧ sr.poison = false ∧ (((cmd.fmtS = 6 ∨ cmd.fmtS = 7) → cmd.blocks = 1 ∨ s.mapsLow f))) ∧
    (∃ (s : State) (f : Fin 6) (p : Fin 32) (rep : PassRep) (g : PaneCfg) (cmd : PassCmd) (q : List PassCmd) (sr : StatReg), s.held = false ∧ cmd.op = 2 ∧ s.passHead f p g cmd q sr ∧ s.passCode f { cmd with pane := p.val } = 0 ∧ rep.check = .clean ∧ g.i0 + g.h ≤ 16 ∧ g.j0 + g.w ≤ 16 ∧ s.poison = [] ∧ sr.poison = false ∧ (((cmd.fmtS = 6 ∨ cmd.fmtS = 7) → cmd.blocks = 1 ∨ s.mapsLow f))) ∧
    (∃ (s : State) (f : Fin 6) (p : Fin 32) (rep : PassRep) (g : PaneCfg) (cmd : PassCmd) (q : List PassCmd) (sr : StatReg), s.held = false ∧ cmd.op = 3 ∧ s.passHead f p g cmd q sr ∧ s.passCode f { cmd with pane := p.val } = 0 ∧ rep.check = .clean ∧ g.i0 + g.h ≤ 16 ∧ g.j0 + g.w ≤ 16 ∧ s.poison = [] ∧ sr.poison = false ∧ (((cmd.fmtS = 6 ∨ cmd.fmtS = 7) → cmd.blocks = 1 ∨ s.mapsLow f))) ∧
    (∃ (s : State) (f : Fin 6) (p : Fin 32) (c : Instr) (n : Nat) (j : Nat) (rep : PassRep) (row : Fin 17) (col : Fin 17) (ly : Fin 8) (kd : Fin 4) (g : PaneCfg) (cmd : PassCmd) (q : List PassCmd) (sr : StatReg), s.held = false ∧ (c, n) ∈ passCommands f p rep ∧ cmd.op = n ∧ s.passHead f p g cmd q sr ∧ rep.check = .parity row col ly kd true ∧ s.jobOf f = some j ∧ s.plainJob j) ∧
    (∃ (s : State) (f : Fin 6) (p : Fin 32) (c : Instr) (n : Nat) (j : Nat) (rep : PassRep) (g : PaneCfg) (cmd : PassCmd) (q : List PassCmd) (sr : StatReg), s.held = false ∧ (c, n) ∈ passCommands f p rep ∧ cmd.op = n ∧ s.passHead f p g cmd q sr ∧ rep.check = .poison ∧ s.jobOf f = some j ∧ s.plainJob j) ∧
    (∃ (s : State) (f : Fin 6) (p : Fin 32) (c : Instr) (n : Nat) (l : List TagCheck) (rep : PassRep) (g : PaneCfg) (cmd : PassCmd) (q : List PassCmd) (sr : StatReg), s.held = false ∧ (c, n) ∈ passCommands f p rep ∧ cmd.op = n ∧ s.passHead f p g cmd q sr ∧ s.passCode f { cmd with pane := p.val } = 0 ∧ rep.check = .desync l ∧ g.i0 + g.h ≤ 16 ∧ g.j0 + g.w ≤ 16 ∧ s.poison = [] ∧ sr.poison = false ∧ (((cmd.fmtS = 6 ∨ cmd.fmtS = 7) → cmd.blocks = 1 ∨ s.mapsLow f))) ∧
    (∃ (s : State) (f : Fin 6) (p : Fin 32) (c : Instr) (n : Nat) (rep : PassRep) (x : PassCmd) (l : List PassCmd), s.held = false ∧ (c, n) ∈ passCommands f p rep ∧ (s.pane f p).queue = x :: l ∧ (x.op ≠ n ∨ (s.pane f p).stopped = true)) :=
  ⟨⟨paneAt [{ cmd1 with op := 0, newstat := true }], 0, 0, repC, ⟨2, 2, 4, 4⟩, { cmd1 with op := 0, newstat := true }, [], stat1, by decide +kernel⟩,
   ⟨paneAt [cmd1], 0, 0, repC, ⟨2, 2, 4, 4⟩, cmd1, [], stat1, by decide +kernel⟩,
   ⟨paneAt [cmdE 2], 0, 0, repC, ⟨2, 2, 4, 4⟩, cmdE 2, [], stat1, by decide +kernel⟩,
   ⟨paneAt [cmdE 3], 0, 0, repC, ⟨2, 2, 4, 4⟩, cmdE 3, [], stat1, by decide +kernel⟩,
   ⟨paneAt [cmd1], 0, 0, Instr.passMmSet 0 0 repP, 1, 0, repP, 3, 2, 1, 0, ⟨2, 2, 4, 4⟩, cmd1, [], stat1, by decide +kernel⟩,
   ⟨paneAt [cmd1], 0, 0, Instr.passMmSet 0 0 { repC with check := .poison }, 1, 0, { repC with check := .poison }, ⟨2, 2, 4, 4⟩, cmd1, [], stat1, by decide +kernel⟩,
   ⟨paneAt [cmd6], 0, 0, Instr.passMmSet 0 0 { repC with check := .desync tag2 }, 1, tag2, { repC with check := .desync tag2 }, ⟨2, 2, 4, 4⟩, cmd6, [], stat1, by decide +kernel⟩,
   ⟨paneAt [cmd1], 0, 0, Instr.passMmAcc 0 0 repC, 0, repC, cmd1, [], by decide +kernel⟩⟩

theorem witness_PanePlansDispatchLoadsAndCompletions_1 :
    (∃ (s : State) (g : Byte) (f : Fin 6) (v : Word), s.held = false ∧ s.agentJob g.toNat = none ∧ s.mayWrite g.toNat .fw = true ∧ v = 1 ∧ s.g (Reg.ARR_PANE_APPLY_APPLY f) = 0) ∧
    (∃ (s : State) (g : Byte) (f : Fin 6) (v : Word), s.held = false ∧ s.agentJob g.toNat = none ∧ s.mayWrite g.toNat .fw = true ∧ v = 1 ∧ s.g (Reg.ARR_PANE_APPLY_APPLY f) = 1) ∧
    (∃ (s : State) (f : Fin 6) (ws : List Nat), s.held = false ∧ (s.fr f).arr.captured = some ws ∧ (∀ p, (s.pane f p).queue = [] ∧ (s.pane f p).ran = []) ∧ planFail (s.on (Reg.ARR_SPARE_STS_MASKED f)) [] ((List.range 32).zip ws) = none) ∧
    (∃ (s : State) (f : Fin 6) (ws : List Nat) (n : Nat) (code : Nat), s.held = false ∧ (s.fr f).arr.captured = some ws ∧ (∀ p, (s.pane f p).queue = [] ∧ (s.pane f p).ran = []) ∧ planFail (s.on (Reg.ARR_SPARE_STS_MASKED f)) [] ((List.range 32).zip ws) = some (n, code)) ∧
    (∃ (s : State) (f : Fin 6) (c : PassCmd) (q : List PassCmd), s.held = false ∧ (s.fr f).arr.queue = c :: q ∧ (s.fr f).arr.halted = false ∧ (s.fr f).arr.captured = none ∧ s.passCode f c = 0 ∧ (s.pane f (Fin.ofNat 32 c.pane)).queue.length < 4) ∧
    (∃ (s : State) (f : Fin 6) (c : PassCmd) (q : List PassCmd), s.held = false ∧ (s.fr f).arr.queue = c :: q ∧ s.passCode f c = 0 ∧ 4 ≤ (s.pane f (Fin.ofNat 32 c.pane)).queue.length) ∧
    (∃ (s : State) (f : Fin 6) (c : PassCmd) (q : List PassCmd) (j : Nat), s.held = false ∧ (s.fr f).arr.queue = c :: q ∧ (s.fr f).arr.halted = false ∧ (s.fr f).arr.captured = none ∧ s.passCode f c ≠ 0 ∧ s.arrDrained f = true ∧ s.jobOf f = some j ∧ s.plainJob j) ∧
    (∃ (s : State) (f : Fin 6) (c : PassCmd) (q : List PassCmd), s.held = false ∧ (s.fr f).arr.queue = c :: q ∧ (s.fr f).arr.halted = false ∧ (s.fr f).arr.captured = none ∧ s.passCode f c ≠ 0 ∧ s.arrDrained f = false) ∧
    (∃ (s : State) (f : Fin 6), s.held = false ∧ (s.fr f).arr.halted = true) ∧
    (∃ (s : State) (f : Fin 6) (p : Fin 32) (c : PassCmd) (j : Nat), s.held = false ∧ (s.pane f p).ran = [c] ∧ (s.pane f p).queue = [] ∧ ((∀ i, i ≠ p → (s.pane f i).queue = [] ∧ (s.pane f i).ran = [])) ∧ (s.fr f).arr.halted = true ∧ s.jobOf f = some j ∧ s.plainJob j) :=
  ⟨⟨started, 0, 0, 1, by decide +kernel⟩,
   ⟨started.p (Reg.ARR_PANE_APPLY_APPLY 0) 1, 0, 0, 1, by decide +kernel⟩,
   ⟨arrIn { Frond.idle.arr with captured := some (0x13810 :: 0x13812 :: List.replicate 30 0) }, 0, 0x13810 :: 0x13812 :: List.replicate 30 0, by decide +kernel⟩,
   ⟨arrIn { Frond.idle.arr with captured := some (0x13810 :: 0x13811 :: List.replicate 30 0) }, 0, 0x13810 :: 0x13811 :: List.replicate 30 0, 1, 2, by decide +kernel⟩,
   ⟨{ (paneAt []) with fronds := (paneAt []).fronds.set 0 { (paneAt []).fronds[0] with arr := { (paneAt []).fronds[0].arr with queue := [cmd1] } } }, 0, cmd1, [], by decide +kernel⟩,
   ⟨{ (paneAt [cmd1, cmd1, cmd1, cmd1]) with fronds := (paneAt []).fronds.set 0 { (paneAt []).fronds[0] with arr := { (paneAt [cmd1, cmd1, cmd1, cmd1]).fronds[0].arr with queue := [cmd1] } } }, 0, cmd1, [], by decide +kernel⟩,
   ⟨arrIn { Frond.idle.arr with queue := [cmd1] }, 0, cmd1, [], 0, by decide +kernel⟩,
   ⟨{ (paneAt [cmd1]) with fronds := (paneAt [cmd1]).fronds.set 0 { (paneAt [cmd1]).fronds[0] with arr := { (paneAt [cmd1]).fronds[0].arr with queue := [{ cmd1 with op := 7 }] } } }, 0, { cmd1 with op := 7 }, [], by decide +kernel⟩,
   ⟨arrIn { Frond.idle.arr with queue := [cmd1], halted := true }, 0, by decide +kernel⟩,
   ⟨{ working with fronds := working.fronds.set 0 { Frond.idle with arr := { Frond.idle.arr with halted := true, panes := Frond.idle.arr.panes.set 0 { Pane.empty with ran := [cmd1] } } } }, 0, 0, cmd1, 0, by decide +kernel⟩⟩

theorem witness_PanePlansDispatchLoadsAndCompletions_2 :
    (∃ (s : State) (f : Fin 6) (p : Fin 32) (g : PaneCfg) (c : PassCmd) (h : Nat) (w : Nat) (b : Nat), s.held = false ∧ (s.pane f p).cfg = some g ∧ (s.pane f p).nextLoad = some c) ∧
    (∃ (s : State) (f : Fin 6) (p : Fin 32) (c : PassCmd) (r : List PassCmd), s.held = false ∧ (s.pane f p).ran = c :: r ∧ (s.fr f).arr.halted = false) :=
  ⟨⟨{ (paneAt [cmd1]) with fronds := (paneAt []).fronds.set 0 { Frond.idle with arr := { Frond.idle.arr with panes := Frond.idle.arr.panes.set 0 { Pane.empty with cfg := some ⟨2, 2, 4, 4⟩, queue := [cmd1] } } } }, 0, 0, ⟨2, 2, 4, 4⟩, cmd1, 2, 1, 0, by decide +kernel⟩,
   ⟨{ working with fronds := working.fronds.set 0 { Frond.idle with arr := { Frond.idle.arr with panes := Frond.idle.arr.panes.set 0 { Pane.empty with ran := [{ cmd1 with lastK := true }] } } } }, 0, 0, { cmd1 with lastK := true }, [], by decide +kernel⟩⟩

theorem witness_ScaleStepsAdaptRecords :
    (∃ (s : State) (g : Byte) (f : Fin 6) (v : Word) (r : Nat), s.held = false ∧ s.agentJob g.toNat = none ∧ s.mayWrite g.toNat .fw = true ∧ s.g (Reg.LEAF_SCL_STEP_GO f) = 0 ∧ r < 256 ∧ v.toNat = 0x10000 + 256 * r + r) ∧
    (∃ (s : State) (g : Byte) (f : Fin 6) (v : Word) (x : Nat) (y : Nat), s.held = false ∧ s.agentJob g.toNat = none ∧ s.mayWrite g.toNat .fw = true ∧ s.g (Reg.LEAF_SCL_STEP_GO f) = 0 ∧ x ≤ y ∧ y < 256 ∧ v.toNat = 0x10000 + 256 * y + x) ∧
    (∃ (s : State) (g : Byte) (f : Fin 6) (v : Word) (x : Nat) (y : Nat), s.held = false ∧ s.agentJob g.toNat = none ∧ s.mayWrite g.toNat .fw = true ∧ s.g (Reg.LEAF_SCL_STEP_GO f) = 0 ∧ y < x ∧ x < 256 ∧ v.toNat = 0x10000 + 256 * y + x) ∧
    (∃ (s : State) (g : Byte) (f : Fin 6) (v : Word), s.held = false ∧ s.agentJob g.toNat = none ∧ s.g (Reg.LEAF_SCL_STEP_GO f) = 1) ∧
    (∃ (s : State) (f : Fin 6), s.held = false) ∧
    (∃ (r : List Byte) (c : Int), r.length = 16 ∧ (byteAt r 1).testBit 4 = true ∧ (outFmt (sclFmt r)).bind capacity = some c ∧ sclMmax r ≠ -32768) ∧
    (∃ (r : List Byte), r.length = 16 ∧ ((byteAt r 1).testBit 4 = false ∨ sclMmax r = -32768 ∨ (outFmt (sclFmt r)).bind capacity = none)) :=
  ⟨⟨sclAt1, 0, 0, 0x10303, 3, by decide +kernel⟩,
   ⟨sclAt1, 0, 0, 0x10302, 2, 3, by decide +kernel⟩,
   ⟨sclAt1, 0, 0, 0x10203, 3, 2, by decide +kernel⟩,
   ⟨started.p (Reg.LEAF_SCL_STEP_GO 0) 1, 0, 0, 0x10203, by decide +kernel⟩,
   ⟨started, 0, by decide +kernel⟩,
   ⟨rec9, 7, by decide +kernel⟩,
   ⟨zeros 16, by decide +kernel⟩⟩

theorem witness_LoopsDrainsAndTileMovesAct :
    (∃ (s : State) (f : Fin 6) (n : Fin 32) (j : Nat) (pos : Nat) (d : BitVec 256), s.issues f n 2 j pos d ∧ s.loopGate f n d = .go) ∧
    (∃ (s : State) (f : Fin 6) (n : Fin 32) (pos : Nat) (k : Nat) (r : List (Nat × Nat)) (x : Flight), s.held = false ∧ (s.fr f).gens = (n.val, pos) :: r ∧ (s.fr f).arr.queue.length < 64 ∧ s.genAt f n pos = some (k, x)) ∧
    (∃ (s : State) (f : Fin 6) (n : Fin 32) (j : Nat) (pos : Nat) (dst : Nat) (pitch : Nat) (d : BitVec 256) (o : OutFmt), s.issues f n 3 j pos d ∧ s.drainGate f d = .go ∧ s.recordBad f d = 0 ∧ s.drainMix f d = none ∧ s.drainPoison f d = false ∧ outFmt (sclFmt (s.scl f (dfield d 96 8))) = some o ∧ dbit d 93 = false ∧ dst = 32 * dfield d 128 18 ∧ pitch = 32 * dfield d 146 12 ∧ dst + drainRows d * pitch ≤ 0x600000 ∧ (leafBase f + dst + drainRows d * pitch ≤ s.sclAt f (dfield d 96 8) ∨ s.sclAt f (dfield d 96 8) + 16 ≤ leafBase f + dst) ∧ capacity o ≠ none) ∧
    (∃ (s : State) (f : Fin 6) (n : Fin 32) (j : Nat) (pos : Nat) (k : Nat) (d : BitVec 256), s.issues f n 4 j pos d ∧ dbit d 79 = false ∧ dfield d 71 8 = 1 ∧ k = dfield d 64 7 ∧ s.spillGate f d = .go ∧ imageAt d 0 + 24576 ≤ 0x600000 ∧ s.poison = []) ∧
    (∃ (s : State) (f : Fin 6) (n : Fin 32) (j : Nat) (pos : Nat) (k : Nat) (d : BitVec 256), s.issues f n 4 j pos d ∧ dbit d 79 = true ∧ dfield d 71 8 = 1 ∧ k = dfield d 64 7 ∧ s.reloadGate f d = .go ∧ imageAt d 0 + 24576 ≤ 0x600000 ∧ s.poison = []) ∧
    (∃ (x : Cell), x.ty < 4) :=
  ⟨⟨strAt dLoop, 0, 3, 0, 5, dLoop, by decide +kernel⟩,
   ⟨{ working with fronds := working.fronds.set 0 { Frond.idle with gens := [(3, 5)], streams := Frond.idle.streams.set 3 { Stream.idle with flight := [mkFlight dLoop 5 false] } } }, 0, 3, 5, 0, [], mkFlight dLoop 5 false, by decide +kernel⟩,
   ⟨drainAt, 0, 3, 0, 5, 0x800, 32, dDrain, .int 32 false, by decide +kernel⟩,
   ⟨(strAt dSpill).p (Reg.STR_TILEt_STATE 0 2) 2, 0, 3, 0, 5, 2, dSpill, by decide +kernel⟩,
   ⟨(strAt dReload), 0, 3, 0, 5, 2, dReload, by decide +kernel⟩,
   ⟨⟨1, 2, 3, 4, 5, 6, 7, true, 3⟩, by decide +kernel⟩⟩

theorem witness_StreamsStartAbortAndFetch_1 :
    (∃ (s : State) (g : Byte) (f : Fin 6) (n : Fin 32) (v : Word), s.held = false ∧ s.agentJob g.toNat = none ∧ s.mayWrite g.toNat .fw = true ∧ v.getLsbD 31 = true ∧ (s.strSt f n = 0 ∨ s.strSt f n = 3 ∨ s.strSt f n = 4 ∨ s.strSt f n = 6)) ∧
    (∃ (s : State) (g : Byte) (f : Fin 6) (n : Fin 32) (v : Word), s.held = false ∧ s.agentJob g.toNat = none ∧ s.mayWrite g.toNat .fw = true ∧ v.getLsbD 31 = true ∧ (s.strSt f n = 1 ∨ s.strSt f n = 2 ∨ s.strSt f n = 5)) ∧
    (∃ (s : State) (g : Byte) (f : Fin 6) (n : Fin 32) (v : Word), s.held = false ∧ s.agentJob g.toNat = none ∧ s.mayWrite g.toNat .fw = true ∧ v.getLsbD 31 = false ∧ v.getLsbD 30 = true) ∧
    (∃ (s : State) (f : Fin 6) (n : Fin 32) (j : Nat), s.held = false ∧ s.jobOf f = some j ∧ (s.strSt f n = 1 ∨ s.strSt f n = 2) ∧ (s.strm f n).ended = false ∧ (s.strm f n).aborting = false ∧ (s.strm f n).fetched.length ≤ 16 ∧ s.frondRuns f = true ∧ s.access (unitSrc f 4) j (grnBase + 32 * (s.strm f n).next) (32 * (64 - (s.strm f n).next % 64)) false = .ok) ∧
    (∃ (s : State) (pos : Nat) (k : Nat) (i : Nat) (e : Nat × BitVec 256), (s.bale pos k)[i]? = some e) ∧
    (∃ (s : State) (g : Byte) (f : Fin 6) (v : Word) (k : Nat), s.held = false ∧ s.agentJob g.toNat = none ∧ s.mayWrite g.toNat .fw = true ∧ k = v.toNat % 2 ^ 11 ∧ k < 0x100 ∧ v.getLsbD 12 = false ∧ v.getLsbD 13 = false ∧ v.getLsbD 14 = false ∧ v.getLsbD 15 = false ∧ s.semGet f k (v.getLsbD 11) + v.toNat / 65536 ≤ 65535) ∧
    (∃ (s : State) (g : Byte) (f : Fin 6) (v : Word), s.held = false ∧ s.agentJob g.toNat = none ∧ s.mayWrite g.toNat .fw = true ∧ 0x100 ≤ v.toNat % 2 ^ 11 ∧ v.toNat % 2 ^ 11 < 0x400) ∧
    (∃ (s : State) (g : Byte) (f : Fin 6) (v : Word), s.held = false ∧ s.agentJob g.toNat = none ∧ s.mayWrite g.toNat .fw = true) ∧
    (∃ (s : State) (f : Fin 6) (n : Fin 32) (w : Nat), s.held = false ∧ (s.strm f n).waitAt = some w ∧ s.strSt f n = 2 ∧ 1 ≤ s.g (Reg.STR_Sn_STS_WKIND f n) ∧ s.g (Reg.STR_Sn_STS_WKIND f n) ≤ 5 ∧ w + 20000 * ((s.strm f n).reports + 1) ≤ s.ticks) ∧
    (∃ (s : State) (f : Fin 6) (n : Fin 32) (h : BitVec 23) (b : List (BitVec 256)) (j : Nat), s.held = false ∧ s.jobOf f = some j ∧ s.strSt f n = 4 ∧ s.access (unitSrc f 6) j (grnBase + 32 * h.toNat) (32 * b.length) true = .ok) :=
  ⟨⟨started, 0, 0, 3, 0x80000123, by decide +kernel⟩,
   ⟨strAt dLoop, 0, 0, 3, 0x80000123, by decide +kernel⟩,
   ⟨strAt dLoop, 0, 0, 3, 0x40000000, by decide +kernel⟩,
   ⟨grnJob, 0, 3, 0, by decide +kernel⟩,
   ⟨grnJob, 2, 9, 1, (3, grnJob.ld256 (grnBase + 96)), by decide +kernel⟩,
   ⟨started, 0, 0, 0x00050805, 5, by decide +kernel⟩,
   ⟨started, 0, 0, 0x00050100, by decide +kernel⟩,
   ⟨started, 0, 0, 64, by decide +kernel⟩,
   ⟨watching, 0, 3, 5, by decide +kernel⟩,
   ⟨grnJob.p (Reg.STR_Sn_STS_STATE 0 3) 4, 0, 3, 0x1F0004, [7, 9], 0, by decide +kernel⟩⟩

theorem witness_StreamsStartAbortAndFetch_2 :
    ∃ (s : State) (f : Fin 6) (n : Fin 32) (h : BitVec 23) (b : List (BitVec 256)) (r : SpillRep) (j : Nat), j < 32 ∧ s.held = false ∧ s.jobOf f = some j ∧ s.strSt f n = 4 ∧ s.access (unitSrc f 6) j (grnBase + 32 * h.toNat) (32 * b.length) true = .ok :=
  ⟨grnJob.p (Reg.STR_Sn_STS_STATE 0 3) 4, 0, 3, 0x1F0004, [7, 9], ⟨3, 2, 500⟩, 0, by decide +kernel⟩

theorem witness_DescriptorsSynchroniseLinkAndComplete_1 :
    (∃ (s : State) (f : Fin 6) (n : Fin 32) (rep : XferRep) (c : Instr), s.detTurn f n = true ∧ c ∈ [Instr.xfer f n rep, .arrayLoop f n, .drain f n, .accMoveSpill f n, .accMoveReload f n, .sem f n, .barrier f n, .link f n, .descriptorReservedKind f n]) ∧
    (∃ (s : State) (f : Fin 6) (n : Fin 32) (j : Nat) (pos : Nat) (d : BitVec 256), s.issues f n 5 j pos d ∧ dEnd d = false ∧ dWsem d < 0x100 ∧ dPsem d < 0x100 ∧ (dWsem d ≠ dPsem d ∨ dWside d ≠ dPside d) ∧ s.semGet f (dPsem d) (dPside d) + dPostN d ≤ 65535) ∧
    (∃ (s : State) (f : Fin 6) (n : Fin 32) (j : Nat) (pos : Nat) (k : Nat) (d : BitVec 256), s.held = false ∧ (k = 0 ∨ 8 ≤ k) ∧ s.headOf f n [k] = some (j, pos, d) ∧ s.detTurn f n = false ∧ s.plainJob j) ∧
    (∃ (s : State) (f : Fin 6) (n : Fin 32) (k : Nat) (pos : Nat), k < 16 ∧ pos < 2 ^ 23 ∧ s.jobOf f = none) ∧
    (∃ (s : State) (f : Fin 6) (n : Fin 32) (m : Fin 32) (j : Nat) (pos : Nat) (d : BitVec 256), s.issues f n 6 j pos d ∧ dWsem d < 0x100 ∧ (dMask d).testBit m.val = true ∧ m ≠ n ∧ s.atBarrier f m (dBarId d) = false ∧ (∀ q, (s.strm f q).flight = [])) ∧
    (∃ (s : State) (f : Fin 6) (n : Fin 32) (j : Nat) (pos : Nat) (d : BitVec 256), s.issues f n 6 j pos d ∧ dWsem d < 0x100 ∧ dMask d = 2 ^ n.val ∧ dPostN d = 0 ∧ dEnd d = false ∧ (s.strm f n).flight = [] ∧ (∀ q, (s.strm f q).flight = [])) ∧
    (∃ (s : State) (f : Fin 6) (n : Fin 32) (j : Nat) (pos : Nat) (d : BitVec 256), s.issues f n 7 j pos d ∧ dWsem d < 0x100 ∧ dEnd d = false ∧ dPostN d = 0 ∧ s.linkGate f n d = .go) ∧
    (∃ (s : State) (f : Fin 6) (n : Fin 32) (k : Nat) (x : Flight), s.held = false ∧ (s.strm f n).flight[k]? = some x ∧ x.done = true ∧ dEnd x.desc = false ∧ isMcast x.desc = false ∧ dKind x.desc ≠ 6 ∧ (s.strm f n).aborting = false ∧ (∀ q, ∀ y ∈ (s.strm f q).flight, dKind y.desc ≠ 6) ∧ dPsem x.desc < 0x100 ∧ s.semGet f (dPsem x.desc) (dPside x.desc) + dPostN x.desc ≤ 65535) ∧
    (∃ (s : State) (f : Fin 6) (n : Fin 32) (x : Flight), s.held = false ∧ (s.strm f n).flight = [x] ∧ x.done = true ∧ dEnd x.desc = true ∧ isMcast x.desc = false ∧ dKind x.desc ≠ 6 ∧ (s.strm f n).aborting = false ∧ (∀ q, ∀ y ∈ (s.strm f q).flight, dKind y.desc ≠ 6) ∧ dPostN x.desc = 0) ∧
    (∃ (s : State) (f : Fin 6) (l : List (Fin 6 × Fin 32)) (j : Nat), s.held = false ∧ s.jobOf f = some j ∧ s.plainJob j ∧ s.isCycle l = true ∧ l.foldl (fun (m : Nat) e => max m (gStream e.1 e.2)) 0 / 32 = f.val) :=
  ⟨⟨detLate, 0, 4, xfC, Instr.sem 0 4, by decide +kernel⟩,
   ⟨(strAt dSem).p (Reg.STR_SEMs_FULL 0 4) 9, 0, 3, 0, 5, dSem, by decide +kernel⟩,
   ⟨strAt 0, 0, 3, 0, 5, 0, 0, by decide +kernel⟩,
   ⟨started, 0, 3, 9, 77, by decide +kernel⟩,
   ⟨strAt dBar, 0, 3, 4, 0, 5, dBar, by decide +kernel⟩,
   ⟨strAt dBar1, 0, 3, 0, 5, dBar1, by decide +kernel⟩,
   ⟨{ (strAt dLink) with jobs := grnJob.jobs }, 0, 3, 0, 5, dLink, by decide +kernel⟩,
   ⟨flying [mkFlight dSem 5 true], 0, 3, 0, mkFlight dSem 5 true, by decide +kernel⟩,
   ⟨flying [mkFlight 0x15 5 true], 0, 3, mkFlight 0x15 5 true, by decide +kernel⟩,
   ⟨cycled, 0, [(0, 3), (0, 4)], 0, by decide +kernel⟩⟩

theorem witness_DescriptorsSynchroniseLinkAndComplete_2 :
    (∃ (s : State) (f : Fin 6) (n : Fin 32) (k : Nat) (who : BitVec 6) (x : Flight) (r : McRx), s.held = false ∧ (s.strm f n).flight[k]? = some x ∧ isMcast x.desc = true ∧ x.done = false ∧ x.rx = [r] ∧ r.detached = false ∧ who.getLsbD r.frond.val = true ∧ r.started = true ∧ r.delivered < x.blocks.length) ∧
    (∃ (s : State) (f : Fin 6) (n : Fin 32) (k : Nat) (lead : Nat) (who : BitVec 6) (x : Flight) (r : McRx) (q : McRx), s.held = false ∧ (s.strm f n).flight[k]? = some x ∧ isMcast x.desc = true ∧ x.done = false ∧ x.rx = [q, r] ∧ q.detached = false ∧ r.detached = false ∧ q.started = true ∧ q.frond ≠ r.frond ∧ who = BitVec.twoPow 6 q.frond.val ∧ q.delivered < x.blocks.length ∧ lead = q.delivered + 1 - r.delivered ∧ s.g (Reg.STR_CFG_MC_SLACK f) < lead ∧ s.mcJob r.frond = none) :=
  ⟨⟨flying [{ mkFlight dMc 5 false with blocks := [[(3, 8, false)], [(4, 9, false)]], rx := [⟨1, true, 1, false⟩] }], 0, 3, 0, 2, { mkFlight dMc 5 false with blocks := [[(3, 8, false)], [(4, 9, false)]], rx := [⟨1, true, 1, false⟩] }, ⟨1, true, 1, false⟩, by decide +kernel⟩,
   ⟨flying [{ mkFlight dMc 5 false with blocks := List.replicate 99 [(3, 8, false)], rx := [⟨1, true, 70, false⟩, ⟨2, true, 1, false⟩] }], 0, 3, 0, 70, 2, { mkFlight dMc 5 false with blocks := List.replicate 99 [(3, 8, false)], rx := [⟨1, true, 70, false⟩, ⟨2, true, 1, false⟩] }, ⟨2, true, 1, false⟩, ⟨1, true, 70, false⟩, by decide +kernel⟩⟩

theorem witness_TransfersMoveTheirRows :
    (∃ (s : State) (f : Fin 6) (n : Fin 32) (j : Nat) (pos : Nat) (d : BitVec 256) (rep : XferRep) (x : XRow), s.issues f n 1 j pos d ∧ (dWaitN d = 0 ∨ dWsem d < 0x100) ∧ isMcast d = false ∧ s.xferGate f n j d = .go ∧ s.poison = [] ∧ rep.ecc = .clean ∧ xferRows d (s.tns f (dfield d 64 6)) (s.tns f (dfield d 70 6)) = [x] ∧ ((x.n ≠ 0 → s.access (unitSrc f 4) j x.dst x.n true = .ok))) ∧
    (∃ (s : State) (f : Fin 6) (n : Fin 32) (j : Nat) (pos : Nat) (d : BitVec 256) (rep : XferRep), s.issues f n 1 j pos d ∧ (dWaitN d = 0 ∨ dWsem d < 0x100) ∧ isMcast d = false ∧ s.xferGate f n j d = .go ∧ rep.ecc = .clean ∧ ((∀ x ∈ xferRows d (s.tns f (dfield d 64 6)) (s.tns f (dfield d 70 6)), x.n ≠ 0 → s.access (unitSrc f 4) j x.dst x.n true = .ok))) ∧
    (∃ (s : State) (f : Fin 6) (n : Fin 32) (j : Nat) (pos : Nat) (d : BitVec 256) (rep : XferRep), s.issues f n 1 j pos d ∧ isMcast d = true ∧ s.xferGate f n j d = .go ∧ rep.ecc = .clean) ∧
    (∃ (s : State) (f : Fin 6) (n : Fin 32) (j : Nat) (pos : Nat) (d : BitVec 256) (rep : XferRep), s.issues f n 1 j pos d ∧ s.xferGate f n j d = .wait 7 0) ∧
    (∃ (s : State) (f : Fin 6) (n : Fin 32) (j : Nat) (pos : Nat) (d : BitVec 256) (rep : XferRep), s.issues f n 1 j pos d ∧ (s.xferGate f n j d = .err 3 ∨ s.xferGate f n j d = .err 4 ∨ s.xferGate f n j d = .err 9) ∧ s.plainJob j) ∧
    (∃ (s : State) (f : Fin 6) (n : Fin 32) (j : Nat) (d : BitVec 256), (s.tns f (dfield d 64 6)).valid = false) ∧
    (∃ (s : State) (f : Fin 6) (n : Fin 32) (j : Nat) (pos : Nat) (d : BitVec 256) (rep : XferRep) (x : XRow), s.issues f n 1 j pos d ∧ (dWaitN d = 0 ∨ dWsem d < 0x100) ∧ isMcast d = false ∧ s.xferGate f n j d = .go ∧ rep.ecc = .clean ∧ xferRows d (s.tns f (dfield d 64 6)) (s.tns f (dfield d 70 6)) = [x] ∧ x.n ≠ 0 ∧ s.access (unitSrc f 4) j x.dst x.n true = .unmapped) ∧
    (∃ (s : State) (f : Fin 6) (n : Fin 32) (j : Nat) (k : Nat) (pos : Nat) (d : BitVec 256) (rep : XferRep) (x : XRow), s.issues f n 1 j pos d ∧ (dWaitN d = 0 ∨ dWsem d < 0x100) ∧ isMcast d = false ∧ s.xferGate f n j d = .go ∧ rep.ecc = .clean ∧ xferRows d (s.tns f (dfield d 64 6)) (s.tns f (dfield d 70 6)) = [x] ∧ x.n ≠ 0 ∧ s.access (unitSrc f 4) j x.dst x.n true = .cross k ∧ s.plainJob j) :=
  ⟨⟨xferAt, 0, 3, 0, 5, dXfer, xfC, ⟨0x200001000, 40, 0x200002000, 48⟩, by decide +kernel⟩,
   ⟨xferAt, 0, 3, 0, 5, dXfer, xfC, by decide +kernel⟩,
   ⟨mcAt, 0, 3, 0, 5, dMc, xfC, by decide +kernel⟩,
   ⟨xferFull, 0, 3, 0, 5, dXfer, xfC, by decide +kernel⟩,
   ⟨strAt dXfer, 0, 3, 0, 5, dXfer, xfC, by decide +kernel⟩,
   ⟨strAt dXfer, 0, 3, 0, dXfer, by decide +kernel⟩,
   ⟨xferRo, 0, 3, 0, 5, dXfer, xfC, ⟨0x200001000, 40, 0x1000000000, 48⟩, by decide +kernel⟩,
   ⟨xferCross, 0, 3, 0, 1, 5, dXfer, xfC, ⟨0x200001000, 40, 0x1000000000, 48⟩, by decide +kernel⟩⟩

theorem witness_AtomicsActAtTheGranary :
    (∃ (s : State) (c : Fin 7) (ret : Bool) (dw : Bool) (op : AmoOp) (a : Addr) (v : BitVec 64) (n : Nat), s.held = false ∧ n = (if dw then 8 else 4) ∧ s.amoAccess c a.toNat n true = .ok ∧ (s.det = false ∨ (ret = false)) ∧ op ≠ .lr ∧ op ≠ .sc) ∧
    (∃ (s : State) (c : Fin 7) (ret : Bool) (dw : Bool) (a : Addr) (v : BitVec 64) (n : Nat), s.held = false ∧ n = (if dw then 8 else 4) ∧ s.amoAccess c a.toNat n false = .ok ∧ s.det = false) ∧
    (∃ (s : State) (c : Fin 7) (ret : Bool) (dw : Bool) (a : Addr) (v : BitVec 64) (n : Nat), s.held = false ∧ n = (if dw then 8 else 4) ∧ s.amoAccess c a.toNat n true = .ok ∧ s.det = false) ∧
    (∃ (s : State) (c : Fin 7) (ret : Bool) (dw : Bool) (op : AmoOp) (a : Addr) (v : BitVec 64) (e : CtlRead) (j : Nat), s.held = false ∧ s.amoAccess c a.toNat (if dw then 8 else 4) (op != .lr) = .ok ∧ s.det = true ∧ (ret = true ∨ op = .lr ∨ op = .sc) ∧ s.agentJob (ctlSrc c) = some j ∧ s.plainJob j) ∧
    (∃ (s : State) (c : Fin 7) (ret : Bool) (dw : Bool) (op : AmoOp) (a : Addr) (v : BitVec 64) (o : Nat), s.held = false ∧ s.amoAccess c a.toNat (if dw then 8 else 4) (op != .lr) = .ok ∧ s.region a.toNat = .granary o ∧ s.det = false) ∧
    (∃ (s : State) (c : Fin 7) (ret : Bool) (dw : Bool) (op : AmoOp) (a : Addr) (v : BitVec 64) (e : CtlRead), s.held = false ∧ s.amoAccess c a.toNat (if dw then 8 else 4) (op != .lr) = .unmapped) ∧
    (∃ (s : State) (g : Byte) (c : Fin 7) (v : Word) (a : Nat), s.held = false ∧ g.toNat = ctlSrc c ∧ a = s.g64 (Reg.GRN_FADDc_ADDR_LO c) (Reg.GRN_FADDc_ADDR_HI c) ∧ s.amoAccess c a 4 true = .ok ∧ s.det = false ∧ (FpFmt.decode ⟨8, 23, false, false⟩ false (s.ldN a 4)).isInf = false ∧ (FpFmt.decode ⟨8, 23, false, false⟩ false v.toNat).isInf = false) ∧
    (∃ (s : State) (g : Byte) (c : Fin 7) (v : Word) (e : CtlRead), s.held = false ∧ g.toNat ≠ ctlSrc c) ∧
    (∃ (s : State) (g : Byte) (k : BitVec 11) (side : Bool) (n : BitVec 16), s.held = false ∧ s.inRun = true ∧ 0x400 ≤ k.toNat ∧ s.semGet 0 k.toNat side + n.toNat ≤ 65535) ∧
    (∃ (s : State) (g : Byte) (k : BitVec 11) (side : Bool) (n : BitVec 16), s.held = false ∧ 0x400 ≤ k.toNat ∧ 65535 < s.semGet 0 k.toNat side + n.toNat) :=
  ⟨⟨banked, 6, true, false, .max, 0x100000400#48, 9, 4, by decide +kernel⟩,
   ⟨banked, 6, false, true, 0x100000400#48, 9, 8, by decide +kernel⟩,
   ⟨{ banked with mems := { banked.mems with resv := [(6, 0x100000400)] } }, 6, false, true, 0x100000408#48, 9, 8, by decide +kernel⟩,
   ⟨detBank, 0, true, false, .add, 0x100040400#48, 9, .clean, 0, by decide +kernel⟩,
   ⟨banked, 6, true, false, .lr, 0x100000400#48, 9, 0x400, by decide +kernel⟩,
   ⟨banked, 6, true, false, .lr, 0x90#48, 9, .corrected, by decide +kernel⟩,
   ⟨(banked.p (Reg.GRN_FADDc_ADDR_LO 6) 0x400).p (Reg.GRN_FADDc_ADDR_HI 6) 1, 0, 6, 0x3F800000, 0x100000400, by decide +kernel⟩,
   ⟨banked, 0x70, 6, 0, .clean, by decide +kernel⟩,
   ⟨banked, 0, 0x405, true, 7, by decide +kernel⟩,
   ⟨{ banked with mem := [(banked.semAddr 0x405 + 2, 255), (banked.semAddr 0x405 + 3, 255)] }, 0, 0x405, true, 7, by decide +kernel⟩⟩

theorem witness_BanksLoftCacheAndGleanerAct_1 :
    (∃ (s : State) (b : Fin 1024), s.held = false ∧ s.inRun = true ∧ s.mayRetain (.granary b) = true) ∧
    (∃ (s : State) (f : Fin 6) (k : Fin 32), s.held = false ∧ s.inRun = true ∧ s.mayRetain (.leaf f k) = true) ∧
    (∃ (s : State) (f : Fin 6) (c : Fin 8), s.held = false ∧ s.inRun = true ∧ s.mayRetain (.sig f c) = true) ∧
    (∃ (s : State) (b : BankRef), s.held = false ∧ (s.inRun = false ∨ s.mayRetain b = false)) ∧
    (∃ (s : State) (job : Option (Fin 16)) (off : Nat) (w : Fin 16) (st : Bool), s.held = false ∧ off < s.barnBytes ∧ s.loftHas (off / 256) = false ∧ (List.finRange 16).find? (fun w => (s.waysOf (job.map (·.val))).testBit w.val && !(s.mems.loft.any (fun l => l.line % 512 == off / 256 % 512 && l.way == w))) = some w) ∧
    (∃ (s : State) (job : Option (Fin 16)) (off : Nat) (st : Bool) (e : EccState), s.held = false ∧ (s.barnBytes ≤ off ∨ s.loftHas (off / 256) = true)) ∧
    (∃ (s : State) (job : Option (Fin 16)) (off : Nat), s.held = false ∧ off < s.barnBytes ∧ s.loftHas (off / 256) = false ∧ s.poison = []) ∧
    (∃ (s : State) (g : Byte) (v : Word) (j : Fin 16), s.held = false ∧ s.mayWrite g.toNat .fw = true ∧ s.g Reg.BRN_WAY_SEL = j.val ∧ v.toNat < 65536) ∧
    (∃ (s : State) (a : Addr) (l : Bool) (tok : Bool) (e : EccState), s.held = false ∧ (s.inRun = false ∨ s.gleanable a.toNat l = false)) ∧
    (∃ (s : State) (a : Addr) (tok : Bool) (o : Nat), s.held = false ∧ s.inRun = true ∧ s.gleanable a.toNat false = true ∧ s.region a.toNat = .granary o) :=
  ⟨⟨banked, 77, by decide +kernel⟩,
   ⟨working, 0, 3, by decide +kernel⟩,
   ⟨working, 0, 3, by decide +kernel⟩,
   ⟨started, .leaf 0 25, by decide +kernel⟩,
   ⟨(started.setWays 0 6).p Reg.BRN_CFG_USABLE 64, some 0, 0x1234, 1, true, by decide +kernel⟩,
   ⟨started, none, 0x1000000000000, true, .uncorrectable, by decide +kernel⟩,
   ⟨(started.setWays 0 6).p Reg.BRN_CFG_USABLE 64, some 0, 0x1234, by decide +kernel⟩,
   ⟨started.setWays 1 0xF0, 0, 0x0F, 0, by decide +kernel⟩,
   ⟨started, 0, false, true, .clean, by decide +kernel⟩,
   ⟨banked, 0x100000020#48, true, 32, by decide +kernel⟩⟩

theorem witness_BanksLoftCacheAndGleanerAct_2 :
    ∃ (s : State) (a : Addr) (tok : Bool) (o : Nat), s.held = false ∧ s.inRun = true ∧ s.gleanable a.toNat false = true ∧ s.region a.toNat = .granary o ∧ s.poison = [] :=
  ⟨banked, 0x100000020#48, true, 32, by decide +kernel⟩

theorem witness_UplinkPlansAndSectionsAct :
    (∃ (s : State) (m : FhMsg) (idx : Nat) (edge : Nat), s.held = false ∧ s.fhLive m = true ∧ ctlKind m = 1 ∧ s.ctlWhy m = 0 ∧ idx = le (m.body.drop 4) 0 2 % 1024 * spf (s.g Reg.JOB_RX_CFG_SCS) + byteAt (m.body.drop 4) 2 % 128 ∧ edge = s.edgeOf s.rxDom (s.g Reg.JOB_RX_CFG_SCS) (s.dom s.rxDom).nanos idx ∧ s.ulReason (m.body.drop 4) idx edge = (0, 0xFF) ∧ s.macQuiet) ∧
    (∃ (s : State) (m : FhMsg) (idx : Nat) (edge : Nat), s.held = false ∧ s.fhLive m = true ∧ ctlKind m = 1 ∧ s.ctlWhy m = 0 ∧ idx = le (m.body.drop 4) 0 2 % 1024 * spf (s.g Reg.JOB_RX_CFG_SCS) + byteAt (m.body.drop 4) 2 % 128 ∧ edge = s.edgeOf s.rxDom (s.g Reg.JOB_RX_CFG_SCS) (s.dom s.rxDom).nanos idx ∧ (s.ulReason (m.body.drop 4) idx edge).1 ≠ 0) ∧
    (∃ (s : State) (m : FhMsg), s.held = false ∧ s.fhLive m = true ∧ ctlKind m = 1 ∧ s.ctlWhy m ≠ 0) ∧
    (∃ (s : State) (m : FhMsg), s.held = false ∧ (s.fhLive m = false ∨ ctlKind m ≠ 1)) ∧
    (∃ (s : State) (m : FhMsg) (h : SectHdr) (x : RxSlot) (p : Nat), s.held = false ∧ s.fhLive m = true ∧ s.sectReason m = 0 ∧ h = sectHdr m.body ∧ s.rxOpen x ∧ x.idx = h.sfn * spf (s.g Reg.JOB_RX_CFG_SCS) + h.slot ∧ x.start = s.edgeOf s.rxDom (s.g Reg.JOB_RX_CFG_SCS) (s.dom s.rxDom).nanos x.idx ∧ x.released.getLsbD h.sym = false ∧ s.pastWin x h.sym = false ∧ s.nextReady = none ∧ x.grid.any (fun e => decide (gridKey h.sym h.antenna (12 * h.prb0) ≤ e.1 ∧ e.1 < gridKey h.sym h.antenna (12 * h.prb0) + 12 * h.nprb)) = false ∧ p < s.g Reg.JOB_RX_CFG_NPORT ∧ p ≠ h.antenna ∧ s.absent p = false ∧ x.grid.all (fun e => keyPort e.1 != p) = true) ∧
    (∃ (s : State) (m : FhMsg) (h : SectHdr) (x : RxSlot), s.held = false ∧ s.fhLive m = true ∧ s.sectReason m = 0 ∧ h = sectHdr m.body ∧ s.rxOpen x ∧ x.idx = h.sfn * spf (s.g Reg.JOB_RX_CFG_SCS) + h.slot ∧ x.start = s.edgeOf s.rxDom (s.g Reg.JOB_RX_CFG_SCS) (s.dom s.rxDom).nanos x.idx ∧ (x.released.getLsbD h.sym = true ∨ s.pastWin x h.sym = true)) ∧
    (∃ (s : State) (m : FhMsg) (h : SectHdr) (x : RxSlot), s.held = false ∧ s.fhLive m = true ∧ s.sectReason m = 0 ∧ h = sectHdr m.body ∧ s.rx.slots.filter (fun y => y.idx == x.idx) = [x] ∧ x.idx = h.sfn * spf (s.g Reg.JOB_RX_CFG_SCS) + h.slot ∧ x.start = s.edgeOf s.rxDom (s.g Reg.JOB_RX_CFG_SCS) (s.dom s.rxDom).nanos x.idx ∧ x.edge = true ∧ x.released.getLsbD h.sym = false ∧ (x.ended = true ∨ (s.pastWin x h.sym = false ∧ x.grid.any (fun e => decide (gridKey h.sym h.antenna (12 * h.prb0) ≤ e.1 ∧ e.1 < gridKey h.sym h.antenna (12 * h.prb0) + 12 * h.nprb)) = true))) ∧
    (∃ (s : State) (m : FhMsg) (h : SectHdr), s.held = false ∧ s.fhLive m = true ∧ s.sectReason m = 0 ∧ h = sectHdr m.body ∧ s.rx.slots.all (fun x => x.idx != h.sfn * spf (s.g Reg.JOB_RX_CFG_SCS) + h.slot) = true) ∧
    (∃ (s : State) (m : FhMsg), s.held = false ∧ s.fhLive m = true ∧ s.sectReason m ≠ 0) :=
  ⟨⟨rxOn, ulMsg 1 [], 10001, 5000500000, by decide +kernel⟩,
   ⟨rxOn, ulMsg 9 [], 10009, 5004500000, by decide +kernel⟩,
   ⟨rxOn, { (ulMsg 1 []) with src := 9 }, by decide +kernel⟩,
   ⟨rxOn, { (ulMsg 1 []) with link := 5 }, by decide +kernel⟩,
   ⟨rxOn, iqMsg 3 0, sectHdr (iqMsg 3 0).body, rxS, 1, by decide +kernel⟩,
   ⟨rxOn, iqMsg 0 0, sectHdr (iqMsg 0 0).body, rxS, by decide +kernel⟩,
   ⟨rxHas [{ rxS with ended := true }], iqMsg 3 0, sectHdr (iqMsg 3 0).body, { rxS with ended := true }, by decide +kernel⟩,
   ⟨rxOn, iqMsg 3 1, sectHdr (iqMsg 3 1).body, by decide +kernel⟩,
   ⟨rxOn, iqMsg 14 0, by decide +kernel⟩⟩

theorem witness_SlotsReleaseDecideAndClose_1 :
    (∃ (s : State) (d : Dom) (f : BitVec 10) (n : BitVec 7) (x : RxSlot), s.held = false ∧ (s.roleJob 1).isSome = true ∧ s.groupSect = none ∧ d = s.rxDom ∧ n.toNat < spf (s.g Reg.JOB_RX_CFG_SCS) ∧ x.idx = f.toNat * spf (s.g Reg.JOB_RX_CFG_SCS) + n.toNat ∧ s.slotIdxAt d (s.g Reg.JOB_RX_CFG_SCS) (s.dom d).nanos = x.idx ∧ x.start = s.edgeBefore d (s.g Reg.JOB_RX_CFG_SCS) (s.dom d).nanos ∧ (s.dom d).edgeAt ≠ x.start + 1 ∧ s.rx.slots.filter (fun y => y.idx == x.idx) = [x] ∧ x.edge = false) ∧
    (∃ (s : State) (d : Dom) (f : BitVec 10) (n : BitVec 7), s.held = false ∧ (∀ c ∈ [s.g Reg.JOB_RX_CFG_SCS, s.g Reg.JOB_TX_CFG_SCS], ¬(n.toNat < spf c ∧ s.slotIdxAt d c (s.dom d).nanos = f.toNat * spf c + n.toNat))) ∧
    (∃ (s : State) (idx : BitVec 17) (m : Fin 14) (x : RxSlot), s.held = false ∧ s.rxOpen x ∧ x.idx = idx.toNat ∧ x.released.getLsbD m.val = false ∧ s.pastWin x m.val = true ∧ ((∀ y ∈ s.rx.slots, y.edge = true → y.ended = false → y = x)) ∧ ((∀ k : Fin 14, k ≠ m → x.released.getLsbD k.val = true))) ∧
    (∃ (s : State) (idx : BitVec 17) (m : Fin 14) (x : RxSlot), s.held = false ∧ s.rxOpen x ∧ x.idx = idx.toNat ∧ (s.pastWin x m.val = false ∨ (x.released = 0x3FFF ∧ s.nextReady = none))) ∧
    (∃ (s : State) (v : RefDone) (x : RxSlot) (a : Alloc) (b : Alloc) (q : List Int), s.held = false ∧ s.rxOpen x ∧ a ∈ x.allocs ∧ s.tagged v.tag.toNat = some (x, a) ∧ a.frond = v.frond ∧ a.refDone = false ∧ s.pathOpen x a = true ∧ q = (s.groupFor x a).llrs a ∧ s.rxSpace a.frond v.buf.toNat q.length true = .ok ∧ b = { a with refDone := true, resR := (s.groupFor x a).residual a (s.groupFor x a).hRef, mllrR := meanLlr q, tR := s.compact s.rxDom, bufR := v.buf.toNat }) ∧
    (∃ (s : State) (v : RefDone), s.held = false ∧ s.tagged v.tag.toNat = none) ∧
    (∃ (s : State) (v : RefDone) (x : RxSlot) (a : Alloc), s.held = false ∧ s.tagged v.tag.toNat = some (x, a) ∧ (a.refDone = true ∨ s.pathOpen x a = false)) ∧
    (∃ (s : State) (idx : BitVec 17) (x : RxSlot) (a : Alloc), s.held = false ∧ s.rxOpen x ∧ x.idx = idx.toNat ∧ a ∈ x.allocs ∧ s.pastG x = true) ∧
    (∃ (s : State) (idx : BitVec 17) (x : RxSlot), s.held = false ∧ s.rxOpen x ∧ x.idx = idx.toNat ∧ s.pastG x = false) ∧
    (∃ (s : State) (idx : BitVec 17) (x : RxSlot), s.held = false ∧ s.rxOpen x ∧ x.idx = idx.toNat ∧ s.pastD x = true ∧ (∀ a ∈ x.allocs, a.decision.isSome = true)) :=
  ⟨⟨rxPre, .a, 500, 0, rxP, by decide +kernel⟩,
   ⟨rxPre, .a, 77, 3, by decide +kernel⟩,
   ⟨atNs 900000000 rxOn13, 10000, 3, rxS13, by decide +kernel⟩,
   ⟨rxOnAll, 10000, 3, rxSAll, by decide +kernel⟩,
   ⟨rxOnG, refV, rxSAll, al0, { al0 with refDone := true, resR := (rxOnG.groupFor rxSAll al0).residual al0 (rxOnG.groupFor rxSAll al0).hRef, mllrR := meanLlr ((rxOnG.groupFor rxSAll al0).llrs al0), tR := rxOnG.compact .a, bufR := 0x100010 }, (rxOnG.groupFor rxSAll al0).llrs al0, ⟨by decide +kernel, by decide +kernel, by decide +kernel, by decide +kernel, by decide +kernel, by decide +kernel, by decide +kernel, rfl, by decide +kernel, rfl⟩⟩,
   ⟨rxOn, { refV with tag := 99 }, by decide +kernel⟩,
   ⟨rxOn, refV, rxS, al0, by decide +kernel⟩,
   ⟨rxGrd, 10000, rxSAll, al0, by decide +kernel⟩,
   ⟨rxOnAll, 10000, rxSAll, by decide +kernel⟩,
   ⟨rxDl, 10000, rxSDec, by decide +kernel⟩⟩

theorem witness_SlotsReleaseDecideAndClose_2 :
    ∃ (s : State) (idx : BitVec 17) (x : RxSlot), s.held = false ∧ s.rxOpen x ∧ x.idx = idx.toNat ∧ s.pastD x = false ∧ s.digestDue idx.toNat = false :=
  ⟨rxOnDec, 10000, rxSDec, by decide +kernel⟩

theorem witness_ThreshersQueueDecodeAndEncode_1 :
    (∃ (s : State) (g : Byte) (f : Fin 6) (v : Word), s.held = false ∧ s.agentJob g.toNat = none ∧ s.mayWrite g.toNat .fw = true ∧ v = 1 ∧ (s.fr f).thr.queue.length < 32) ∧
    (∃ (s : State) (g : Byte) (f : Fin 6) (v : Word), s.held = false ∧ s.agentJob g.toNat = none ∧ s.mayWrite g.toNat .fw = true ∧ v = 1 ∧ 32 ≤ (s.fr f).thr.queue.length) ∧
    (∃ (s : State) (f : Fin 6) (c : List Word) (q : List (List Word)) (j : Nat) (dst : Nat) (n : Nat) (o : ThrOut), s.held = false ∧ (s.fr f).thr = ⟨c :: q, none, false⟩ ∧ s.jobOf f = some j ∧ s.frondRuns f = true ∧ cfield c 0 0 2 = 0 ∧ s.thrCheck f j c = 0 ∧ s.poisoned (grnBase + 32 * cfield c 2 0 23) (cfield c 5 0 24) = false ∧ o = s.thrDecode f c ((s.ld (grnBase + 32 * cfield c 2 0 23) (cfield c 5 0 24)).map llr8) ∧ dst = grnBase + 32 * cfield c 3 0 23 ∧ n = 32 * ceilDiv (codeParam (thrParam c)).tbs 256) :=
  ⟨⟨started, 0, 0, 1, by decide +kernel⟩,
   ⟨{ started with fronds := started.fronds.set 0 { Frond.idle with thr := ⟨List.replicate 32 [], none, false⟩ } }, 0, 0, 1, by decide +kernel⟩,
   ⟨thrAt (thrCmd 0), 0, thrCmd 0, [], 0, grnBase + 32 * 0x100100, 32, (thrAt (thrCmd 0)).thrDecode 0 (thrCmd 0) (((thrAt (thrCmd 0)).ld (grnBase + 32 * 0x100010) 120).map llr8), ⟨by decide +kernel, rfl, by decide +kernel, by decide +kernel, by decide +kernel, by decide +kernel, by decide +kernel, rfl, rfl, by decide +kernel⟩⟩⟩

theorem witness_ThreshersQueueDecodeAndEncode_2 :
    (∃ (s : State) (f : Fin 6) (c : List Word) (q : List (List Word)) (j : Nat) (dst : Nat) (l : List Bool), s.held = false ∧ (s.fr f).thr = ⟨c :: q, none, false⟩ ∧ s.jobOf f = some j ∧ s.frondRuns f = true ∧ cfield c 0 0 2 = 1 ∧ s.thrCheck f j c = 0 ∧ s.poisoned (grnBase + 32 * cfield c 2 0 23) (ceilDiv (codeParam (thrParam c)).tbs 8) = false ∧ s.thrEncode f c ((lsbBits (s.ld (grnBase + 32 * cfield c 2 0 23) (ceilDiv (codeParam (thrParam c)).tbs 8))).take (codeParam (thrParam c)).tbs) = some l ∧ dst = grnBase + 32 * cfield c 3 0 23) ∧
    (∃ (s : State) (f : Fin 6) (c : List Word) (q : List (List Word)) (j : Nat), s.held = false ∧ (s.fr f).thr = ⟨c :: q, none, false⟩ ∧ s.jobOf f = some j ∧ s.frondRuns f = true ∧ s.thrCheck f j c ≠ 0 ∧ cfield c 0 0 2 ≠ 1 ∧ s.plainJob j) ∧
    (∃ (s : State) (f : Fin 6), s.held = false ∧ ((s.fr f).thr.queue = [] ∨ (s.fr f).thr.run.isSome = true)) :=
  ⟨⟨thrAt (thrCmd 1), 0, thrCmd 1, [], 0, grnBase + 32 * 0x100100, ((thrAt (thrCmd 1)).thrEncode 0 (thrCmd 1) ((lsbBits ((thrAt (thrCmd 1)).ld (grnBase + 32 * cfield (thrCmd 1) 2 0 23) (ceilDiv (codeParam (thrParam (thrCmd 1))).tbs 8))).take (codeParam (thrParam (thrCmd 1))).tbs)).get thrCmd1_encodes, ⟨by decide +kernel, rfl, by decide +kernel, by decide +kernel, rfl, by decide +kernel, by decide +kernel, (Option.some_get _).symm, by decide +kernel⟩⟩,
   ⟨thrAt [2], 0, [2], [], 0, by decide +kernel⟩,
   ⟨started, 0, by decide +kernel⟩⟩

theorem witness_ThreshersQueueDecodeAndEncode_3 :
    (∃ (s : State) (g : Byte) (f : Fin 6) (v : Word) (n : Nat), s.held = false ∧ s.agentJob g.toNat = none ∧ s.mayWrite g.toNat .fw = true ∧ v.getLsbD 16 = true ∧ n = v.toNat % 65536) ∧
    (∃ (s : State) (g : Byte) (f : Fin 6) (b : Fin 2) (c : Fin 64) (v : Word), s.held = false ∧ s.agentJob g.toNat = none ∧ s.mayWrite g.toNat .fw = true ∧ v.toNat < 65536 ∧ (s.fr f).thr.usesBank b.val = false) ∧
    (∃ (s : State) (g : Byte) (f : Fin 6) (b : Fin 2) (c : Fin 64) (v : Word), s.held = false ∧ s.agentJob g.toNat = none ∧ s.mayWrite g.toNat .fw = true ∧ (s.fr f).thr.usesBank b.val = true) :=
  ⟨⟨thrRunAt (thrCmd 0), 0, 0, 0x1000A, 10, by decide +kernel⟩,
   ⟨thrAt (thrCmd 0), 0, 0, 1, 5, 0x1234, by decide +kernel⟩,
   ⟨thrAt (thrCmd 0), 0, 0, 0, 5, 0x1234, by decide +kernel⟩⟩

theorem witness_ThresherCommandsCompleteAndDeliver_1 :
    (∃ (s : State) (f : Fin 6) (r : ThrRun) (st : List Byte) (a : Nat), s.held = false ∧ (s.fr f).thr.run = some r ∧ r.computed = true ∧ r.status.length = 12 ∧ cfield r.cmd 6 28 4 = 0 ∧ s.on (Reg.THR_CFG_FAIL_EV f) = false ∧ s.tagged (thrTag r.cmd) = none ∧ st = (if r.cancelled = true then r.status.take 2 ++ [2] ++ r.status.drop 3 else r.status) ∧ a = grnBase + 32 * cfield r.cmd 4 0 23) ∧
    (∃ (s : State) (f : Fin 6) (r : ThrRun), s.held = false ∧ (s.fr f).thr.run = some r ∧ r.computed = true ∧ cfield r.cmd 6 16 11 < 0x100 ∧ cfield r.cmd 6 27 1 = 0 ∧ s.g (Reg.STR_SEMs_FULL f (cfield r.cmd 6 16 11)) + cfield r.cmd 6 28 4 ≤ 65535) ∧
    (∃ (s : State) (f : Fin 6) (r : ThrRun) (j : Nat), s.held = false ∧ (s.fr f).thr.run = some r ∧ r.computed = true ∧ cfield r.cmd 6 16 11 < 0x100 ∧ cfield r.cmd 6 27 1 = 0 ∧ cfield r.cmd 6 28 4 ≠ 0 ∧ 65535 < s.g (Reg.STR_SEMs_FULL f (cfield r.cmd 6 16 11)) + cfield r.cmd 6 28 4 ∧ s.jobOf f = some j ∧ s.plainJob j) :=
  ⟨⟨thrRunAt (thrCmd 0), 0, thrRun0 (thrCmd 0), (thrRun0 (thrCmd 0)).status, grnBase + 32 * 0x100200, by decide +kernel⟩,
   ⟨thrRunAt (thrCmdP 0x20030000), 0, thrRun0 (thrCmdP 0x20030000), by decide +kernel⟩,
   ⟨(thrRunAt (thrCmdP 0x20030000)).p (Reg.STR_SEMs_FULL 0 3) 65534, 0, thrRun0 (thrCmdP 0x20030000), 0, by decide +kernel⟩⟩

theorem witness_ThresherCommandsCompleteAndDeliver_2 :
    (∃ (s : State) (f : Fin 6) (r : ThrRun) (x : RxSlot) (a : Alloc) (n : Nat), s.held = false ∧ (s.fr f).thr.run = some r ∧ r.computed = true ∧ r.cancelled = false ∧ r.status.length = 12 ∧ cfield r.cmd 6 28 4 = 0 ∧ s.tagged (thrTag r.cmd) = some (x, a) ∧ a ∈ x.allocs ∧ s.rxOpen x ∧ a.frond = f ∧ a.done = false ∧ a.decision = some n ∧ n ≠ 3 ∧ byteAt r.status 2 ≤ 1 ∧ thrParam r.cmd = a.decode ∧ a.buf = some (cfield r.cmd 2 0 23) ∧ s.pastD x = false) ∧
    (∃ (s : State) (f : Fin 6) (r : ThrRun) (x : RxSlot) (a : Alloc) (p : Nat) (d : Nat) (n : Nat), s.held = false ∧ (s.fr f).thr.run = some r ∧ r.computed = true ∧ r.cancelled = false ∧ r.status.length = 12 ∧ cfield r.cmd 6 28 4 = 0 ∧ s.tagged (thrTag r.cmd) = some (x, a) ∧ a ∈ x.allocs ∧ s.rxOpen x ∧ a.frond = f ∧ a.labelled = 1 ∧ byteAt r.status 2 = 3 ∧ thrParam r.cmd = a.decode ∧ a.dec = some (cfield r.cmd 2 0 23) ∧ cfield r.cmd 5 0 24 = a.coded ∧ p = grnBase + 32 * cfield r.cmd 4 0 23 ∧ d = grnBase + 32 * cfield r.cmd 3 0 23 ∧ n = ceilDiv (cfield r.cmd 5 0 24) 8 ∧ (p + 32 ≤ d ∨ d + n ≤ p)) ∧
    (∃ (s : State) (f : Fin 6), s.held = false ∧ (s.fr f).thr.run = none) :=
  ⟨⟨thrRx thrD [alD, al1], 0, thrRun0 thrD, rxW [alD, al1], alD, 0, by decide +kernel⟩,
   ⟨thrRx thrL [alE, al1], 0, { thrRun0 thrL with status := [10, 0, 3, 1, 0, 0, 2, 0, 2, 0, 0, 0] }, rxW [alE, al1], alE, grnBase + 32 * 0x100200, grnBase + 32 * 0x100100, ceilDiv alE.coded 8, by decide +kernel⟩,
   ⟨started, 0, by decide +kernel⟩⟩

theorem witness_DownlinkPlansAndDataAct :
    (∃ (s : State) (m : FhMsg) (idx : Nat) (edge : Nat), s.held = false ∧ s.fhLive m = true ∧ ctlKind m = 2 ∧ s.ctlWhy m = 0 ∧ idx = le (m.body.drop 4) 0 2 % 1024 * spf (s.g Reg.JOB_TX_CFG_SCS) + byteAt (m.body.drop 4) 2 % 128 ∧ edge = s.edgeOf s.txDom (s.g Reg.JOB_TX_CFG_SCS) (s.dom s.txDom).nanos idx ∧ s.dlReason (m.body.drop 4) idx edge = (0, 0xFF) ∧ s.macQuiet) ∧
    (∃ (s : State) (m : FhMsg) (idx : Nat) (edge : Nat), s.held = false ∧ s.fhLive m = true ∧ ctlKind m = 2 ∧ s.ctlWhy m = 0 ∧ idx = le (m.body.drop 4) 0 2 % 1024 * spf (s.g Reg.JOB_TX_CFG_SCS) + byteAt (m.body.drop 4) 2 % 128 ∧ edge = s.edgeOf s.txDom (s.g Reg.JOB_TX_CFG_SCS) (s.dom s.txDom).nanos idx ∧ (s.dlReason (m.body.drop 4) idx edge).1 ≠ 0 ∧ s.macQuiet) ∧
    (∃ (s : State) (m : FhMsg) (x : TxSlot) (a : TxAlloc), s.held = false ∧ s.fhLive m = true ∧ ctlKind m = 3 ∧ s.ctlWhy m = 0 ∧ s.partBad m = false ∧ s.partOf m = some (x, a) ∧ s.cutDue x = false) ∧
    (∃ (s : State) (m : FhMsg) (x : TxSlot) (a : TxAlloc), s.held = false ∧ s.fhLive m = true ∧ ctlKind m = 3 ∧ s.ctlWhy m = 0 ∧ (s.partBad m = true ∨ (s.partOf m = some (x, a) ∧ s.cutDue x = true))) ∧
    (∃ (s : State) (m : FhMsg) (x : TxSlot) (a : TxAlloc), s.held = false ∧ s.fhLive m = true ∧ ctlKind m = 4 ∧ s.ctlWhy m = 0 ∧ s.partBad m = false ∧ s.partOf m = some (x, a) ∧ s.cutDue x = false) ∧
    (∃ (s : State) (m : FhMsg) (x : TxSlot) (a : TxAlloc), s.held = false ∧ s.fhLive m = true ∧ ctlKind m = 4 ∧ s.ctlWhy m = 0 ∧ (s.partBad m = true ∨ (s.partOf m = some (x, a) ∧ s.cutDue x = true))) ∧
    (∃ (s : State) (m : FhMsg), s.held = false ∧ s.fhLive m = true ∧ (s.ctlWhy m ≠ 0 ∨ ((ctlKind m = 3 ∨ ctlKind m = 4) ∧ s.partBad m = true))) ∧
    (∃ (s : State) (m : FhMsg), s.held = false ∧ (s.fhLive m = false ∨ (s.ctlWhy m = 0 ∧ ctlKind m ≤ 2))) ∧
    (∃ (s : State) (idx : BitVec 17) (x : TxSlot), s.held = false ∧ s.tx.filter (fun y => y.idx == idx.toNat) = [x] ∧ x.cut = false ∧ s.cutDue x = true ∧ (x.allocs.map (fun a => a.index)).Nodup) ∧
    (∃ (s : State) (idx : BitVec 17), s.held = false ∧ ((∀ x ∈ s.tx, x.idx = idx.toNat → x.cut = true ∨ s.cutDue x = false))) :=
  ⟨⟨txOn [], dlMsg 2 3, 10003, 5001500000, by decide +kernel⟩,
   ⟨txOn [], dlMsg 2 13, 10013, 5006500000, by decide +kernel⟩,
   ⟨txOn [txS], tbMsg 3, txS, txA, by decide +kernel⟩,
   ⟨txOn [txS], { (tbMsg 3) with body := (tbMsg 3).body ++ zeros 8 }, txS, txA, by decide +kernel⟩,
   ⟨txOn [txS], tbMsg 4, txS, txA, by decide +kernel⟩,
   ⟨txOn [{ txS with cut := true }], tbMsg 4, { txS with cut := true }, txA, by decide +kernel⟩,
   ⟨txOn [txS], tbMsg 5, by decide +kernel⟩,
   ⟨txOn [txS], dlMsg 2 3, by decide +kernel⟩,
   ⟨atNs 2000000 (txOn [txS]), 10002, txS, by decide +kernel⟩,
   ⟨txOn [{ txS with cut := true }], 10002, by decide +kernel⟩⟩

theorem witness_FronthaulFramesLaunchAndAnswer_1 :
    (∃ (l : List Bool) (r : List Bool), l.length = r.length ∧ l.length % 2 = 0 ∧ 2 ≤ l.length ∧ l.length ≤ 12) ∧
    (∃ (s : State) (x : TxSection) (y : TxSlot) (j : Nat) (k : Nat) (a : BitVec 48) (l : Launch), s.held = false ∧ s.roleJob 2 = some j ∧ s.txLink x.antenna.toNat = some (k, a) ∧ l = (s.launchOf x j k a).1 ∧ 0 < s.toLaunch l ∧ (s.fhp (linkPort k)).launch.length < 4096 ∧ s.txSlotOf l.idx = some y) ∧
    (∃ (s : State) (x : TxSection) (j : Nat) (k : Nat) (a : BitVec 48), s.held = false ∧ s.roleJob 2 = some j ∧ s.txLink x.antenna.toNat = some (k, a) ∧ 0 ≤ s.toLaunch (s.launchOf x j k a).1 ∧ 4096 ≤ (s.fhp (linkPort k)).launch.length) ∧
    (∃ (s : State) (x : TxSection) (y : TxSlot) (j : Nat) (k : Nat) (a : BitVec 48) (l : Launch), s.held = false ∧ s.roleJob 2 = some j ∧ s.txLink x.antenna.toNat = some (k, a) ∧ l = (s.launchOf x j k a).1 ∧ s.toLaunch l < 0 ∧ s.txSlotOf l.idx = some y ∧ l.range.open_ y.late = true) ∧
    (∃ (s : State) (l : LaunchRef) (e : Launch), s.held = false ∧ (s.fhp l.port).busy = false ∧ s.standby = false ∧ (s.fhp l.port).ptp = [] ∧ s.firstLaunch ((s.fhp l.port).launch.filter (fun e => decide (s.toLaunch e ≤ 0))) = some e ∧ s.fhCredit l.port e.job (s.frameLen l.port (4 + e.body.length)) = true) ∧
    (∃ (s : State) (l : LaunchRef) (x : TxSlot) (r : TxRange) (j : Nat), s.held = false ∧ (s.fhp l.port).busy = true ∧ s.standby = false ∧ s.roleJob 2 = some j ∧ s.txSlotOf l.idx.toNat = some x ∧ r = ⟨l.antenna.toNat, l.sym.val, l.prb0.toNat, l.nprb.toNat⟩ ∧ r.open_ x.queued = true ∧ r.open_ x.late = true ∧ launchNs x.start (s.g Reg.JOB_TX_CFG_SCS) l.sym.val (s.g Reg.JOB_TX_TIME_LEAD) ≤ (s.dom s.txDom).nanos) ∧
    (∃ (s : State) (l : LaunchRef), s.held = false ∧ s.standby = true) ∧
    (∃ (s : State) (p : Fin 4), s.held = false ∧ (s.fhp p).ptp = [] ∧ (s.fhp p).launch = [] ∧ s.nextCtl p = none) ∧
    (∃ (s : State) (p : Fin 4) (c : CtlOut), s.held = false ∧ s.standby = false ∧ (s.fhp p).ptp = [] ∧ (s.fhp p).launch = [] ∧ s.nextCtl p = some c) ∧
    (∃ (s : State) (x : FhIn) (p : Fin 4), s.held = false ∧ p = linkPort x.link.val ∧ s.boot.phase = .started ∧ (s.g (Reg.FH_Pp_STS_LINK_UP p)).testBit (x.link.val % 4) = true ∧ s.dropWhy x ≠ 0) :=
  ⟨⟨[true, false, true, true], [true, false, true, true], by decide +kernel⟩,
   ⟨txOn [txS0], txSec 1, txS0, 1, 2, 77, ((txOn [txS0]).launchOf (txSec 1) 1 2 77).1, by decide +kernel⟩,
   ⟨txFull, txSec 1, 1, 2, 77, by decide +kernel⟩,
   ⟨txLate, txSec 1, txS0, 1, 2, 77, (txLate.launchOf (txSec 1) 1 2 77).1, by decide +kernel⟩,
   ⟨txDue, ⟨0, 10002, 5, 1, 0, 1⟩, launchE, by decide +kernel⟩,
   ⟨txBusy, ⟨0, 10002, 5, 1, 0, 1⟩, txS, ⟨5, 1, 0, 1⟩, 1, by decide +kernel⟩,
   ⟨standing, ⟨0, 10002, 5, 1, 0, 1⟩, by decide +kernel⟩,
   ⟨txBusy, 0, by decide +kernel⟩,
   ⟨owdQ, 0, owdC, by decide +kernel⟩,
   ⟨txBusy, fhIn0, 0, by decide +kernel⟩⟩

theorem witness_FronthaulFramesLaunchAndAnswer_2 :
    (∃ (s : State) (x : FhIn), s.held = false ∧ (s.boot.phase ≠ .started ∨ (s.g (Reg.FH_Pp_STS_LINK_UP (linkPort x.link.val))).testBit (x.link.val % 4) = false ∨ s.dropWhy x = 0)) ∧
    (∃ (s : State) (o : OwdMsg), s.held = false ∧ s.boot.phase = .started ∧ (s.g (Reg.FH_Pp_STS_LINK_UP (linkPort o.link.val))).testBit (o.link.val % 4) = true ∧ o.act.toNat = 0 ∧ (s.fhp (linkPort o.link.val)).busy = true) ∧
    (∃ (s : State) (o : OwdMsg), s.held = false ∧ s.boot.phase = .started ∧ (s.g (Reg.FH_Pp_STS_LINK_UP (linkPort o.link.val))).testBit (o.link.val % 4) = true ∧ o.act.toNat = 1) ∧
    (∃ (s : State) (o : OwdMsg) (w : Owd), s.held = false ∧ s.boot.phase = .started ∧ (s.g (Reg.FH_Pp_STS_LINK_UP (linkPort o.link.val))).testBit (o.link.val % 4) = true ∧ o.act.toNat = 5 ∧ (s.fhp (linkPort o.link.val)).busy = true ∧ s.fh.owd.find? (fun w => w.link == o.link.val && w.addr == o.src && w.id == o.id.toNat) = some w) ∧
    (∃ (s : State) (o : OwdMsg), s.held = false ∧ s.boot.phase = .started ∧ (s.g (Reg.FH_Pp_STS_LINK_UP (linkPort o.link.val))).testBit (o.link.val % 4) = true ∧ o.act.toNat = 3 ∧ (s.fhp (linkPort o.link.val)).busy = true) ∧
    (∃ (s : State) (o : OwdMsg), s.held = false ∧ s.boot.phase = .started ∧ (s.g (Reg.FH_Pp_STS_LINK_UP (linkPort o.link.val))).testBit (o.link.val % 4) = true ∧ o.act.toNat = 4 ∧ (s.fhp (linkPort o.link.val)).busy = true) ∧
    (∃ (s : State) (o : OwdMsg) (n : Nat), n = linkPort o.link.val ∧ s.held = false ∧ s.boot.phase = .started ∧ (s.g (Reg.FH_Pp_STS_LINK_UP n)).testBit (o.link.val % 4) = true) :=
  ⟨⟨txBusy, { fhIn0 with link := 5 }, by decide +kernel⟩,
   ⟨txBusy, owdM 0, by decide +kernel⟩,
   ⟨txBusy, owdM 1, by decide +kernel⟩,
   ⟨{ txBusy with fh := { txBusy.fh with owd := [⟨1, 8, 6, ⟨1, 2, 3⟩⟩] } }, owdM 5, ⟨1, 8, 6, ⟨1, 2, 3⟩⟩, by decide +kernel⟩,
   ⟨txBusy, owdM 3, by decide +kernel⟩,
   ⟨txBusy, owdM 4, by decide +kernel⟩,
   ⟨txBusy, owdM 7, 0, by decide +kernel⟩⟩

theorem witness_LabelsEpochsAndStepsAct_1 :
    (∃ (s : State) (f : Fin 6) (idx : BitVec 17) (l : List LabelEnc) (x : RxSlot), s.held = false ∧ s.rxOpen x ∧ x.idx = idx.toNat ∧ s.on Reg.JOB_TRN_CTL_PAUSE = false ∧ s.pastD x = false ∧ x.allocs.all (fun a => a.frond != f || a.done) = true) ∧
    (∃ (s : State) (f : Fin 6) (idx : BitVec 17) (w : LabelEnc) (x : RxSlot) (a : Alloc), s.held = false ∧ s.rxOpen x ∧ x.idx = idx.toNat ∧ s.on Reg.JOB_TRN_CTL_PAUSE = false ∧ s.pastD x = false ∧ x.allocs.all (fun a => a.frond != f || a.done) = true ∧ a ∈ x.allocs ∧ a.index = w.index.toNat ∧ a.frond = f ∧ a.crcOk = true ∧ a.labelled = 0 ∧ (s.dueGroups x).any (fun g => (x.members g).any (fun m => m.index == a.index)) = true ∧ (s.fr f).thr.queue.length < 32 ∧ (s.fr f).thr.queue.all (fun c => cfield c 0 0 2 != 0) = true) ∧
    (∃ (s : State) (f : Fin 6) (idx : BitVec 17) (w : LabelEnc), s.held = false ∧ (s.on Reg.JOB_TRN_CTL_PAUSE = true ∨ (s.fr f).thr.queue.any (fun c => cfield c 0 0 2 == 0) = true ∨ 32 ≤ (s.fr f).thr.queue.length)) ∧
    (∃ (s : State) (w : LabelRec) (x : RxSlot) (r : List Byte), s.held = false ∧ s.rxOpen x ∧ x.idx = w.idx.toNat ∧ s.on Reg.JOB_TRN_CTL_PAUSE = false ∧ s.heldOut x.idx = false ∧ s.pastD x = false ∧ (s.dueGroups x).contains w.group = true ∧ (x.members w.group).any (fun m => m.crcOk) = true ∧ (x.members w.group).all (fun m => m.done && (!m.crcOk || m.labelled == 2) && m.labelled != 3) = true ∧ ((s.dueGroups x).filter (fun g => decide (g < w.group))).all (fun g => labelOver (x.members g)) = true ∧ r = s.siloRecord x w s.rseq ∧ r.length ≤ s.siloSlot false ∧ s.snapHolds s.rseq = false ∧ 4 * r.length ≤ s.siloCredit) ∧
    (∃ (s : State) (w : LabelRec) (x : RxSlot) (r : List Byte), s.held = false ∧ s.rxOpen x ∧ x.idx = w.idx.toNat ∧ s.on Reg.JOB_TRN_CTL_PAUSE = false ∧ s.heldOut x.idx = true ∧ s.pastD x = false ∧ (s.dueGroups x).contains w.group = true ∧ (x.members w.group).any (fun m => m.crcOk) = true ∧ (x.members w.group).all (fun m => m.done && (!m.crcOk || m.labelled == 2) && m.labelled != 3) = true ∧ ((s.dueGroups x).filter (fun g => decide (g < w.group))).all (fun g => labelOver (x.members g)) = true ∧ r = s.siloRecord x w s.trn.heldSeq ∧ r.length ≤ s.siloSlot true ∧ s.g Reg.JOB_TRN_HRING_NHREC ≠ 0 ∧ 4 * r.length ≤ s.siloCredit) ∧
    (∃ (s : State) (w : LabelRec) (x : RxSlot) (r : List Byte), s.held = false ∧ s.rxOpen x ∧ x.idx = w.idx.toNat ∧ s.on Reg.JOB_TRN_CTL_PAUSE = false ∧ s.heldOut x.idx = false ∧ s.pastD x = false ∧ (s.dueGroups x).contains w.group = true ∧ (x.members w.group).any (fun m => m.crcOk) = true ∧ (x.members w.group).all (fun m => m.done && (!m.crcOk || m.labelled == 2) && m.labelled != 3) = true ∧ ((s.dueGroups x).filter (fun g => decide (g < w.group))).all (fun g => labelOver (x.members g)) = true ∧ r = s.siloRecord x w s.rseq ∧ (s.siloSlot false < r.length ∨ (s.snapHolds s.rseq = false ∧ s.siloCredit < 4 * r.length))) ∧
    (∃ (s : State) (w : LabelRec) (x : RxSlot) (r : List Byte), s.held = false ∧ s.rxOpen x ∧ x.idx = w.idx.toNat ∧ s.on Reg.JOB_TRN_CTL_PAUSE = false ∧ s.heldOut x.idx = false ∧ s.pastD x = false ∧ (s.dueGroups x).contains w.group = true ∧ (x.members w.group).any (fun m => m.crcOk) = true ∧ (x.members w.group).all (fun m => m.done && (!m.crcOk || m.labelled == 2) && m.labelled != 3) = true ∧ ((s.dueGroups x).filter (fun g => decide (g < w.group))).all (fun g => labelOver (x.members g)) = true ∧ r = s.siloRecord x w s.rseq ∧ r.length ≤ s.siloSlot false ∧ s.snapHolds s.rseq = true) ∧
    (∃ (s : State) (n : Nat), s.held = false ∧ s.trains = true ∧ s.trn.running = false ∧ n = min s.rseq (s.g Reg.JOB_TRN_TRING_NREC - s.g Reg.JOB_TRN_RES)) ∧
    (∃ (s : State) (lo : Nat) (n : Nat) (b : Nat) (q : List Nat), s.held = false ∧ s.trainsOn = true ∧ s.trn.running = true ∧ s.trn.snap = some (lo, n) ∧ b = s.g Reg.JOB_TRN_CFG_BATCH ∧ s.trn.draw + b ≤ n ∧ q = (List.range b).map (fun i => lo + perm (s.trn.draw + i) n (s.g Reg.JOB_TRN_SEED) s.trn.epoch) ∧ (∀ k ∈ q, s.recBad false k = 0)) ∧
    (∃ (s : State) (j : Nat) (k : Nat) (f : Fin 6), s.roleJob 3 = some j ∧ s.heldFronds j = [f] ∧ s.trnRecords = [k]) :=
  ⟨⟨trnLab 0 3, 0, 10000, [labE], labS 0, by decide +kernel⟩,
   ⟨trnLab 0 3, 0, 10000, labE, labS 0, labA 0, by decide +kernel⟩,
   ⟨(trnLab 0 3).p Reg.JOB_TRN_CTL_PAUSE 1, 0, 10000, labE, by decide +kernel⟩,
   ⟨trnLab 2 3, labW, labS 2, labR 3, ⟨by decide +kernel, by decide +kernel, by decide +kernel, by decide +kernel, by decide +kernel, by decide +kernel, by decide +kernel, by decide +kernel, by decide +kernel, by decide +kernel, rfl, by decide +kernel, by decide +kernel, by decide +kernel⟩⟩,
   ⟨trnHeld, { labW with idx := 10047 }, labSH, labRH, ⟨by decide +kernel, by decide +kernel, by decide +kernel, by decide +kernel, by decide +kernel, by decide +kernel, by decide +kernel, by decide +kernel, by decide +kernel, by decide +kernel, rfl, by decide +kernel, by decide +kernel, by decide +kernel⟩⟩,
   ⟨trnLab 2 0, labW, labS 2, labR 0, ⟨by decide +kernel, by decide +kernel, by decide +kernel, by decide +kernel, by decide +kernel, by decide +kernel, by decide +kernel, by decide +kernel, by decide +kernel, by decide +kernel, rfl, by decide +kernel⟩⟩,
   ⟨trnSnap, labW, labS 2, labRS, ⟨by decide +kernel, by decide +kernel, by decide +kernel, by decide +kernel, by decide +kernel, by decide +kernel, by decide +kernel, by decide +kernel, by decide +kernel, by decide +kernel, rfl, by decide +kernel, by decide +kernel⟩⟩,
   ⟨trnOn.p Reg.JOB_TRN_RSEQ_LO 40, 40, by decide +kernel⟩,
   ⟨trnOn.p Reg.JOB_TRN_CFG_BATCH 0 |> fun s => { s with trn := { s.trn with running := true, snap := some (3, 4), w := [0x3F800000], mom1 := [0], mom2 := [0] } }, 3, 4, 0, [], by decide +kernel⟩,
   ⟨trnScl, 2, 5, 3, by decide +kernel⟩⟩

theorem witness_LabelsEpochsAndStepsAct_2 :
    (∃ (s : State) (lo : Nat) (n : Nat), s.held = false ∧ s.trainsOn = true ∧ s.trn.running = true ∧ s.trn.snap = some (lo, n) ∧ n < s.trn.draw + s.g Reg.JOB_TRN_CFG_BATCH ∧ s.trn.draw ≤ n) ∧
    (∃ (s : State) (a : Nat) (b : List Byte), s.held = false ∧ s.trains = true ∧ a = s.ckptArea (s.trn.ckpt % 2) ∧ b = s.ckptBody ++ (Config.sha384 s.ckptBody ++ zeros 48).take 48) :=
  ⟨⟨{ trnOn with trn := { trnOn.trn with running := true, snap := some (3, 4) } }, 3, 4, by decide +kernel⟩,
   ⟨trnCk, trnCk.ckptArea (trnCk.trn.ckpt % 2), (trnCk.ckptBody ++ (Config.sha384 trnCk.ckptBody ++ zeros 48).take 48), ⟨by decide +kernel, by decide +kernel, rfl, rfl⟩⟩⟩

theorem witness_CandidatesPromoteRollBackAndPersist_1 :
    (∃ (s : State) (r : BitVec 2), s.held = false ∧ s.trains = true ∧ s.trn.gate = none ∧ s.trn.pending = none ∧ s.trn.watch = none ∧ s.pair.waiting = false ∧ r = 1) ∧
    (∃ (s : State) (e : List (Byte × Byte)), s.held = false ∧ s.trains = true ∧ s.trn.gate = none ∧ s.trn.pending = none ∧ s.trn.watch = none ∧ s.pair.waiting = false) ∧
    (∃ (s : State) (n : Nat), s.held = false ∧ s.trainsOn = true ∧ s.trn.cand.isSome = true ∧ s.trn.gate = none ∧ s.trn.pending = none ∧ s.trn.watch = none ∧ s.pair.waiting = false ∧ n = min (s.trn.heldSeq - s.trn.heldBase) (s.g Reg.JOB_TRN_HRING_NHREC) ∧ 2000 ≤ n) ∧
    (∃ (s : State) (n : Nat), s.held = false ∧ n = min (s.trn.heldSeq - s.trn.heldBase) (s.g Reg.JOB_TRN_HRING_NHREC) ∧ n < 2000) ∧
    (∃ (s : State) (l : List GateRec) (c : CandSub) (i : GateFigures) (k : GateFigures), s.held = false ∧ s.trains = true ∧ s.trn.gate = some l ∧ s.trn.cand = some c ∧ s.hasStandby = false ∧ i = sumFigures (l.map (fun g => g.inc)) ∧ k = sumFigures (l.map (fun g => g.cand))) ∧
    (∃ (s : State), s.held = false ∧ (s.trains = false ∨ s.trn.gate = none)) ∧
    (∃ (s : State) (r : BitVec 2) (p : Nat) (e : Nat), s.rxRuns = true ∧ s.trn.pending = some (.promote p (.models r)) ∧ p ≤ e) ∧
    (∃ (s : State) (q : Bool) (c : Bool) (w : Watch) (e : Nat), s.trn.pending = some (.rollback q c) ∧ s.trn.watch = some w ∧ w.edge = none ∧ w.mset < 2 ^ 32) ∧
    (∃ (s : State) (w : Watch), s.held = false ∧ s.trn.watch = some w ∧ s.rxNow < w.start + s.watchNs) ∧
    (∃ (s : State) (w : Watch), s.held = false ∧ s.trn.watch = some w ∧ s.trn.pending = none ∧ w.start + s.watchNs ≤ s.rxNow) :=
  ⟨⟨trnOn, 1, by decide +kernel⟩,
   ⟨trnOn, [(1, 2)], by decide +kernel⟩,
   ⟨{ (trnOn.p Reg.JOB_TRN_HRING_NHREC 2000) with trn := { trnOn.trn with cand := some (.models 1), heldSeq := 2005 } }, 2000, by decide +kernel⟩,
   ⟨trnOn, 0, by decide +kernel⟩,
   ⟨{ trnOn with trn := { trnOn.trn with cand := some (.models 1), gate := some [gRec] } }, [gRec], .models 1, gRec.inc, gRec.cand, by decide +kernel⟩,
   ⟨trnOn, by decide +kernel⟩,
   ⟨{ rxOn with trn := { rxOn.trn with pending := some (.promote 7 (.models 1)) } }, 1, 7, 9, by decide +kernel⟩,
   ⟨{ rxOn with trn := { rxOn.trn with pending := some (.rollback true false), watch := some ⟨3, 2, none, 6⟩ } }, true, false, ⟨3, 2, none, 6⟩, 9, by decide +kernel⟩,
   ⟨{ trnOn with trn := { trnOn.trn with watch := some ⟨50000000000, 2, none, 6⟩ } }, ⟨50000000000, 2, none, 6⟩, by decide +kernel⟩,
   ⟨atNs 0 ({ trnOn with trn := { trnOn.trn with watch := some ⟨3, 2, none, 6⟩ } }.p Reg.JOB_TRN_WATCH_WATCH 1), ⟨3, 2, none, 6⟩, by decide +kernel⟩⟩

theorem witness_CandidatesPromoteRollBackAndPersist_2 :
    (∃ (s : State) (g : Byte) (v : Word) (w : Watch), s.held = false ∧ s.agentJob g.toNat = none ∧ s.mayWrite g.toNat .fwmg = true ∧ v.getLsbD 0 = true ∧ s.trn.watch = some w ∧ s.trn.pending = none ∧ s.hasStandby = false) ∧
    (∃ (s : State) (g : Byte) (v : Word) (p : Nat) (c : CandSub), s.held = false ∧ s.agentJob g.toNat = none ∧ s.mayWrite g.toNat .fwmg = true ∧ v.getLsbD 0 = true ∧ s.trn.watch = none ∧ s.trn.pending = some (.promote p c)) ∧
    (∃ (s : State) (g : Byte) (v : Word), s.held = false ∧ s.agentJob g.toNat = none ∧ s.mayWrite g.toNat .fwmg = true ∧ v.getLsbD 0 = true ∧ v.toNat < 4 ∧ s.trn.watch = none ∧ s.trn.pending = none ∧ s.pair.waiting = false) ∧
    (∃ (s : State) (m : Nat) (d : Nat) (b : Nat) (n : Nat) (im : Image), s.held = false ∧ s.trn.settled = some (m, d) ∧ s.image = some im ∧ s.boot.flashOk = true ∧ s.on Reg.JOB_TRN_PERSIST_EN = true ∧ s.trn.writing = none ∧ s.trn.persisted ≠ some m ∧ s.g Reg.JOB_TRN_PERSIST_MIN_INT * 60000000000 ≤ s.ticks - s.trn.persistAt ∧ b = s.ckptBase s.persistHalf ∧ n = s.settledBody.length) ∧
    (∃ (s : State) (h : Nat) (m : Nat), s.held = false ∧ s.trn.writing = some (h, m)) :=
  ⟨⟨{ trnOn with trn := { trnOn.trn with watch := some ⟨3, 2, none, 6⟩ } }, 0x70, 3, ⟨3, 2, none, 6⟩, by decide +kernel⟩,
   ⟨{ trnOn with trn := { trnOn.trn with pending := some (.promote 7 (.models 1)) } }, 0x70, 1, 7, .models 1, by decide +kernel⟩,
   ⟨trnOn, 0x70, 1, by decide +kernel⟩,
   ⟨trnSettled, 6, 77, trnSettled.ckptBase trnSettled.persistHalf, trnSettled.settledBody.length, img0, ⟨by decide +kernel, by decide +kernel, by decide +kernel, by decide +kernel, by decide +kernel, by decide +kernel, by decide +kernel, by decide +kernel, rfl, rfl⟩⟩,
   ⟨{ trnOn with flashSize := 0x4000000, trn := { trnOn.trn with writing := some (1, 6) } }, 1, 6, by decide +kernel⟩⟩

theorem witness_RhizomePortsSendForwardAndMeasure_1 :
    (∃ (s : State) (fr : RzFrame), s.held = false ∧ s.rzLive fr.port = true ∧ s.rzDropped fr = true) ∧
    (∃ (s : State) (fr : RzFrame), s.held = false ∧ (s.rzLive fr.port = false ∨ s.rzDropped fr = false)) ∧
    (∃ (s : State) (fr : RzFrame) (p : Fin 4), s.held = false ∧ s.rzLive fr.port = true ∧ s.rzDropped fr = false ∧ 3 < fr.kind.toNat ∧ fr.kind.toNat < 0x30 ∧ fr.kind ≠ 0x10 ∧ fr.kind ≠ 0x23 ∧ fr.bc = false ∧ fr.dst.toNat ≠ s.selfId ∧ s.rzRoute fr.dst.toNat = some p ∧ fr.hops ≠ 0 ∧ s.rzUp p = true ∧ (s.rzp p).busy = true) ∧
    (∃ (s : State) (fr : RzFrame), s.held = false ∧ s.rzLive fr.port = true ∧ s.rzDropped fr = false ∧ 3 < fr.kind.toNat ∧ fr.kind.toNat < 0x30 ∧ fr.bc = false ∧ fr.dst.toNat ≠ s.selfId ∧ (s.rzRoute fr.dst.toNat = none ∨ fr.hops = 0)) ∧
    (∃ (s : State) (fr : RzFrame), s.held = false ∧ s.rzLive fr.port = true ∧ fr.kind = 1 ∧ rzBad fr = false) ∧
    (∃ (s : State) (fr : RzFrame), s.held = false ∧ s.rzLive fr.port = true ∧ s.rzDropped fr = false ∧ fr.kind = 2 ∧ (s.rzp fr.port).busy = true) ∧
    (∃ (s : State) (fr : RzFrame) (a : FullTime) (l : List Nat), s.held = false ∧ s.rzLive fr.port = true ∧ s.rzDropped fr = false ∧ fr.kind = 3 ∧ (s.rzp fr.port).t1 = some a ∧ l = (linkDelay (fullUnits a) (timeUnits fr.payload 0) (timeUnits fr.payload 14) (fullUnits (s.dom s.groupDom).full) :: (s.rzp fr.port).delays).take 16) ∧
    (∃ (s : State) (p : Fin 4), s.held = false ∧ s.rzUp p = true ∧ (s.rzp p).busy = true) ∧
    (∃ (s : State) (p : Fin 4), s.held = false ∧ s.rzUp p = true) ∧
    (∃ (s : State) (p : Fin 4), s.held = false ∧ s.rzUp p = false ∧ s.boot.phase ≠ .safe ∧ s.g Reg.PWR_STS_STATE ≠ 2 ∧ s.rzRole p ≠ 0 ∧ s.linkInUse (.rz p) = true) :=
  ⟨⟨rzOn, { (rzF 0x20) with ver := 2 }, by decide +kernel⟩,
   ⟨rzOn, rzF 0x20, by decide +kernel⟩,
   ⟨rzOn, { (rzF 0x20) with dst := 3 }, 2, by decide +kernel⟩,
   ⟨rzOn, { (rzF 0x20) with hops := 0, dst := 3 }, by decide +kernel⟩,
   ⟨rzOn, { (rzF 1) with payload := [1, 2, 3, 4, 5, 6, 3, 0, 9, 0, 0, 0], port := 2 }, by decide +kernel⟩,
   ⟨rzOn, rzF 2, by decide +kernel⟩,
   ⟨rzOn, { (rzF 3) with payload := timeBytes ⟨5, 300, 0⟩ ++ timeBytes ⟨5, 310, 0⟩ }, ⟨5, 100, 0⟩, [linkDelay (fullUnits ⟨5, 100, 0⟩) (fullUnits ⟨5, 300, 0⟩) (fullUnits ⟨5, 310, 0⟩) (fullUnits rzOn.domA.full), 7], by decide +kernel⟩,
   ⟨rzOn, 2, by decide +kernel⟩,
   ⟨rzOn, 2, by decide +kernel⟩,
   ⟨rzOn.p (Reg.RZ_Pp_STS_UP 3) 0, 3, by decide +kernel⟩⟩

theorem witness_RhizomePortsSendForwardAndMeasure_2 :
    (∃ (s : State) (p : Fin 4) (up : Bool), s.held = false ∧ s.rzUp p = up) ∧
    (∃ (s : State) (p : Fin 4) (fr : RzFrame) (r : List RzFrame), s.held = false ∧ s.rzUp p = true ∧ (s.rzp p).q1 = fr :: r) ∧
    (∃ (s : State) (p : Fin 4) (fr : RzFrame) (r : List RzFrame), s.held = false ∧ s.rzUp p = true ∧ (s.rzp p).q1 = [] ∧ ((s.rzp p).q2 = fr :: r ∨ ((s.rzp p).q2 = [] ∧ (s.rzp p).q3 = fr :: r))) ∧
    (∃ (s : State) (p : Fin 4), s.held = false ∧ (s.rzp p).q1 = [] ∧ (s.rzp p).q2 = [] ∧ (s.rzp p).q3 = [] ∧ s.nextRed p = none) ∧
    (∃ (s : State) (p : Fin 4) (j : Fin 16) (c : Nat × RzFrame), s.held = false ∧ s.rzUp p = true ∧ (s.rzp p).busy = false ∧ (s.rzp p).q1 = [] ∧ (s.rzp p).q2 = [] ∧ (s.rzp p).q3 = [] ∧ s.nextRed p = some c) ∧
    (∃ (s : State) (p : Fin 4) (j : Fin 16) (c : CtlOut), s.held = false ∧ (s.fhp p).busy = false ∧ s.standby = false ∧ (s.fhp p).ptp = [] ∧ (s.fhp p).launch = [] ∧ s.nextCtl p = some c) ∧
    (∃ (s : State) (p : Fin 4) (j : Fin 16) (r : Bool), s.held = false ∧ (s.rzp p).busy = true ∧ (s.fhp p).busy = true) :=
  ⟨⟨rzOn, 3, true, by decide +kernel⟩,
   ⟨rzQ, 1, rzF 0x10, [rzF 1], by decide +kernel⟩,
   ⟨rzQ, 2, rzF 0x14, [], by decide +kernel⟩,
   ⟨rzQ, 3, by decide +kernel⟩,
   ⟨rzQ4, 1, 0, (16, rzF 0x30), by decide +kernel⟩,
   ⟨{ owdQ with fh := { (owdQ.modFhp 0 (fun p => { p with busy := false })).fh with owd := [] } }, 0, 0, owdC, by decide +kernel⟩,
   ⟨owdQ.modRzp 0 (fun p => { p with busy := true }), 0, 0, true, by decide +kernel⟩⟩

theorem witness_GroupMembershipActs_1 :
    (∃ (s : State) (p : Fin 4), s.held = false ∧ s.leads = true ∧ s.treePorts.contains p = true ∧ s.rzUp p = true ∧ (s.rzp p).busy = true) ∧
    (∃ (s : State), s.held = false ∧ s.leads = false) ∧
    (∃ (s : State) (fr : RzFrame), s.held = false ∧ s.rzLive fr.port = true ∧ s.rzDropped fr = false ∧ fr.kind = 0x10 ∧ (fr.bc = true ∨ fr.dst.toNat = s.selfId) ∧ s.leads = false ∧ (s.isMember = false ∨ fr.src.toNat = s.g Reg.RZ_GRP_LEAD_LEADER)) ∧
    (∃ (s : State) (fr : RzFrame), s.held = false ∧ s.rzLive fr.port = true ∧ s.rzDropped fr = false ∧ fr.kind = 0x10 ∧ (fr.bc = true ∨ fr.dst.toNat = s.selfId) ∧ s.leads = true ∧ fr.src.toNat < s.selfId ∧ s.grp.edges = []) ∧
    (∃ (s : State) (fr : RzFrame), s.held = false ∧ s.rzLive fr.port = true ∧ s.rzDropped fr = false ∧ fr.kind = 0x11 ∧ (fr.bc = true ∨ fr.dst.toNat = s.selfId) ∧ s.leads = true ∧ fr.payload = s.record ∧ s.grpState = 4 ∧ (sx 32 (s.g Reg.RZ_GRP_OFS)).natAbs ≤ 800 ∧ (s.det = true ∨ s.nextMembers.length < 64)) ∧
    (∃ (s : State) (fr : RzFrame) (p : Fin 4), s.held = false ∧ s.rzLive fr.port = true ∧ s.rzDropped fr = false ∧ fr.kind = 0x11 ∧ (fr.bc = true ∨ fr.dst.toNat = s.selfId) ∧ s.leads = true ∧ byteAt fr.payload 26 ≠ 4 ∧ s.rzRoute fr.src.toNat = some p ∧ s.rzUp p = true ∧ (s.rzp p).busy = true) ∧
    (∃ (s : State) (fr : RzFrame), s.held = false ∧ s.rzLive fr.port = true ∧ s.rzDropped fr = false ∧ fr.kind = 0x12 ∧ (fr.bc = true ∨ fr.dst.toNat = s.selfId)) ∧
    (∃ (s : State) (fr : RzFrame), s.held = false ∧ s.rzLive fr.port = true ∧ s.rzDropped fr = false ∧ fr.kind = 0x13 ∧ (fr.bc = true ∨ fr.dst.toNat = s.selfId)) ∧
    (∃ (s : State) (fr : RzFrame), s.held = false ∧ s.rzLive fr.port = true ∧ s.rzDropped fr = false ∧ fr.kind = 0x14 ∧ (fr.bc = true ∨ fr.dst.toNat = s.selfId) ∧ (s.dom s.groupDom).nanos < (memOf fr.payload).sec * 1000000000 + (memOf fr.payload).ns) ∧
    (∃ (s : State) (fr : RzFrame), s.held = false ∧ s.rzLive fr.port = true ∧ s.rzDropped fr = false ∧ fr.kind = 0x14 ∧ (fr.bc = true ∨ fr.dst.toNat = s.selfId) ∧ (memOf fr.payload).sec * 1000000000 + (memOf fr.payload).ns ≤ (s.dom s.groupDom).nanos ∧ (memOf fr.payload).fence.any (fun f => f.1 == s.selfId) = true) :=
  ⟨⟨leading, 2, by decide +kernel⟩,
   ⟨rzOn, by decide +kernel⟩,
   ⟨joined, { (bcF 0x10) with src := 0 }, by decide +kernel⟩,
   ⟨leading, { (bcF 0x10) with src := 0 }, by decide +kernel⟩,
   ⟨leading, { (rzF 0x11) with payload := leading.record }, ⟨by decide +kernel, by decide +kernel, by simp only [State.rzDropped, rzBad, record_length]; decide +kernel, by decide +kernel, by decide +kernel, by decide +kernel, rfl, by decide +kernel, by decide +kernel, by decide +kernel⟩⟩,
   ⟨leading, { (rzF 0x11) with payload := zeros 32 }, 2, by decide +kernel⟩,
   ⟨joined, { (rzF 0x12) with payload := [0x80] }, by decide +kernel⟩,
   ⟨joined, rzF 0x13, by decide +kernel⟩,
   ⟨joined, { (bcF 0x14) with payload := memPayload ⟨6, 0, [7], [(3, 1)], 7, 0⟩ [(3, 1)] }, by decide +kernel⟩,
   ⟨joined, { (bcF 0x14) with payload := memPayload ⟨1, 0, [7], [(1, 1)], 7, 0⟩ [(1, 1)] }, by decide +kernel⟩⟩

theorem witness_GroupMembershipActs_2 :
    (∃ (s : State) (fr : RzFrame), s.held = false ∧ s.rzLive fr.port = true ∧ s.rzDropped fr = false ∧ fr.kind = 0x15 ∧ (fr.bc = true ∨ fr.dst.toNat = s.selfId) ∧ s.leads = true ∧ s.nextMembers.contains fr.src.toNat = true) ∧
    (∃ (s : State) (fr : RzFrame), s.held = false ∧ s.rzLive fr.port = true ∧ s.rzDropped fr = false ∧ fr.kind = 0x16 ∧ (fr.bc = true ∨ fr.dst.toNat = s.selfId) ∧ s.leads = true ∧ s.grp.members.contains fr.src.toNat = true ∧ fr.payload = s.record ∧ s.grpState = 4 ∧ (sx 32 (s.g Reg.RZ_GRP_OFS)).natAbs ≤ 800) ∧
    (∃ (s : State) (fr : RzFrame), s.held = false ∧ s.rzLive fr.port = true ∧ s.rzDropped fr = false ∧ fr.kind = 0x16 ∧ (fr.bc = true ∨ fr.dst.toNat = s.selfId) ∧ s.leads = true ∧ s.grp.members.contains fr.src.toNat = true ∧ s.nextMembers.contains fr.src.toNat = true ∧ byteAt fr.payload 26 ≠ 4) ∧
    (∃ (s : State), s.held = false ∧ s.inRun = true ∧ s.groupSect.isSome = true ∧ s.valid s.groupDom = true ∧ s.isMember = false ∧ s.grp.beaconAt - 1 + 1000000000 ≤ s.ticks) ∧
    (∃ (s : State) (l : List (Nat × Nat)), s.held = false ∧ s.inRun = true ∧ s.groupSect.isSome = true ∧ s.valid s.groupDom = true ∧ s.isMember = true ∧ s.leads = false ∧ s.grp.edges = [] ∧ s.grp.beaconAt - 1 + (s.grp.members.idxOf s.selfId + 1) * 300000000 ≤ s.ticks ∧ l = (s.grp.members.filter (fun i => decide (i < s.selfId))).map (fun i => (i, 5)) ∧ l ≠ []) ∧
    (∃ (s : State), s.held = false ∧ (s.inRun = false ∨ s.leads = true ∨ s.ticks < s.grp.beaconAt - 1 + 300000000)) ∧
    (∃ (s : State) (p : Fin 4), s.held = false ∧ s.boot.phase = .started ∧ s.isMember = false ∧ s.groupSect.isSome = true ∧ s.valid s.groupDom = true ∧ s.grp.beaconAt ≠ 0 ∧ s.rzRoute (s.g Reg.RZ_GRP_LEAD_LEADER) = some p ∧ s.rzUp p = true ∧ (s.rzp p).busy = true) ∧
    (∃ (s : State), s.held = false ∧ (s.boot.phase ≠ .started ∨ s.isMember = true ∨ s.valid s.groupDom = false ∨ s.grp.beaconAt = 0)) ∧
    (∃ (s : State) (p : Fin 4), s.held = false ∧ s.leads = false ∧ s.isMember = true ∧ s.grpState = 4 ∧ (sx 32 (s.g Reg.RZ_GRP_OFS)).natAbs ≤ 800 ∧ s.rzRoute (s.g Reg.RZ_GRP_LEAD_LEADER) = some p ∧ s.rzUp p = true ∧ (s.rzp p).busy = true) ∧
    (∃ (s : State) (l : List (Nat × Nat)), s.held = false ∧ s.leads = true ∧ s.grpState = 4 ∧ (sx 32 (s.g Reg.RZ_GRP_OFS)).natAbs ≤ 800 ∧ s.grp.edges = [] ∧ l = (s.digestCount.filter (fun d => decide (2 ≤ d.2.2))).map (fun d => (d.1, 4))) :=
  ⟨⟨leading, { (rzF 0x15) with payload := [2] }, by decide +kernel⟩,
   ⟨leading, { (rzF 0x16) with payload := leading.record }, ⟨by decide +kernel, by decide +kernel, by simp only [State.rzDropped, rzBad, record_length]; decide +kernel, by decide +kernel, by decide +kernel, by decide +kernel, by decide +kernel, rfl, by decide +kernel, by decide +kernel⟩⟩,
   ⟨leading, { (rzF 0x16) with payload := zeros 32 }, by decide +kernel⟩,
   ⟨{ valid0 rzOn with ticks := 2000000000 }, by decide +kernel⟩,
   ⟨{ valid0 joined with ticks := 2000000000 }, [(0, 5)], by decide +kernel⟩,
   ⟨rzOn, by decide +kernel⟩,
   ⟨valid0 { rzOn with grp := { rzOn.grp with beaconAt := 7 } }, 0, by decide +kernel⟩,
   ⟨joined, by decide +kernel⟩,
   ⟨joined, 0, by decide +kernel⟩,
   ⟨{ leading with grp := { leading.grp with digests := [(3, false, 1), (4, true, 0)] } }, [(3, 4)], by decide +kernel⟩⟩

theorem witness_GroupOperationsAct_1 :
    (∃ (s : State) (g : Byte) (f : Fin 6) (v : Word), s.held = false ∧ s.agentJob g.toNat = none ∧ s.mayWrite g.toNat .fw = true ∧ v = 1) ∧
    (∃ (s : State) (f : Fin 6) (w : List Word) (q : List (List Word)) (j : Nat) (k : Nat) (c : Instr), s.held = false ∧ (s.fr f).grp = w :: q ∧ s.jobOf f = some j ∧ s.frondRuns f = true ∧ opKind w = k ∧ (c, k) ∈ [(Instr.reduce f, 0), (.reduce f, 3), (.bcast f, 1), (.groupBarrier f, 2)] ∧ s.grpCheck f j w ≠ 0 ∧ s.plainJob j) ∧
    (∃ (s : State) (f : Fin 6) (w : List Word) (q : List (List Word)) (j : Nat) (n : Nat) (k : Nat) (c : Instr), (c, k) ∈ [(Instr.reduce f, 0), (.bcast f, 1)] ∧ s.held = false ∧ (s.fr f).grp = w :: q ∧ s.jobOf f = some j ∧ s.frondRuns f = true ∧ opKind w = k ∧ s.grpCheck f j w = 0 ∧ n = opLen w ∧ 0 < n ∧ s.poisoned (opAddr w 2) n = false ∧ cfield w 6 12 4 = 0 ∧ (opAddr w 3 + n ≤ opAddr w 7 ∨ opAddr w 7 + 32 ≤ opAddr w 3) ∧ s.setOf (opSlot w) = []) ∧
    (∃ (s : State) (f : Fin 6) (w : List Word) (q : List (List Word)) (j : Nat) (n : Nat), s.held = false ∧ (s.fr f).grp = w :: q ∧ s.jobOf f = some j ∧ s.frondRuns f = true ∧ opKind w = 2 ∧ s.grpCheck f j w = 0 ∧ s.poisoned (opAddr w 2) n = false ∧ cfield w 6 12 4 = 0 ∧ s.setOf (opSlot w) = []) ∧
    (∃ (s : State) (f : Fin 6) (w : List Word) (q : List (List Word)) (j : Nat) (n : Nat) (r : Nat) (l : List Nat) (p : Fin 4), s.held = false ∧ (s.fr f).grp = w :: q ∧ s.jobOf f = some j ∧ s.frondRuns f = true ∧ opKind w = 0 ∧ s.grpCheck f j w = 0 ∧ n = opLen w ∧ 0 < n ∧ n ≤ 8192 ∧ cfield w 0 4 1 = 0 ∧ s.poisoned (opAddr w 2) n = false ∧ cfield w 6 12 4 = 0 ∧ l = s.setOf (opSlot w) ∧ r = l.idxOf s.selfId ∧ 0 < r ∧ r < l.length ∧ kids r l.length = [] ∧ s.grp.ops = [] ∧ s.rzRoute (l.getD ((r - 1) / 4) 0) = some p ∧ s.rzUp p = true ∧ (s.rzp p).busy = true) ∧
    (∃ (s : State) (f : Fin 6) (w : List Word) (q : List (List Word)) (j : Nat) (n : Nat) (r : Nat) (l : List Nat) (p : Fin 4), s.held = false ∧ (s.fr f).grp = w :: q ∧ s.jobOf f = some j ∧ s.frondRuns f = true ∧ opKind w = 2 ∧ s.grpCheck f j w = 0 ∧ s.poisoned (opAddr w 2) n = false ∧ cfield w 6 12 4 = 0 ∧ l = s.setOf (opSlot w) ∧ r = l.idxOf s.selfId ∧ 0 < r ∧ r < l.length ∧ kids r l.length = [] ∧ s.grp.ops = [] ∧ s.rzRoute (l.getD ((r - 1) / 4) 0) = some p ∧ s.rzUp p = true ∧ (s.rzp p).busy = true) ∧
    (∃ (s : State) (f : Fin 6) (w : List Word) (q : List (List Word)) (j : Nat) (n : Nat) (i : Nat) (p : Fin 4), s.held = false ∧ (s.fr f).grp = w :: q ∧ s.jobOf f = some j ∧ s.frondRuns f = true ∧ opKind w = 1 ∧ s.grpCheck f j w = 0 ∧ n = opLen w ∧ 0 < n ∧ n ≤ 8192 ∧ s.poisoned (opAddr w 2) n = false ∧ cfield w 6 12 4 = 0 ∧ (opAddr w 3 + n ≤ opAddr w 7 ∨ opAddr w 7 + 32 ≤ opAddr w 3) ∧ s.setOf (opSlot w) = [s.selfId, i] ∧ i ≠ s.selfId ∧ s.grp.ops = [] ∧ s.rzRoute i = some p ∧ s.rzUp p = true ∧ (s.rzp p).busy = true) ∧
    (∃ (s : State) (fr : RzFrame) (j : Nat) (tag : Nat) (sl : Nat), s.held = false ∧ s.rzLive fr.port = true ∧ s.rzDropped fr = false ∧ fr.kind = 0x20 ∧ fr.bc = false ∧ fr.dst.toNat = s.selfId ∧ s.opKey fr = (j, tag, sl) ∧ (kids ((s.setOf sl).idxOf s.selfId) (s.setOf sl).length).contains ((s.setOf sl).idxOf fr.src.toNat) = true ∧ fr.tag.getLsbD 31 = false ∧ s.grp.ops = []) ∧
    (∃ (s : State) (fr : RzFrame) (j : Nat) (tag : Nat) (sl : Nat) (n : Nat) (f : Fin 6) (w : List Word) (own : List Byte), s.held = false ∧ s.rzLive fr.port = true ∧ s.rzDropped fr = false ∧ fr.kind = 0x20 ∧ fr.bc = false ∧ fr.dst.toNat = s.selfId ∧ s.opKey fr = (j, tag, sl) ∧ s.setOf sl = [s.selfId, fr.src.toNat] ∧ fr.src.toNat ≠ s.selfId ∧ fr.tag.getLsbD 31 = false ∧ s.grp.ops = [⟨j, tag, sl, some f, w, [⟨0, [(0, own)], false, none⟩], [], false, none, false⟩] ∧ opKind w = 0 ∧ cfield w 0 4 1 = 0 ∧ n = opLen w ∧ 0 < n ∧ n ≤ 8192 ∧ cfield w 6 12 4 = 0 ∧ own.length = n ∧ (opAddr w 3 + n ≤ opAddr w 7 ∨ opAddr w 7 + 32 ≤ opAddr w 3)) ∧
    (∃ (s : State) (fr : RzFrame) (j : Nat) (tag : Nat) (sl : Nat), s.held = false ∧ s.rzLive fr.port = true ∧ s.rzDropped fr = false ∧ fr.kind = 0x20 ∧ fr.bc = false ∧ fr.dst.toNat = s.selfId ∧ s.opKey fr = (j, tag, sl) ∧ (kids ((s.setOf sl).idxOf s.selfId) (s.setOf sl).length).contains ((s.setOf sl).idxOf fr.src.toNat) = true ∧ fr.tag.getLsbD 31 = true) :=
  ⟨⟨started, 0, 0, 1, by decide +kernel⟩,
   ⟨grpAt 0 [0x20], 0, [0x20], [], 0, 0, Instr.reduce 0, by decide +kernel⟩,
   ⟨grpAt 0 (gcmd 1 64), 0, gcmd 1 64, [], 0, 64, 1, Instr.bcast 0, by decide +kernel⟩,
   ⟨grpAt 0 (gcmd 2 0), 0, gcmd 2 0, [], 0, 0, by decide +kernel⟩,
   ⟨grpLeaf (gcmd 0 64), 0, gcmd 0 64, [], 0, 64, 1, [0, 1], 0, by decide +kernel⟩,
   ⟨grpLeaf (gcmd 2 0), 0, gcmd 2 0, [], 0, 0, 1, [0, 1], 0, by decide +kernel⟩,
   ⟨grpRoot (gcmd 1 64), 0, gcmd 1 64, [], 0, 64, 4, 2, by decide +kernel⟩,
   ⟨grpRoot (gcmd 0 64), gfr 0x20, 0, 0, gsl, by decide +kernel⟩,
   ⟨rootHas ⟨0, 0, gsl, some 0, gcmd 0 64, [⟨0, [(0, zeros 64)], false, none⟩], [], false, none, false⟩, { (gfr 0x20) with payload := (List.range 64).map (fun i => BitVec.ofNat 8 i) }, 0, 0, gsl, 64, 0, gcmd 0 64, zeros 64, by decide +kernel⟩,
   ⟨grpRoot (gcmd 0 64), { (gfr 0x20) with tag := (gfr 0x20).tag + 0x80000000 }, 0, 0, gsl, by decide +kernel⟩⟩

theorem witness_GroupOperationsAct_2 :
    (∃ (s : State) (fr : RzFrame) (j : Nat) (tag : Nat) (sl : Nat) (n : Nat) (f : Fin 6) (w : List Word), s.held = false ∧ s.rzLive fr.port = true ∧ s.rzDropped fr = false ∧ fr.kind = 0x21 ∧ fr.bc = false ∧ fr.dst.toNat = s.selfId ∧ s.opKey fr = (j, tag, sl) ∧ 0 < (s.setOf sl).idxOf s.selfId ∧ (s.setOf sl).idxOf s.selfId < (s.setOf sl).length ∧ (s.setOf sl).getD (((s.setOf sl).idxOf s.selfId - 1) / 4) 0 = fr.src.toNat ∧ kids ((s.setOf sl).idxOf s.selfId) (s.setOf sl).length = [] ∧ fr.tag.getLsbD 31 = false ∧ s.grp.ops = [⟨j, tag, sl, some f, w, [], [], false, none, false⟩] ∧ opKind w = 1 ∧ n = opLen w ∧ 0 < n ∧ n ≤ 8192 ∧ fr.payload.length = n ∧ cfield w 6 12 4 = 0 ∧ (opAddr w 3 + n ≤ opAddr w 7 ∨ opAddr w 7 + 32 ≤ opAddr w 3)) ∧
    (∃ (s : State) (fr : RzFrame) (j : Nat) (tag : Nat) (sl : Nat), s.held = false ∧ s.rzLive fr.port = true ∧ s.rzDropped fr = false ∧ fr.kind = 0x21 ∧ fr.bc = false ∧ fr.dst.toNat = s.selfId ∧ s.opKey fr = (j, tag, sl) ∧ 0 < (s.setOf sl).idxOf s.selfId ∧ (s.setOf sl).idxOf s.selfId < (s.setOf sl).length ∧ (s.setOf sl).getD (((s.setOf sl).idxOf s.selfId - 1) / 4) 0 = fr.src.toNat ∧ fr.tag.getLsbD 31 = false ∧ s.grp.ops = []) ∧
    (∃ (s : State) (fr : RzFrame) (j : Nat) (tag : Nat) (sl : Nat), s.held = false ∧ s.rzLive fr.port = true ∧ s.rzDropped fr = false ∧ fr.kind = 0x22 ∧ fr.bc = false ∧ fr.dst.toNat = s.selfId ∧ s.opKey fr = (j, tag, sl) ∧ (kids ((s.setOf sl).idxOf s.selfId) (s.setOf sl).length).contains ((s.setOf sl).idxOf fr.src.toNat) = true ∧ s.grp.ops = []) ∧
    (∃ (s : State) (fr : RzFrame) (j : Nat) (tag : Nat) (sl : Nat) (f : Fin 6) (w : List Word), s.held = false ∧ s.rzLive fr.port = true ∧ s.rzDropped fr = false ∧ fr.kind = 0x22 ∧ fr.bc = false ∧ fr.dst.toNat = s.selfId ∧ s.opKey fr = (j, tag, sl) ∧ s.setOf sl = [s.selfId, fr.src.toNat] ∧ fr.src.toNat ≠ s.selfId ∧ opKind w = 2 ∧ s.grp.ops = [⟨j, tag, sl, some f, w, [], [], false, none, false⟩]) ∧
    (∃ (s : State) (fr : RzFrame) (j : Nat) (tag : Nat) (sl : Nat) (f : Fin 6) (w : List Word) (a : List Nat), s.held = false ∧ s.rzLive fr.port = true ∧ s.rzDropped fr = false ∧ fr.kind = 0x23 ∧ fr.bc = true ∧ fr.dst.toNat = s.selfId ∧ s.opKey fr = (j, tag, sl) ∧ s.grp.ops = [⟨j, tag, sl, some f, w, [], a, true, none, false⟩] ∧ cfield w 6 12 4 = 0) ∧
    (∃ (s : State) (f : Fin 6) (tag : BitVec 16) (sl : Word) (o : GrpOp) (n : Nat) (w : List Word), s.held = false ∧ s.grp.ops = [o] ∧ o.frond = some f ∧ o.rtag = tag.toNat ∧ o.slot = sl.toNat ∧ o.release = some n ∧ o.cmd = w ∧ cfield w 6 12 4 = 0 ∧ 0 ≤ ctDiff (s.compact s.groupDom) n) ∧
    (∃ (s : State) (f : Fin 6) (tag : BitVec 16) (sl : Word) (o : GrpOp), s.held = false ∧ s.grp.ops = [o] ∧ o.frond = some f ∧ o.rtag = tag.toNat ∧ o.slot = sl.toNat ∧ o.release = none ∧ o.failed = false ∧ s.setOf o.slot ≠ [] ∧ 0 ≤ ctDiff (s.compact s.groupDom) (cfield o.cmd 5 0 32)) ∧
    (∃ (s : State) (f : Fin 6) (tag : BitVec 16) (sl : Word) (o : GrpOp) (n : Nat), s.held = false ∧ s.grp.ops = [o] ∧ ((o.release = some n ∧ ctDiff (s.compact s.groupDom) n < 0) ∨ (o.release = none ∧ ctDiff (s.compact s.groupDom) (cfield o.cmd 5 0 32) < 0))) ∧
    (∃ (s : State) (f : Fin 6) (tag : BitVec 16) (sl : Word), s.held = false ∧ s.grp.ops.all (fun o => o.frond != some f) = true) :=
  ⟨⟨leafHas ⟨0, 0, gsl, some 0, gcmd 1 64, [], [], false, none, false⟩, { (gfr 0x21) with src := 0, payload := (List.range 64).map (fun i => BitVec.ofNat 8 i) }, 0, 0, gsl, 64, 0, gcmd 1 64, by decide +kernel⟩,
   ⟨grpLeaf (gcmd 1 64), { (gfr 0x21) with src := 0, payload := [7] }, 0, 0, gsl, by decide +kernel⟩,
   ⟨grpRoot (gcmd 2 0), gfr 0x22, 0, 0, gsl, by decide +kernel⟩,
   ⟨rootHas ⟨0, 0, gsl, some 0, gcmd 2 0, [], [], false, none, false⟩, gfr 0x22, 0, 0, gsl, 0, gcmd 2 0, by decide +kernel⟩,
   ⟨leafHas ⟨0, 0, gsl, some 0, gcmd 2 0, [], [], true, none, false⟩, { (gfr 0x23) with src := 0, bc := true, payload := [9, 0, 0, 0] }, 0, 0, gsl, 0, gcmd 2 0, [], by decide +kernel⟩,
   ⟨leafHas ⟨0, 0, gsl, some 0, gcmd 2 0, [], [], true, some 77, false⟩, 0, 0, BitVec.ofNat 32 gsl, ⟨0, 0, gsl, some 0, gcmd 2 0, [], [], true, some 77, false⟩, 77, gcmd 2 0, by decide +kernel⟩,
   ⟨leafHas ⟨0, 0, gsl, some 0, gcmd 2 0, [], [], true, none, false⟩, 0, 0, BitVec.ofNat 32 gsl, ⟨0, 0, gsl, some 0, gcmd 2 0, [], [], true, none, false⟩, by decide +kernel⟩,
   ⟨leafHas ⟨0, 0, gsl, some 0, (gcmd 2 0).set 5 1000000077, [], [], true, none, false⟩, 0, 0, BitVec.ofNat 32 gsl, ⟨0, 0, gsl, some 0, (gcmd 2 0).set 5 1000000077, [], [], true, none, false⟩, 77, by decide +kernel⟩,
   ⟨started, 0, 0, 0, by decide +kernel⟩⟩

theorem witness_LockStepPairActs_1 :
    (∃ (s : State) (fr : RzFrame) (n : Nat) (i : Nat) (d : List Byte) (e : Nat × Nat × List Byte), s.held = false ∧ s.rzLive fr.port = true ∧ s.rzDropped fr = false ∧ fr.kind = 0x30 ∧ s.rzRole fr.port = 3 ∧ byteAt fr.payload 20 = 1 ∧ n = byteAt fr.payload 22 ∧ n < 16 ∧ i = le fr.payload 14 4 ∧ d = (fr.payload.drop 23).take 8 ∧ s.pair.sds.find? (fun e => e.1 == n && e.2.1 == i) = some e) ∧
    (∃ (s : State) (fr : RzFrame) (n : Nat) (i : Nat), s.held = false ∧ s.rzLive fr.port = true ∧ s.rzDropped fr = false ∧ fr.kind = 0x30 ∧ s.rzRole fr.port = 3 ∧ byteAt fr.payload 20 = 1 ∧ n = byteAt fr.payload 22 ∧ i = le fr.payload 14 4 ∧ s.pair.sds.find? (fun e => e.1 == n && e.2.1 == i) = none) ∧
    (∃ (s : State) (fr : RzFrame), s.held = false ∧ s.rzLive fr.port = true ∧ s.rzDropped fr = false ∧ fr.kind = 0x30 ∧ s.rzRole fr.port = 3 ∧ byteAt fr.payload 20 = 0 ∧ s.standby = true) ∧
    (∃ (s : State) (fr : RzFrame), s.held = false ∧ s.rzLive fr.port = true ∧ s.rzDropped fr = false ∧ fr.kind = 0x30 ∧ s.rzRole fr.port = 3 ∧ byteAt fr.payload 20 = 0 ∧ s.on Reg.RZ_PAIR_STS_ACTIVE = true ∧ (byteAt fr.payload 19).testBit 2 = true) ∧
    (∃ (s : State) (fr : RzFrame), s.held = false ∧ s.rzLive fr.port = true ∧ s.rzDropped fr = false ∧ s.rzRole fr.port ≠ 3) ∧
    (∃ (s : State) (fr : RzFrame) (n : Nat) (i : Nat) (k : Nat), s.held = false ∧ s.rzLive fr.port = true ∧ s.rzDropped fr = false ∧ fr.kind = 0x31 ∧ s.rzRole fr.port = 3 ∧ n = byteAt fr.payload 0 ∧ i = le fr.payload 4 4 ∧ s.pair.sds.any (fun e => e.1 == n && e.2.1 == i) = true ∧ firstDiff ((s.blocksOf n i).map (fun b => b.crc)) (le fr.payload 2 2) (le fr.payload 8 4) ((List.range ((fr.payload.length - 12) / 4)).map (fun k => le fr.payload (12 + 4 * k) 4)) = some k) ∧
    (∃ (s : State) (fr : RzFrame) (n : Nat) (i : Nat), s.held = false ∧ s.rzLive fr.port = true ∧ s.rzDropped fr = false ∧ fr.kind = 0x31 ∧ s.rzRole fr.port = 3 ∧ n = byteAt fr.payload 0 ∧ i = le fr.payload 4 4 ∧ (s.pair.sds.any (fun e => e.1 == n && e.2.1 == i) = false ∨ firstDiff ((s.blocksOf n i).map (fun b => b.crc)) (le fr.payload 2 2) (le fr.payload 8 4) ((List.range ((fr.payload.length - 12) / 4)).map (fun k => le fr.payload (12 + 4 * k) 4)) = none)) ∧
    (∃ (s : State) (fr : RzFrame), s.held = false ∧ s.rzLive fr.port = true ∧ s.rzDropped fr = false ∧ fr.kind = 0x32 ∧ s.rzRole fr.port = 3 ∧ byteAt fr.payload 0 = 0) ∧
    (∃ (s : State) (fr : RzFrame), s.held = false ∧ s.rzLive fr.port = true ∧ s.rzDropped fr = false ∧ fr.kind = 0x32 ∧ s.rzRole fr.port = 3 ∧ byteAt fr.payload 0 = 1 ∧ byteAt fr.payload 1 = 4 ∧ s.rzUp fr.port = true ∧ (s.rzp fr.port).busy = true ∧ ((∀ p : Fin 4, s.rzRole p = 3 → p = fr.port))) ∧
    (∃ (s : State) (fr : RzFrame) (c : CandSub), s.held = false ∧ s.rzLive fr.port = true ∧ s.rzDropped fr = false ∧ fr.kind = 0x32 ∧ s.rzRole fr.port = 3 ∧ byteAt fr.payload 0 = 2 ∧ s.trn.cand = some c) :=
  ⟨⟨pairOn 0, pairF 0x30 (syncP 1 0), 0, 10000, [1, 2, 3, 4, 5, 6, 7, 8], (0, 10000, [1, 2, 3, 4, 5, 6, 7, 8]), by decide +kernel⟩,
   ⟨{ (pairOn 0) with pair := State.reset.pair }, pairF 0x30 (syncP 1 0), 0, 10000, by decide +kernel⟩,
   ⟨pairOn 0, pairF 0x30 (syncP 0 1), by decide +kernel⟩,
   ⟨pairOn 1, pairF 0x30 (syncP 0 12), by decide +kernel⟩,
   ⟨pairOn 0, { (pairF 0x30 []) with port := 0 }, by decide +kernel⟩,
   ⟨pairOn 0, pairF 0x31 blkP, 0, 10000, 0, by decide +kernel⟩,
   ⟨{ (pairOn 0) with pair := State.reset.pair }, pairF 0x31 blkP, 0, 10000, by decide +kernel⟩,
   ⟨pairOn 0, pairF 0x32 [0, 1, 7], by decide +kernel⟩,
   ⟨pairOn 0, pairF 0x32 [1, 4], by decide +kernel⟩,
   ⟨{ (pairOn 1) with trn := { State.reset.trn with cand := some (.models 1) }, pair := { State.reset.pair with waiting := true } }, pairF 0x32 [2, 0], .models 1, by decide +kernel⟩⟩

theorem witness_LockStepPairActs_2 :
    (∃ (s : State) (fr : RzFrame) (c : CandSub), s.held = false ∧ s.rzLive fr.port = true ∧ s.rzDropped fr = false ∧ fr.kind = 0x32 ∧ s.rzRole fr.port = 3 ∧ byteAt fr.payload 0 = 3 ∧ s.trn.cand = some c) ∧
    (∃ (s : State) (fr : RzFrame), s.held = false ∧ s.rzLive fr.port = true ∧ s.rzDropped fr = false ∧ fr.kind = 0x32 ∧ s.rzRole fr.port = 3 ∧ byteAt fr.payload 0 = 4) :=
  ⟨⟨{ (pairOn 0) with trn := { State.reset.trn with cand := some (.models 1) } }, pairF 0x32 [3, 0, 9], .models 1, by decide +kernel⟩,
   ⟨{ (pairOn 0) with trn := { State.reset.trn with watch := some ⟨3, 2, none, 6⟩ } }, pairF 0x32 [4, 0], by decide +kernel⟩⟩

end Sys2Proof.Tests
end

section
/-!
Fields of registers: what a table's fields read after a fold over them, and what the register map says of every table.
-/
namespace Sys2Proof.Machine

open Sys2Proof (Word)

/-! ### Bit fields -/

theorem bits_lt (v lo w : Nat) : bits v lo w < 2 ^ w := Nat.mod_lt _ (Nat.two_pow_pos w)

/-- A field within the word does not see what lies above the word. -/
theorem bits_ofNat_toNat (v : Nat) {lo w : Nat} (h : lo + w ≤ 32) : bits (BitVec.ofNat 32 v).toNat lo w = bits v lo w := by
  obtain ⟨k, hk⟩ := Nat.exists_eq_add_of_le h
  rw [BitVec.toNat_ofNat, bits, bits, Nat.shiftRight_eq_div_pow, Nat.shiftRight_eq_div_pow, hk, Nat.pow_add, Nat.pow_add,
    Nat.mul_assoc, Nat.mod_mul_right_div_self, Nat.mod_mul_right_mod]

theorem bits_or (v x lo w : Nat) : bits (v ||| x) lo w = bits v lo w ||| bits x lo w := by
  rw [bits, bits, bits, Nat.shiftRight_or_distrib, Nat.or_mod_two_pow]

theorem bits_shiftLeft_same {x lo w : Nat} (h : x < 2 ^ w) : bits (x <<< lo) lo w = x := by
  rw [bits, Nat.shiftLeft_shiftRight, Nat.mod_eq_of_lt h]

/-- A value put in one field shows nothing in a field apart from it. -/
theorem bits_shiftLeft_apart {x lo w lo' w' : Nat} (hx : x < 2 ^ w) (h : lo + w ≤ lo' ∨ lo' + w' ≤ lo) :
    bits (x <<< lo) lo' w' = 0 := by
  have e : x <<< lo = setBits 0 lo w x := by simp [setBits, bits, Nat.mod_eq_of_lt hx]
  rw [e]
  rcases h with h | h
  · rw [bits_setBits_above _ _ _ _ _ h]
    simp [bits]
  · rw [bits_setBits_below _ _ _ _ h]
    simp [bits]

/-! ### The fields of a table -/

/-- Two fields that share no bit. -/
abbrev FieldSpec.Apart (f g : FieldSpec) : Prop := f.lo + f.width ≤ g.lo ∨ g.lo + g.width ≤ f.lo

/-- A field within its word, with a reset value within the field. -/
abbrev FieldSpec.Fits (f : FieldSpec) : Prop := f.lo + f.width ≤ 32 ∧ f.reset < 2 ^ f.width

/-- The value of a field of a word. -/
def FieldSpec.get (f : FieldSpec) (v : Nat) : Nat := bits v f.lo f.width

/-- A field set in a number reads what was put in it. -/
theorem FieldSpec.get_setBits_same (f : FieldSpec) (v x : Nat) : f.get (setBits v f.lo f.width x) = x % 2 ^ f.width :=
  bits_setBits_same ..

/-- A field apart from the one set is left. -/
theorem FieldSpec.get_setBits_apart {f g : FieldSpec} (h : f.Apart g) (v x : Nat) : g.get (setBits v f.lo f.width x) = g.get v :=
  h.elim (fun h => bits_setBits_above _ _ _ _ _ h) (fun h => bits_setBits_below _ _ _ _ h)

theorem FieldSpec.get_ofNat_toNat {f : FieldSpec} (h : f.Fits) (v : Nat) : f.get (BitVec.ofNat 32 v).toNat = f.get v :=
  bits_ofNat_toNat v h.1

/-- A field set in a word leaves a word: nothing is cut off above it. -/
theorem FieldSpec.toNat_ofNat_setBits {f : FieldSpec} (h : f.Fits) (w : Word) (x : Nat) :
    (BitVec.ofNat 32 (setBits w.toNat f.lo f.width x)).toNat = setBits w.toNat f.lo f.width x := by
  rw [BitVec.toNat_ofNat, Nat.mod_eq_of_lt (setBits_lt _ w.isLt h.1)]

section fold

variable {α : Type} {read : α → FieldSpec → Nat} {put : α → FieldSpec → α} {val : FieldSpec → Nat → Nat}

/-- Acting on the fields of a list leaves a field that is apart from each of them. -/
theorem foldl_fields_apart (other : ∀ w f g, f.Fits → f.Apart g → read (put w f) g = read w g) {g : FieldSpec} :
    ∀ (fs : List FieldSpec) (w : α), (∀ f ∈ fs, f.Fits ∧ f.Apart g) → read (fs.foldl put w) g = read w g
  | [], _, _ => rfl
  | f :: fs, w, h => by
    obtain ⟨⟨hf, ha⟩, hs⟩ := List.forall_mem_cons.mp h
    rw [List.foldl_cons, foldl_fields_apart other fs _ hs, other w f g hf ha]

/-- Acting on the fields of a table one after the other: each field reads what the action makes of it alone. -/
theorem foldl_fields_mem (same : ∀ w f, f.Fits → read (put w f) f = val f (read w f))
    (other : ∀ w f g, f.Fits → f.Apart g → read (put w f) g = read w g) {f : FieldSpec} :
    ∀ (fs : List FieldSpec) (w : α), fs.Pairwise FieldSpec.Apart → (∀ g ∈ fs, g.Fits) → f ∈ fs →
      read (fs.foldl put w) f = val f (read w f)
  | g :: fs, w, hp, hfit, hf => by
    obtain ⟨hg, hps⟩ := List.pairwise_cons.mp hp
    obtain ⟨hgfit, hsfit⟩ := List.forall_mem_cons.mp hfit
    rw [List.foldl_cons]
    rcases List.mem_cons.mp hf with rfl | hf
    · rw [foldl_fields_apart other fs _ (fun x hx => ⟨hsfit x hx, (hg x hx).symm⟩), same w f hgfit]
    · rw [foldl_fields_mem same other fs _ hps hsfit hf, other w g f hgfit (hg f hf)]

end fold

/-! ### The register map -/

/-- A table whose fields share no bit and lie, with their reset values, within the word. -/
abbrev RegSpec.WellPlaced (t : RegSpec) : Prop := t.fields.Pairwise FieldSpec.Apart ∧ ∀ f ∈ t.fields, f.Fits

/-- Every table of the map. -/
def regMap : List RegSpec :=
  regsSys ++ regsSec ++ regsImg ++ regsPwr ++ regsTime ++ regsFlt ++ regsJob ++ regsFh ++ regsRz ++ regsGrn ++ regsBrn ++ regsTel ++
    regsArr ++ regsVec ++ regsSig ++ regsThr ++ regsStr ++ regsLeaf

theorem regMap_wellPlaced : ∀ t ∈ regMap, t.WellPlaced := by decide +kernel

/-- The tables of a block are tables of the map. -/
theorem regTables_subset (a : Nat) : regTables a ⊆ regMap := by
  intro t
  unfold regTables regMap
  simp only [List.mem_append]
  split
  case h_13 =>
    split
    · split <;> simp +contextual
    · simp
  all_goals simp +contextual

/-- The fields of a register share no bit and lie within the word. -/
theorem regSpecAt_wellPlaced {a : Nat} {t : RegSpec} (h : regSpecAt a = some t) : t.WellPlaced :=
  regMap_wellPlaced t (regTables_subset a (List.mem_of_find?_eq_some h))

/-- A field of a register reads, at reset, the value of its Reset column. -/
theorem get_regReset {a : Nat} {t : RegSpec} {f : FieldSpec} (ht : regSpecAt a = some t) (hf : f ∈ t.fields) :
    f.get (regReset a).toNat = f.reset := by
  obtain ⟨hp, hfit⟩ := regSpecAt_wellPlaced ht
  have hlt : ∀ g : FieldSpec, g.Fits → g.reset <<< g.lo < 2 ^ 32 := fun g hg => by
    have := Nat.mul_lt_mul_of_pos_right hg.2 (Nat.two_pow_pos g.lo)
    rw [Nat.shiftLeft_eq]
    exact Nat.lt_of_lt_of_le this (by rw [← Nat.pow_add]; exact Nat.pow_le_pow_right (by decide) (by have := hg.1; omega))
  have key := foldl_fields_mem (read := fun (w : Word) (g : FieldSpec) => g.get w.toNat)
    (put := fun w g => w ||| BitVec.ofNat 32 (g.reset <<< g.lo)) (val := fun g x => x ||| g.reset) (f := f)
    (fun w g hg => by
      simp only [FieldSpec.get, BitVec.toNat_or, BitVec.toNat_ofNat, Nat.mod_eq_of_lt (hlt g hg), bits_or, bits_shiftLeft_same hg.2])
    (fun w g g' hg ha => by
      simp only [FieldSpec.get, BitVec.toNat_or, BitVec.toNat_ofNat, Nat.mod_eq_of_lt (hlt g hg), bits_or, bits_shiftLeft_apart hg.2 ha,
        Nat.or_zero])
    t.fields 0 hp hfit hf
  rw [regReset, ht]
  refine key.trans ?_
  simp [FieldSpec.get, bits]

/-! ### Resets of registers (R10, R11) -/

/-- A reset source gives the fields it restores their reset values and leaves the others. -/
theorem get_restoreWord (r : Src) (v : Word) {a : Nat} {t : RegSpec} {f : FieldSpec} (ht : regSpecAt a = some t) (hf : f ∈ t.fields) :
    f.get (restoreWord r a v).toNat = if f.src.rank ≤ r.rank then f.reset else f.get v.toNat := by
  obtain ⟨hp, hfit⟩ := regSpecAt_wellPlaced ht
  rw [restoreWord, ht]
  refine foldl_fields_mem (read := fun (w : Word) (g : FieldSpec) => g.get w.toNat)
    (val := fun g x => if g.src.rank ≤ r.rank then g.reset else x) (fun w g hg => ?_) (fun w g g' hg ha => ?_) t.fields v hp hfit hf
  · split
    · rw [FieldSpec.toNat_ofNat_setBits hg, FieldSpec.get_setBits_same, Nat.mod_eq_of_lt hg.2]
    · rfl
  · split
    · rw [FieldSpec.toNat_ofNat_setBits hg, FieldSpec.get_setBits_apart ha]
    · rfl

/-- A reset source acting on a map of registers: an unlisted register has its reset value already. -/
theorem get_resetRegs (r : Src) (p : Nat → Bool) {a : Nat} {t : RegSpec} {f : FieldSpec} (ht : regSpecAt a = some t) (hf : f ∈ t.fields) :
    ∀ m : List (Nat × Word), f.get (sget (regReset a) (resetRegs r p m) a).toNat =
      if p a = true ∧ f.src.rank ≤ r.rank then f.reset else f.get (sget (regReset a) m a).toNat
  | [] => by
    have h : f.get (regReset a).toNat = f.reset := get_regReset ht hf
    simp [resetRegs, sget, h]
  | (k, v) :: m => by
    have ih := get_resetRegs r p ht hf m
    rw [resetRegs] at ih ⊢
    rw [List.foldr_cons]
    by_cases hk : a = k
    · subst hk
      simp only [sget_sset_same, sget, if_true]
      by_cases hp : p a = true
      · simp [hp, get_restoreWord r v ht hf]
      · simp [hp]
    · rw [sget_sset_other _ _ _ _ hk, ih]
      simp [sget, hk]

/-- A reset source acting on the registers of a state. -/
theorem State.get_reg_resetRegs (s : State) (r : Src) (p : Nat → Bool) {a : Nat} {t : RegSpec} {f : FieldSpec}
    (ht : regSpecAt a = some t) (hf : f ∈ t.fields) :
    f.get ((s.resetRegs r p).reg a).toNat = if p a = true ∧ f.src.rank ≤ r.rank then f.reset else f.get (s.reg a).toNat :=
  get_resetRegs r p ht hf s.regs

/-- Settles O16: by `get_resetRegs`, each field of a register is restored alone, and at reset no register is listed. -/
theorem resetSourcesRestoreTheirFields : Obligations.ResetSourcesRestoreTheirFields := by
  refine ⟨fun a t f ht hf => get_regReset ht hf, fun s r p a t f ht hf => s.get_reg_resetRegs r p ht hf, ?_⟩
  intro s r p a t f ht hf hsrc hr
  have hrank : ¬ f.src.rank ≤ r.rank := by
    rw [hsrc]
    cases r <;> simp_all [Src.rank]
  exact (s.get_reg_resetRegs r p ht hf).trans (if_neg fun h => hrank h.2)

end Sys2Proof.Machine
end

section
/-!
Counters: their tables, how they rise, and how a read by the management agent clears them (R8, R12).
-/
namespace Sys2Proof.Machine

open Sys2Proof (Byte Word XqRef)

/-! ### Reading a register -/

/-- The registers that show other state than the register map holds, the mailboxes and bank states of the fronds apart. -/
def shownElsewhere : List Nat :=
  [Reg.FLT_HIST_LOC_LOC.addr, Reg.FLT_HIST_T.addr, Reg.GRN_BANK_STS_STATE.addr, Reg.BRN_WAY_MASK.addr, Reg.TEL_XQ_STALL_CNT.addr,
    Reg.SEC_DBG_LEFT.addr, Reg.SEC_LOCK_LEFT.addr, Reg.RZ_GRP_STS_TIME_OK.addr] ++
  [0, 1].flatMap (fun d => [(Reg.TIME_d_INCR_LO d).addr, (Reg.TIME_d_INCR_HI d).addr])

/-- A register that shows what the register map holds for it. -/
abbrev ShowsItself (a : Nat) : Prop := a ∉ shownElsewhere ∧ mboAt a = none ∧ leafStsAt a = none

theorem State.leadIncr_none (s : State) {a : Nat} (h : a ∉ shownElsewhere) : s.leadIncr a = none := by
  simp only [shownElsewhere, List.mem_append, List.mem_flatMap, List.mem_cons, List.not_mem_nil, or_false, not_or] at h
  unfold State.leadIncr
  split
  · rfl
  · rename_i d _
    cases d <;> simp_all [domNo]

theorem State.peek_eq_reg (s : State) {a : Nat} (h : ShowsItself a) : s.peek a = s.reg a := by
  obtain ⟨ha, hm, hl⟩ := h
  have hi := s.leadIncr_none ha
  simp only [shownElsewhere, List.mem_append, List.mem_cons, List.not_mem_nil, or_false, not_or] at ha
  unfold State.peek
  simp [ha, hi, hm, hl]

/-! ### Tables of counters -/

/-- One field of 32 bits, cleared when read, that starts at 0. -/
abbrev Fld.IsCounter (F : Fld) : Prop :=
  F.lo = 0 ∧ F.width = 32 ∧ ∃ c ∈ [Src.job, .img, .warm, .por], (regSpecAt F.addr).map (·.fields) = some [⟨0, 32, .rc, 0, c⟩]

/-- The word address of a register that a read neither captures nor computes. -/
abbrev Fld.ReadsPlainly (F : Fld) : Prop :=
  isReg F.addr = true ∧ F.addr < 2 ^ 48 ∧ ShowsItself F.addr ∧ F.addr ≠ (Reg.TIME_d_NOW_SEC_LO 0).addr ∧ F.addr ≠ (Reg.TIME_d_NOW_SEC_LO 1).addr

theorem counters_isCounter : ∀ F ∈ Reg.TEL_XQ_STALL_CNT :: (deviceCounters ++ indexedCounters), F.IsCounter := by decide +kernel

theorem counters_readPlainly : ∀ F ∈ deviceCounters ++ indexedCounters, F.ReadsPlainly := by decide +kernel

theorem parityCount_fields : ∀ f : Fin 6, (regSpecAt (Reg.ARR_PARITY_CNT f).addr).map (·.fields) = some [⟨0, 32, .ro, 0, .por⟩] := by
  decide +kernel

/-! ### Rising and clearing -/

theorem State.reg_addc_other (s : State) (F : Fld) (n : Nat) {a : Nat} (h : a ≠ F.addr) : (s.addc F n).reg a = s.reg a :=
  s.reg_p_other F _ h

/-- Clearing the RC fields of a counter makes it 0. -/
theorem State.g_clearRc_counter (s : State) {F : Fld} (h : F.IsCounter) : (s.clearRc F.addr).g F = 0 := by
  obtain ⟨hlo, hw, c, -, hc⟩ := h
  obtain ⟨r, hr, hf⟩ := Option.map_eq_some_iff.mp hc
  unfold State.clearRc State.g
  rw [hr]
  dsimp only
  rw [hf, State.reg_setReg_same, hlo, hw, bits_ofNat_toNat _ (by decide)]
  exact bits_setBits_same ..

theorem State.reg_clearRc_other (s : State) {a c : Nat} (h : c ≠ a) : (s.clearRc a).reg c = s.reg c := by
  unfold State.clearRc
  split
  · rfl
  · exact s.reg_setReg_other _ h

@[simp] theorem State.clearRc_mem (s : State) (a : Nat) : (s.clearRc a).mem = s.mem := by
  unfold State.clearRc
  split <;> rfl

@[simp] theorem State.clearRc_readOut (s : State) (a : Nat) : (s.clearRc a).readOut = s.readOut := by
  unfold State.clearRc
  split <;> rfl

/-- A read of a register that shows itself gives its word and clears its RC fields. -/
theorem State.regRead_plain (s : State) (agent : Nat) {F : Fld} (h : F.ReadsPlainly) :
    s.regRead agent F.addr 4 = (s.reg F.addr, s.clearRc F.addr) := by
  obtain ⟨hreg, -, hs, h0, h1⟩ := h
  have hx : F.addr ≠ Reg.TEL_XQ_STALL_CNT.addr := fun e => hs.1 (by rw [e]; decide)
  simp [State.regRead, hreg, h0, h1, hx, s.peek_eq_reg hs, hs.2.1]

/-- An agent of no job meets no guard (R323). -/
theorem State.guard_no_job (s : State) {agent : Nat} (h : s.agentJob agent = none) (a : Nat) (w : Bool) (g : State → State) :
    s.guard agent a w g = g s := by
  unfold State.guard
  rw [h]

/-- The management agent works for no job (R34). -/
theorem State.agentJob_mg (s : State) : s.agentJob 0x70 = none := rfl

/-- A value in the log of values read (log 4). -/
def State.logRead (s : State) (v : Word) : State := { s with readOut := s.readOut ++ [v] }

@[simp] theorem State.logRead_readOut (s : State) (v : Word) : (s.logRead v).readOut = s.readOut ++ [v] := rfl
@[simp] theorem State.logRead_mem (s : State) (v : Word) : (s.logRead v).mem = s.mem := rfl
@[simp] theorem State.logRead_reg (s : State) (v : Word) (a : Nat) : (s.logRead v).reg a = s.reg a := rfl
@[simp] theorem State.logRead_g (s : State) (v : Word) (F : Fld) : (s.logRead v).g F = s.g F := rfl

/-- A read by an agent of no job logs the value and leaves the read's side effects. -/
theorem State.readLog_no_job {s t : State} {agent a w : Nat} {v : Word} (h : s.agentJob agent = none)
    (hrd : s.regRead agent a w = (v, t)) (hlog : t.readOut = s.readOut) : s.readLog agent a w = t.logRead v := by
  unfold State.readLog
  rw [s.guard_no_job h, hrd]
  exact if_neg (by simp [hlog])

theorem exec_rcCounterRead {s : State} (h : s.held = false) (a : Sys2Proof.RegAcc) :
    exec (.rcCounterRead a) s = .next (s.settle (s.readLog a.agent.toNat a.addr.toNat a.width)) := by
  change execRcCounterRead a s = _
  exact act_next h

/-- Settles O13: the tables of the counters are evaluated, a counter rises by `State.g_addc_same`, and a read clears it by
`State.g_clearRc_counter`. -/
theorem countersStopAndReadClears : Obligations.CountersStopAndReadClears := by
  have hcnt : ∀ F ∈ deviceCounters ++ indexedCounters, F.IsCounter := fun F hF => counters_isCounter F (List.mem_cons_of_mem _ hF)
  refine ⟨fun F hF => ?_, fun f => ?_, fun s F n hF => ?_, fun s f n => ?_, fun s q n => ?_, fun s F hs hF => ?_⟩
  · obtain ⟨hlo, hw, c, -, hc⟩ := counters_isCounter F hF
    obtain ⟨r, hr, hf⟩ := Option.map_eq_some_iff.mp hc
    exact ⟨hlo, hw, r, c, hr, hf⟩
  · exact Option.map_eq_some_iff.mp (parityCount_fields f)
  · obtain ⟨hlo, hw, -⟩ := hcnt F hF
    have hg := s.g_addc_same F n hlo hw
    exact ⟨hg, by omega, fun a ha => s.reg_addc_other F n ha⟩
  · exact s.g_addc_same _ n rfl rfl
  · simp only [State.stallXq, sget_sset_same, BitVec.toNat_ofNat]
    omega
  · have hread := counters_readPlainly F hF
    have haddr : (BitVec.ofNat 48 F.addr).toNat = F.addr := by
      rw [BitVec.toNat_ofNat, Nat.mod_eq_of_lt hread.2.1]
    have hlog := State.readLog_no_job s.agentJob_mg (s.regRead_plain 0x70 hread) (s.clearRc_readOut F.addr)
    refine ⟨_, exec_rcCounterRead hs _, ?_⟩
    rw [haddr, show (0x70 : Byte).toNat = 0x70 from rfl, hlog, State.settle_readOut, State.settle_g, State.settle_mem, State.logRead_readOut,
      State.logRead_g, State.logRead_mem, s.clearRc_readOut]
    exact ⟨rfl, s.g_clearRc_counter (hcnt F hF), s.clearRc_mem F.addr,
      fun a ha => ((State.settle_reg ..).trans (State.logRead_reg ..)).trans (s.reg_clearRc_other ha)⟩

end Sys2Proof.Machine
end

section
/-!
Register writes by agents: what a write makes of each field, when it counts as ignored, and what an unmapped access leaves (R8, R29, R30).
-/
namespace Sys2Proof.Machine

open Sys2Proof (Byte Word RegAcc)

/-! ### A write, field by field -/

/-- What a write of `v` by an agent makes of a field that holds `x`. -/
def State.written (s : State) (agent v : Nat) (f : FieldSpec) (x : Nat) : Nat :=
  if s.mayWrite agent f.acc = false then x
  else if f.acc = .w1c then x &&& (2 ^ f.width - 1 - f.get v)
  else f.get v

/-- The word that a write of `v` by an agent makes of a word, one field of the table. -/
def State.putField (s : State) (agent v : Nat) (w : Nat) (f : FieldSpec) : Nat :=
  if !s.mayWrite agent f.acc then w
  else if f.acc = .w1c then setBits w f.lo f.width (bits w f.lo f.width &&& (2 ^ f.width - 1 - bits v f.lo f.width))
  else setBits w f.lo f.width (bits v f.lo f.width)

theorem State.get_putField_same (s : State) (agent v w : Nat) (f : FieldSpec) :
    f.get (s.putField agent v w f) = s.written agent v f (f.get w) := by
  unfold State.putField State.written
  cases s.mayWrite agent f.acc
  · rfl
  · by_cases hw : f.acc = .w1c
    · have hlt : f.get w &&& (2 ^ f.width - 1 - f.get v) < 2 ^ f.width := Nat.and_lt_two_pow _ (by
        have := Nat.two_pow_pos f.width
        omega)
      simp only [hw, Bool.not_true, Bool.false_eq_true, if_false, if_true, reduceCtorEq]
      exact (f.get_setBits_same w _).trans (Nat.mod_eq_of_lt hlt)
    · simp only [hw, Bool.not_true, Bool.false_eq_true, if_false, reduceCtorEq]
      exact (f.get_setBits_same w _).trans (Nat.mod_eq_of_lt (bits_lt ..))

theorem State.get_putField_apart (s : State) (agent v w : Nat) {f g : FieldSpec} (h : f.Apart g) :
    g.get (s.putField agent v w f) = g.get w := by
  unfold State.putField
  split
  · rfl
  · split <;> exact FieldSpec.get_setBits_apart h _ _

/-- The word that a write makes of a register. -/
def State.putWord (s : State) (agent a v : Nat) (t : RegSpec) : Word :=
  BitVec.ofNat 32 (t.fields.foldl (s.putField agent v) (s.reg a).toNat)

/-- The bits of a table that some field names. -/
def RegSpec.named (t : RegSpec) : Nat := t.fields.foldl (fun (m : Nat) f => m ||| (2 ^ f.width - 1) <<< f.lo) 0

/-- Whether a write would change what the register shows in a field that the agent may not write, or in a reserved bit (R30). -/
def State.writeIgnored (s : State) (shown agent v : Nat) (t : RegSpec) : Bool :=
  t.fields.any (fun f => !s.mayWrite agent f.acc && bits v f.lo f.width != bits shown f.lo f.width) ||
    (v % 4294967296 &&& t.named) != v % 4294967296

theorem State.writeSeen_eq (s : State) (shown agent v : Nat) {a : Nat} {t : RegSpec} (ht : regSpecAt a = some t) :
    s.writeSeen shown agent a v =
      if s.writeIgnored shown agent v t then (s.setReg a (s.putWord agent a v t)).ignore else s.setReg a (s.putWord agent a v t) := by
  unfold State.writeSeen
  rw [ht]
  rfl

/-- A write leaves every register but its own and the count of ignored writes. -/
theorem State.reg_writeSeen_other (s : State) (shown agent v : Nat) {a c : Nat} (hc : c ≠ a) (hi : c ≠ Reg.SYS_WR_IGN_CNT.addr) :
    (s.writeSeen shown agent a v).reg c = s.reg c := by
  cases ht : regSpecAt a with
  | none => simp [State.writeSeen, ht]
  | some t =>
    rw [s.writeSeen_eq shown agent v ht]
    split
    · rw [State.ignore, State.inc, State.reg_addc_other _ _ _ hi, s.reg_setReg_other _ hc]
    · rw [s.reg_setReg_other _ hc]

/-- The register written holds the word that the write makes of it. -/
theorem State.reg_writeSeen_same (s : State) (shown agent v : Nat) {a : Nat} {t : RegSpec} (ht : regSpecAt a = some t)
    (hi : a ≠ Reg.SYS_WR_IGN_CNT.addr) : (s.writeSeen shown agent a v).reg a = s.putWord agent a v t := by
  rw [s.writeSeen_eq shown agent v ht]
  split
  · rw [State.ignore, State.inc, State.reg_addc_other _ _ _ hi, s.reg_setReg_same]
  · rw [s.reg_setReg_same]

/-- Each field of the register written is what the write makes of it alone. -/
theorem State.get_writeSeen (s : State) (shown agent v : Nat) {a : Nat} {t : RegSpec} {f : FieldSpec} (ht : regSpecAt a = some t)
    (hf : f ∈ t.fields) (hi : a ≠ Reg.SYS_WR_IGN_CNT.addr) :
    f.get ((s.writeSeen shown agent a v).reg a).toNat = s.written agent v f (f.get (s.reg a).toNat) := by
  obtain ⟨hp, hfit⟩ := regSpecAt_wellPlaced ht
  rw [s.reg_writeSeen_same shown agent v ht hi, State.putWord, FieldSpec.get_ofNat_toNat (hfit f hf)]
  exact foldl_fields_mem (read := fun (w : Nat) (g : FieldSpec) => g.get w) (val := s.written agent v)
    (fun w g _ => s.get_putField_same agent v w g) (fun w _ _ _ h => s.get_putField_apart agent v w h) t.fields _ hp hfit hf

@[simp] theorem State.writeSeen_mem (s : State) (shown agent a v : Nat) : (s.writeSeen shown agent a v).mem = s.mem := by
  cases ht : regSpecAt a with
  | none => simp [State.writeSeen, ht]
  | some t =>
    rw [s.writeSeen_eq shown agent v ht]
    split <;> rfl

/-- A register of read-only fields keeps its word. -/
theorem State.putWord_readOnly (s : State) (agent a v : Nat) {t : RegSpec} (h : ∀ f ∈ t.fields, f.acc = .ro) :
    s.putWord agent a v t = s.reg a := by
  have key : t.fields.foldl (s.putField agent v) (s.reg a).toNat = (s.reg a).toNat :=
    List.foldlRecOn t.fields _ (motive := (· = (s.reg a).toNat)) rfl (fun w hw f hf => by
      simpa [State.putField, h f hf, State.mayWrite] using hw)
  rw [State.putWord, key, BitVec.ofNat_toNat, BitVec.setWidth_eq]

/-! ### Ignored bits -/

theorem testBit_named (t : RegSpec) (i : Nat) : t.named.testBit i = true ↔ ∃ f ∈ t.fields, f.lo ≤ i ∧ i < f.lo + f.width := by
  have key : ∀ (fs : List FieldSpec) (m : Nat), (fs.foldl (fun (m : Nat) f => m ||| (2 ^ f.width - 1) <<< f.lo) m).testBit i = true ↔
      m.testBit i = true ∨ ∃ f ∈ fs, f.lo ≤ i ∧ i < f.lo + f.width := by
    intro fs
    induction fs with
    | nil => simp
    | cons f fs ih =>
      intro m
      have hf : (f.lo ≤ i ∧ i - f.lo < f.width) ↔ f.lo ≤ i ∧ i < f.lo + f.width := by omega
      rw [List.foldl_cons, ih]
      simp only [List.mem_cons, or_and_right, exists_or, exists_eq_left, ← hf, ← or_assoc, Nat.testBit_or, Nat.testBit_shiftLeft,
        Nat.testBit_two_pow_sub_one, Bool.or_eq_true, Bool.and_eq_true, decide_eq_true_eq, ge_iff_le]
  rw [RegSpec.named, key]
  simp

/-- A number keeps its bits under a mask exactly when the mask has each of them. -/
theorem and_ne_self_iff {v : Nat} (m : Nat) (hv : v < 2 ^ 32) : v &&& m ≠ v ↔ ∃ i < 32, v.testBit i = true ∧ m.testBit i = false := by
  have hlow : ∀ i, v.testBit i = true → i < 32 := fun i hb => Nat.lt_of_not_le fun hge => by
    rw [Nat.testBit_lt_two_pow (Nat.lt_of_lt_of_le hv (Nat.pow_le_pow_right (by decide) hge))] at hb
    exact Bool.noConfusion hb
  constructor
  · intro h
    refine Classical.byContradiction fun hn => h (Nat.eq_of_testBit_eq fun i => ?_)
    rw [Nat.testBit_and]
    cases hb : v.testBit i with
    | false => rfl
    | true =>
      cases hm : m.testBit i with
      | false => exact absurd ⟨i, hlow i hb, hb, hm⟩ hn
      | true => rfl
  · rintro ⟨i, -, hb, hm⟩ he
    rw [← he, Nat.testBit_and, hm, Bool.and_false] at hb
    exact Bool.noConfusion hb

/-- When a write counts as ignored (R30). -/
theorem State.writeIgnored_iff (s : State) (shown agent : Nat) {v : Nat} (t : RegSpec) (hv : v < 2 ^ 32) :
    s.writeIgnored shown agent v t = true ↔
      (∃ f ∈ t.fields, s.mayWrite agent f.acc = false ∧ bits v f.lo f.width ≠ bits shown f.lo f.width) ∨
        ∃ i < 32, v.testBit i = true ∧ ∀ f ∈ t.fields, ¬(f.lo ≤ i ∧ i < f.lo + f.width) := by
  have hnamed : ∀ i, t.named.testBit i = false ↔ ∀ f ∈ t.fields, ¬(f.lo ≤ i ∧ i < f.lo + f.width) := by
    intro i
    rw [← Bool.not_eq_true, testBit_named]
    simp
  unfold State.writeIgnored
  rw [Nat.mod_eq_of_lt (show v < 4294967296 from hv), Bool.or_eq_true, bne_iff_ne, and_ne_self_iff _ hv]
  simp only [hnamed, List.any_eq_true, Bool.and_eq_true, Bool.not_eq_true', bne_iff_ne]

/-! ### Unmapped accesses (R29) -/

section unmapped

variable (s : State) (agent a : Nat) (w : Bool)

@[simp] theorem State.unmapped_mem : (s.unmapped agent a w).mem = s.mem := by simp [State.unmapped]
@[simp] theorem State.unmapped_readOut : (s.unmapped agent a w).readOut = s.readOut := by simp [State.unmapped]

/-- The record of an unmapped access, one field after the other. -/
theorem State.unmapped_eq : s.unmapped agent a w =
    (((((s.inc Reg.SYS_UNMAPPED_CNT).p Reg.SYS_UNMAPPED_ADDR_LO (a % 4294967296)).p Reg.SYS_UNMAPPED_ADDR_HI_ADDR_HI
      (a / 4294967296)).p Reg.SYS_UNMAPPED_ADDR_HI_AGENT agent).p Reg.SYS_UNMAPPED_ADDR_HI_WRITE (b2n w)) := rfl

/-- An unmapped access leaves every register but its count and its record. -/
theorem State.reg_unmapped_other {c : Nat} (h0 : c ≠ 0x120) (h1 : c ≠ 0x124) (h2 : c ≠ 0x128) :
    (s.unmapped agent a w).reg c = s.reg c := by
  rw [State.unmapped_eq, State.reg_p_other _ _ _ h2, State.reg_p_other _ _ _ h2, State.reg_p_other _ _ _ h2, State.reg_p_other _ _ _ h1,
    State.inc, State.reg_addc_other _ _ _ h0]

theorem State.unmapped_cnt : (s.unmapped agent a w).g Reg.SYS_UNMAPPED_CNT = min (s.g Reg.SYS_UNMAPPED_CNT + 1) 0xFFFFFFFF := by
  rw [State.unmapped_eq, State.g_p_other _ _ _ _ (by decide), State.g_p_other _ _ _ _ (by decide), State.g_p_other _ _ _ _ (by decide),
    State.g_p_other _ _ _ _ (by decide), State.inc, State.g_addc_same _ _ _ rfl rfl]

theorem State.unmapped_lo : (s.unmapped agent a w).g Reg.SYS_UNMAPPED_ADDR_LO = a % 2 ^ 32 := by
  rw [State.unmapped_eq, State.g_p_other _ _ _ _ (by decide), State.g_p_other _ _ _ _ (by decide), State.g_p_other _ _ _ _ (by decide),
    State.g_p_same _ _ _ (by decide)]
  exact Nat.mod_mod a (2 ^ 32)

theorem State.unmapped_hi (ha : a < 2 ^ 48) : (s.unmapped agent a w).g Reg.SYS_UNMAPPED_ADDR_HI_ADDR_HI = a / 2 ^ 32 := by
  rw [State.unmapped_eq, State.g_p_disjoint _ Reg.SYS_UNMAPPED_ADDR_HI_WRITE Reg.SYS_UNMAPPED_ADDR_HI_ADDR_HI _ (by decide) rfl (by decide),
    State.g_p_disjoint _ Reg.SYS_UNMAPPED_ADDR_HI_AGENT Reg.SYS_UNMAPPED_ADDR_HI_ADDR_HI _ (by decide) rfl (by decide), State.g_p_same _ _ _ (by decide)]
  exact Nat.mod_eq_of_lt (show a / 2 ^ 32 < 2 ^ 16 by omega)

theorem State.unmapped_agent (h : agent < 2 ^ 8) : (s.unmapped agent a w).g Reg.SYS_UNMAPPED_ADDR_HI_AGENT = agent := by
  rw [State.unmapped_eq, State.g_p_disjoint _ Reg.SYS_UNMAPPED_ADDR_HI_WRITE Reg.SYS_UNMAPPED_ADDR_HI_AGENT _ (by decide) rfl (by decide),
    State.g_p_same _ _ _ (by decide)]
  exact Nat.mod_eq_of_lt h

theorem State.unmapped_write : (s.unmapped agent a w).g Reg.SYS_UNMAPPED_ADDR_HI_WRITE = b2n w := by
  rw [State.unmapped_eq, State.g_p_same _ _ _ (by decide)]
  cases w <;> rfl

end unmapped

/-! ### REGISTER_WRITE -/

theorem exec_registerWrite {s : State} (h : s.held = false) (a : RegAcc) (v : Word) :
    exec (.registerWrite a v) s = .next (s.settle (s.busWrite a.agent a.addr.toNat a.width v)) := by
  change execRegisterWrite a v s = _
  exact act_next h

/-- An access that is no aligned word of a register. -/
theorem State.busWrite_unmapped (s : State) (agent : Byte) {a w : Nat} (v : Word) (h : w ≠ 4 ∨ isReg a = false) :
    s.busWrite agent a w v = s.unmapped agent.toNat a true := by
  unfold State.busWrite
  exact if_pos (by simpa using h)

/-- A write by an agent of no job to a register of the device without an effect of its own. -/
theorem State.busWrite_plain (s : State) (agent : Byte) {a : Nat} (v : Word) (hr : isReg a = true) (hf : frondOfReg a = none)
    (hd : s.deviceWrite agent a v = none) (hj : s.agentJob agent.toNat = none) :
    s.busWrite agent a 4 v = s.writeSeen (s.peek a).toNat agent.toNat a v.toNat := by
  unfold State.busWrite
  rw [if_neg (by simp [hr]), hf]
  dsimp only
  rw [hd]
  exact s.guard_no_job hj _ _ _

/-- No register of the SYS and SEC blocks has an effect of its own. -/
theorem State.deviceWrite_sys (s : State) (agent : Byte) {a : Nat} (v : Word) (ha : a < 0x20000) : s.deviceWrite agent a v = none := by
  have hne : ∀ F : Fld, 0x20000 ≤ F.addr → a ≠ F.addr := fun F h => by omega
  unfold State.deviceWrite
  dsimp only
  rw [if_neg (hne Reg.PWR_CAP (by decide)), if_neg (hne Reg.JOB_RESTART_GO (by decide)), if_neg (hne Reg.JOB_TRN_CTL_ROLLBACK (by decide)),
    if_neg (hne Reg.BRN_WAY_MASK (by decide)), if_neg (hne Reg.FLT_LANE_RET (by decide)), if_neg (hne Reg.TIME_HO_CTL (by decide)),
    if_neg (by omega), if_neg (by omega), if_neg (by omega), if_neg (by omega), if_neg (by omega)]

/-- A write by an agent of no job to a register of the SYS block. -/
theorem State.busWrite_sys (s : State) (agent : Byte) {a : Nat} (v : Word) (hr : isReg a = true) (ha : a < 0x20000)
    (hj : s.agentJob agent.toNat = none) : s.busWrite agent a 4 v = s.writeSeen (s.peek a).toNat agent.toNat a v.toNat :=
  s.busWrite_plain agent v hr (if_neg (by omega)) (s.deviceWrite_sys agent v ha) hj

/-- Firmware and management move SYS_EVR_RD_IDX and nothing else of the ring (R37). -/
theorem State.busWrite_ringRead (s : State) (g : Byte) (v : Word) (hg : g = 0 ∨ g = 0x70) :
    (s.busWrite g 0x108 4 v).g Reg.SYS_EVR_RD_IDX = v.toNat % 4096 ∧
      (s.busWrite g 0x108 4 v).g Reg.SYS_EVR_WR_IDX = s.g Reg.SYS_EVR_WR_IDX ∧ (s.busWrite g 0x108 4 v).mem = s.mem := by
  have ht : regSpecAt 0x108 = some ⟨0x108, 1, 4, false, [⟨0, 12, .fwmg, 0, .por⟩]⟩ := by decide +kernel
  have hj : s.agentJob g.toNat = none := by rcases hg with rfl | rfl <;> rfl
  have hmay : s.mayWrite g.toNat .fwmg = true := by rcases hg with rfl | rfl <;> simp [State.mayWrite, isFw]
  have hfld := s.get_writeSeen (s.peek 0x108).toNat g.toNat v.toNat ht (List.mem_singleton_self _) (by decide)
  rw [s.busWrite_sys g v (by decide +kernel) (by decide) hj]
  refine ⟨hfld.trans ?_, ?_, s.writeSeen_mem ..⟩
  · simp [State.written, hmay, FieldSpec.get, bits]
  · rw [State.g, s.reg_writeSeen_other _ _ _ (by decide) (by decide), State.g]

/-- SYS_ID_PART is read-only. -/
theorem State.busWrite_idPart (s : State) (v : Word) : (s.busWrite 0x70 0 4 v).reg 0 = s.reg 0 ∧ (s.busWrite 0x70 0 4 v).mem = s.mem := by
  have ht : regSpecAt 0 = some ⟨0, 1, 4, false, [⟨0, 16, .ro, 0x7160, .por⟩, ⟨16, 4, .ro, 1, .por⟩, ⟨20, 4, .ro, 2, .por⟩, ⟨24, 1, .ro, 0, .por⟩]⟩ := by
    decide +kernel
  rw [s.busWrite_sys 0x70 v (by decide +kernel) (by decide) s.agentJob_mg]
  refine ⟨?_, s.writeSeen_mem ..⟩
  rw [s.reg_writeSeen_same _ _ _ ht (by decide)]
  exact s.putWord_readOnly _ _ _ (by decide)

theorem State.regRead_unmapped (s : State) (agent : Nat) {a w : Nat} (h : w ≠ 4 ∨ isReg a = false) :
    s.regRead agent a w = (0, s.unmapped agent a false) := by
  unfold State.regRead
  exact if_pos (by simpa using h)

/-- Settles O15: `State.get_writeSeen` gives each field, `State.writeIgnored_iff` the count, and the `unmapped` lemmas the record. -/
theorem registerWritesGoFieldByField : Obligations.RegisterWritesGoFieldByField := by
  refine ⟨fun s a v hs hw hr hf hd hj => ?_, fun s w g a v t f ht hf hi => ?_, fun s w g a v t ht hi hv => ?_, fun s v g hs hg => ?_,
    fun s v hs => ?_, fun s a v hs h => ?_, fun s a hs hj h => ?_⟩
  · rw [exec_registerWrite hs, hw, s.busWrite_plain a.agent v hr hf hd hj]
  · exact s.get_writeSeen w g v ht hf hi
  · have hcnt : (s.setReg a (s.putWord g a v t)).g Reg.SYS_WR_IGN_CNT = s.g Reg.SYS_WR_IGN_CNT := by
      rw [State.g, s.reg_setReg_other _ (Ne.symm hi), State.g]
    rw [s.writeSeen_eq w g v ht]
    simp only [← s.writeIgnored_iff w g t hv]
    split
    · rw [State.ignore, State.inc, State.g_addc_same _ _ _ rfl rfl, hcnt]
    · exact hcnt
  · obtain ⟨hrd, hwr, hmem⟩ := s.busWrite_ringRead g v hg
    refine ⟨_, exec_registerWrite hs _ _, ?_⟩
    exact ⟨(State.settle_g ..).trans hrd, (State.settle_g ..).trans hwr, (State.settle_mem ..).trans hmem⟩
  · obtain ⟨hreg, hmem⟩ := s.busWrite_idPart v
    refine ⟨_, exec_registerWrite hs _ _, ?_⟩
    exact ⟨(State.settle_reg ..).trans hreg, (State.settle_mem ..).trans hmem⟩
  · refine ⟨_, exec_registerWrite hs _ _, ?_⟩
    rw [s.busWrite_unmapped a.agent v h]
    exact ⟨(State.settle_g ..).trans (s.unmapped_cnt ..), (State.settle_g ..).trans (s.unmapped_lo ..),
      (State.settle_g ..).trans (s.unmapped_hi _ _ _ a.addr.isLt), (State.settle_g ..).trans (s.unmapped_agent _ _ _ a.agent.isLt),
      (State.settle_g ..).trans (s.unmapped_write ..), (State.settle_mem ..).trans (s.unmapped_mem ..),
      fun b h0 h1 h2 => (State.settle_reg ..).trans (s.reg_unmapped_other _ _ _ h0 h1 h2)⟩
  · have hlog := State.readLog_no_job hj (s.regRead_unmapped a.agent.toNat h) (s.unmapped_readOut ..)
    refine ⟨_, exec_rcCounterRead hs _, ?_⟩
    rw [hlog, State.settle_readOut, State.settle_g, State.settle_g, State.settle_mem, State.logRead_readOut, State.logRead_g, State.logRead_g,
      State.logRead_mem, s.unmapped_readOut]
    exact ⟨rfl, s.unmapped_cnt .., s.unmapped_write .., s.unmapped_mem ..⟩

end Sys2Proof.Machine
end

section
/-!
What leaving POR shows, and what the loft cache's drop and a debug session's close can change: the parts that resets are made of (R10, R55, R450, R461).
-/
namespace Sys2Proof.Machine

open Sys2Proof (Byte Word)

/-! ### Updates of registers alone -/

/-- `t` is `s` with other registers, where those that `P` names hold what they held. -/
structure State.RegsFrom (P : Nat → Prop) (s t : State) : Prop where
  rest : ∃ r, t = { s with regs := r }
  kept : ∀ a, P a → t.reg a = s.reg a

namespace State.RegsFrom

variable {P : Nat → Prop} {s t u : State}

theorem refl (s : State) : State.RegsFrom P s s := ⟨⟨s.regs, rfl⟩, fun _ _ => rfl⟩

theorem trans (h : State.RegsFrom P s t) (k : State.RegsFrom P t u) : State.RegsFrom P s u := by
  refine ⟨?_, fun a ha => (k.kept a ha).trans (h.kept a ha)⟩
  obtain ⟨r, rfl⟩ := h.rest
  obtain ⟨r', rfl⟩ := k.rest
  exact ⟨r', rfl⟩

/-- A field of a register that `P` does not name is set. -/
theorem p (s : State) (F : Fld) (v : Nat) (h : ¬P F.addr) : State.RegsFrom P s (s.p F v) :=
  ⟨⟨_, rfl⟩, fun _ ha => s.reg_p_other F v fun e => h (e ▸ ha)⟩

theorem then_p (h : State.RegsFrom P s t) (F : Fld) (v : Nat) (hF : ¬P F.addr) : State.RegsFrom P s (t.p F v) := h.trans (p t F v hF)

/-- A field of any register is set. -/
theorem then_any (h : State.RegsFrom (fun _ => False) s t) (F : Fld) (v : Nat) : State.RegsFrom (fun _ => False) s (t.p F v) :=
  h.then_p F v id

theorem foldl {α : Type} {g : State → α → State} (hg : ∀ t x, State.RegsFrom P t (g t x)) :
    ∀ (l : List α) (s : State), State.RegsFrom P s (l.foldl g s)
  | [], s => refl s
  | x :: l, s => (hg s x).trans (foldl hg l (g s x))

theorem boot (h : State.RegsFrom P s t) : t.boot = s.boot := by obtain ⟨r, rfl⟩ := h.rest; rfl
theorem mem (h : State.RegsFrom P s t) : t.mem = s.mem := by obtain ⟨r, rfl⟩ := h.rest; rfl
theorem flash (h : State.RegsFrom P s t) : t.flash = s.flash := by obtain ⟨r, rfl⟩ := h.rest; rfl

theorem g (h : State.RegsFrom P s t) {F : Fld} (hF : P F.addr) : t.g F = s.g F := by
  rw [State.g, h.kept _ hF, State.g]

end State.RegsFrom

/-- The retirement record shows in frond registers only. -/
theorem State.recordRegs_regsFrom (s : State) (f : Fin 6) : State.RegsFrom (· < 0x100000) s (s.recordRegs f) := by
  unfold State.recordRegs
  dsimp only
  refine .trans (t := s.p (Reg.SIG_PRESENT f) (s.coresLeft f)) (.p _ _ _ (by simp only [Reg.SIG_PRESENT]; omega)) ?_
  refine .trans ?_ (.foldl (fun t c => ?_) _ _)
  · split
    · exact (State.RegsFrom.p _ _ _ (by simp only [Reg.ARR_SPARE_STS_MASK_ROW]; omega)).then_p _ _
        (by simp only [Reg.ARR_SPARE_STS_MASKED]; omega)
    · exact .refl _
  · generalize (State.coresLeft _ _).testBit c = left
    cases left with
    | true => exact .refl _
    | false => exact .p _ _ _ (by simp only [Reg.SIG_Cc_STS_STATE]; omega)

theorem State.recordFronds_regsFrom (s : State) : State.RegsFrom (· < 0x100000) s s.recordFronds :=
  .foldl (fun t f => t.recordRegs_regsFrom f) _ _

/-- What no session shows is two registers of the SEC block. -/
theorem State.dbgIdle_regsFrom (s : State) : State.RegsFrom (fun a => a ≠ 0x1000C ∧ a ≠ 0x10010) s s.dbgIdle := by
  unfold State.dbgIdle
  exact ((((State.RegsFrom.p _ _ _ (by decide)).then_p _ _ (by decide)).then_p _ _ (by decide)).then_p _ _ (by decide)).then_p _ _ (by decide)

/-- The fuse shadow is registers only. -/
theorem State.fuseRegs_regsFrom (s : State) : State.RegsFrom (fun _ => False) s s.fuseRegs := by
  unfold State.fuseRegs
  dsimp only
  refine .trans (.then_any (.trans ?_ (.foldl (fun t x => (((State.RegsFrom.refl t).then_any _ _).then_any _ _).then_any _ _) _ _)) _ _)
    (.foldl (fun t i => ?_) _ _)
  · iterate 16 refine .then_any ?_ _ _
    exact .refl s
  · have p3 : ∀ (u : State) (F G H : Fld) (x y z : Nat), State.RegsFrom (fun _ => False) u (((u.p F x).p G y).p H z) :=
      fun u F G H x y z => (((State.RegsFrom.refl u).then_any F x).then_any G y).then_any H z
    rcases s.fuses.spareRow.get i with _ | ⟨r, fd⟩ <;> rcases s.fuses.spareCol.get i with _ | ⟨c, fe⟩
    · exact .refl t
    · exact p3 t _ _ _ _ _ _
    · exact p3 t _ _ _ _ _ _
    · exact (p3 t _ _ _ _ _ _).trans (p3 _ _ _ _ _ _ _)

/-! ### Leaving POR -/

theorem State.finishBlowing_boot (s : State) : s.finishBlowing.boot = s.boot := by
  unfold State.finishBlowing
  split
  · rfl
  · split <;> rfl

theorem State.finishBlowing_mem (s : State) : s.finishBlowing.mem = s.mem := by
  unfold State.finishBlowing
  split
  · rfl
  · split <;> rfl

/-- The input levels are registers only. -/
theorem State.pinRegs_regsFrom (s : State) : State.RegsFrom (fun _ => False) s s.pinRegs := by
  unfold State.pinRegs
  dsimp only
  iterate 9 refine .then_any ?_ _ _
  exact .refl s

/-- The sampled straps show (R461). -/
theorem State.pinRegs_straps (s : State) : s.pinRegs.g Reg.SYS_PIN_STS_TEST_MODE = b2n s.boot.testMode ∧
    s.pinRegs.g Reg.SYS_PIN_STS_SMB_ADDR = s.boot.smbAddr.toNat := by
  unfold State.pinRegs
  dsimp only
  constructor
  · rw [State.g_p_other _ _ _ _ (by decide),
      State.g_p_disjoint _ Reg.SYS_PIN_STS_SMB_ADDR Reg.SYS_PIN_STS_TEST_MODE _ (by decide) rfl (by decide),
      State.g_p_same _ _ _ (by decide)]
    cases s.boot.testMode <;> rfl
  · rw [State.g_p_other _ _ _ _ (by decide), State.g_p_same _ _ _ (by decide)]
    exact Nat.mod_eq_of_lt s.boot.smbAddr.isLt

/-- What POR_RELEASE makes of a device whose boot state it has set: the fuse shadow, the pins and the idle debug status. -/
theorem State.release_shows (s : State) :
    (s.finishBlowing.fuseRegs.pinRegs).dbgIdle.boot = s.boot ∧ (s.finishBlowing.fuseRegs.pinRegs).dbgIdle.mem = s.mem ∧
      (s.finishBlowing.fuseRegs.pinRegs).dbgIdle.g Reg.SYS_PIN_STS_TEST_MODE = b2n s.boot.testMode ∧
      (s.finishBlowing.fuseRegs.pinRegs).dbgIdle.g Reg.SYS_PIN_STS_SMB_ADDR = s.boot.smbAddr.toNat := by
  have hfuse := s.finishBlowing.fuseRegs_regsFrom
  have hpin := s.finishBlowing.fuseRegs.pinRegs_regsFrom
  have hdbg := s.finishBlowing.fuseRegs.pinRegs.dbgIdle_regsFrom
  obtain ⟨htest, hsmb⟩ := s.finishBlowing.fuseRegs.pinRegs_straps
  rw [hfuse.boot, s.finishBlowing_boot] at htest hsmb
  refine ⟨?_, ?_, ?_, ?_⟩
  · rw [hdbg.boot, hpin.boot, hfuse.boot, s.finishBlowing_boot]
  · rw [hdbg.mem, hpin.mem, hfuse.mem, s.finishBlowing_mem]
  · rw [hdbg.g (by decide), htest]
  · rw [hdbg.g (by decide), hsmb]

/-! ### The loft cache (R312, R414) -/

/-- A fold whose steps change memory only. -/
theorem foldl_mem_shape {α : Type} {g : State → α → State} (hg : ∀ t x, ∃ m, g t x = { t with mem := m }) :
    ∀ (l : List α) (t : State), ∃ m, l.foldl g t = { t with mem := m }
  | [], t => ⟨t.mem, rfl⟩
  | x :: l, t => by
    obtain ⟨m, h⟩ := hg t x
    rw [List.foldl_cons, h]
    exact foldl_mem_shape hg l _

/-- The loft cache drops out of the memory units, and the barn's bytes come back. -/
theorem State.loftDrop_shape (s : State) : ∃ m x, s.loftDrop = { s with mem := m, mems := x } := by
  obtain ⟨m, h⟩ : ∃ m, s.loftDrop = { s with mem := m, mems := { s.mems with loft := [] } } :=
    foldl_mem_shape (fun t e => by
      split
      · exact ⟨_, rfl⟩
      · exact ⟨t.mem, rfl⟩) s.mems.loft { s with mems := { s.mems with loft := [] } }
  exact ⟨m, _, h⟩

/-! ### The close of a debug session (R450) -/

/-- The registers that the close of a debug session can change: the event's and the session's status. -/
def closeRegs : List Nat := 0x1000C :: 0x10010 :: eventRegs

/-- The close of a debug session changes the security state and the idle status, and raises an event (R450). -/
theorem State.closeDebug_shape (s : State) (c : Nat) : ∃ r m p x h f g y, s.closeDebug c =
    { s with regs := r, mem := m, poison := p, mems := x, hold := h, flt := f, mg := g, sec := y } := by
  unfold State.closeDebug
  split
  · exact ⟨_, _, _, _, _, _, _, _, rfl⟩
  · generalize hu : ({ s with sec := _ } : State) = u
    obtain ⟨r, m, p, x, h, f, g, he⟩ := u.dbgIdle.raise_shape 0x0D03 0x01 0xFF c
    obtain ⟨r', hd⟩ := u.dbgIdle_regsFrom.rest
    refine ⟨r, m, p, x, h, f, g, u.sec, ?_⟩
    rw [State.ev, he, hd, ← hu]

theorem State.closeDebug_reg (s : State) (c : Nat) {a : Nat} (h : a ∉ closeRegs) : (s.closeDebug c).reg a = s.reg a := by
  simp only [closeRegs, List.mem_cons, not_or] at h
  obtain ⟨h0, h1, he⟩ := h
  unfold State.closeDebug
  split
  · rfl
  · rw [State.ev, State.raise_reg he, State.RegsFrom.kept (State.dbgIdle_regsFrom _) a ⟨h0, h1⟩]
    rfl

end Sys2Proof.Machine
end

section
/-!
Entering WARM: the device as a WARM reset leaves it (R10, R389, R459, R460).
-/
namespace Sys2Proof.Machine

open Sys2Proof (Byte Word)

/-! ### What the debug status and a session's close leave -/

section close

variable (s : State)

@[simp] theorem State.dbgIdle_boot : s.dbgIdle.boot = s.boot := by obtain ⟨_, h⟩ := s.dbgIdle_regsFrom.rest; rw [h]
@[simp] theorem State.dbgIdle_image : s.dbgIdle.image = s.image := by obtain ⟨_, h⟩ := s.dbgIdle_regsFrom.rest; rw [h]
@[simp] theorem State.dbgIdle_jobs : s.dbgIdle.jobs = s.jobs := by obtain ⟨_, h⟩ := s.dbgIdle_regsFrom.rest; rw [h]
@[simp] theorem State.dbgIdle_domA : s.dbgIdle.domA = s.domA := by obtain ⟨_, h⟩ := s.dbgIdle_regsFrom.rest; rw [h]
@[simp] theorem State.dbgIdle_domB : s.dbgIdle.domB = s.domB := by obtain ⟨_, h⟩ := s.dbgIdle_regsFrom.rest; rw [h]
@[simp] theorem State.dbgIdle_pps : s.dbgIdle.pps = s.pps := by obtain ⟨_, h⟩ := s.dbgIdle_regsFrom.rest; rw [h]
@[simp] theorem State.dbgIdle_flash : s.dbgIdle.flash = s.flash := by obtain ⟨_, h⟩ := s.dbgIdle_regsFrom.rest; rw [h]

@[simp] theorem State.closeDebug_boot (c : Nat) : (s.closeDebug c).boot = s.boot := by
  obtain ⟨_, _, _, _, _, _, _, _, h⟩ := s.closeDebug_shape c; rw [h]
@[simp] theorem State.closeDebug_image (c : Nat) : (s.closeDebug c).image = s.image := by
  obtain ⟨_, _, _, _, _, _, _, _, h⟩ := s.closeDebug_shape c; rw [h]
@[simp] theorem State.closeDebug_jobs (c : Nat) : (s.closeDebug c).jobs = s.jobs := by
  obtain ⟨_, _, _, _, _, _, _, _, h⟩ := s.closeDebug_shape c; rw [h]
@[simp] theorem State.closeDebug_domA (c : Nat) : (s.closeDebug c).domA = s.domA := by
  obtain ⟨_, _, _, _, _, _, _, _, h⟩ := s.closeDebug_shape c; rw [h]
@[simp] theorem State.closeDebug_domB (c : Nat) : (s.closeDebug c).domB = s.domB := by
  obtain ⟨_, _, _, _, _, _, _, _, h⟩ := s.closeDebug_shape c; rw [h]
@[simp] theorem State.closeDebug_pps (c : Nat) : (s.closeDebug c).pps = s.pps := by
  obtain ⟨_, _, _, _, _, _, _, _, h⟩ := s.closeDebug_shape c; rw [h]
@[simp] theorem State.closeDebug_flash (c : Nat) : (s.closeDebug c).flash = s.flash := by
  obtain ⟨_, _, _, _, _, _, _, _, h⟩ := s.closeDebug_shape c; rw [h]

theorem State.closeDebug_dbgIdle_reg (c : Nat) {a : Nat} (h : a ∉ closeRegs) : (s.closeDebug c).dbgIdle.reg a = s.reg a := by
  have hc := h
  simp only [closeRegs, List.mem_cons, not_or] at hc
  obtain ⟨h0, h1, -⟩ := hc
  rw [(State.dbgIdle_regsFrom _).kept a ⟨h0, h1⟩, s.closeDebug_reg c h]

theorem State.closeDebug_dbgIdle_g (c : Nat) {F : Fld} (h : F.addr ∉ closeRegs) : (s.closeDebug c).dbgIdle.g F = s.g F := by
  rw [State.g, s.closeDebug_dbgIdle_reg c h, State.g]

end close

/-! ### Entering WARM -/

/-- A field that a WARM restores reads its reset value after it (R10, R11). -/
theorem State.g_resetRegs_warm (s : State) (F : Fld) (f : FieldSpec) (hf : (regSpecAt F.addr).any (fun t => t.fields.contains f) = true)
    (hlo : f.lo = F.lo) (hw : f.width = F.width) (hsrc : f.src ≠ .por) : (s.resetRegs .warm (fun _ => true)).g F = f.reset := by
  obtain ⟨t, ht, hmem⟩ := (Option.any_eq_true _ _).mp hf
  have hrank : f.src.rank ≤ Src.rank .warm := by cases hs : f.src <;> simp_all [Src.rank]
  have h := s.get_reg_resetRegs .warm (fun _ => true) ht (List.contains_iff_mem.mp hmem)
  rw [if_pos ⟨rfl, hrank⟩] at h
  rw [State.g, ← hlo, ← hw]
  exact h

/-- The device as a WARM reset leaves it: held, without image and jobs, its time at the reset value and its outputs released. -/
structure State.WarmEntered (s t : State) : Prop where
  phase : t.boot.phase = .warm
  warmN : t.boot.warmN = s.boot.warmN
  warmCause : t.boot.warmCause = s.boot.warmCause
  barnOk : t.boot.barnOk = false
  image : t.image = none
  jobs : t.jobs = Vector.replicate 16 Job.none
  domA : t.domA = Domain.reset
  domB : t.domB = Domain.reset
  pps : t.pps = State.reset.pps
  flash : t.flash = s.flash
  state : t.g Reg.PWR_STS_STATE = 0
  capAlarm : t.g Reg.SYS_PIN_STS_CAP_ALARM = 0
  trip : t.g Reg.SYS_PIN_STS_TRIP = 0

/-- The registers of the device block that a WARM restores: the loft cache and the retirement record touch none of them. -/
theorem State.warmRegs_reg (s : State) {a : Nat} (ha : a < 0x100000) :
    (s.loftDrop.resetRegs .warm (fun _ => true)).recordFronds.reg a = (s.resetRegs .warm (fun _ => true)).reg a := by
  rw [(State.recordFronds_regsFrom _).kept a ha]
  obtain ⟨m, x, hl⟩ := s.loftDrop_shape
  rw [hl]
  rfl

theorem State.warmRegs_keeps (s : State) : (s.loftDrop.resetRegs .warm (fun _ => true)).recordFronds.boot = s.boot ∧
    (s.loftDrop.resetRegs .warm (fun _ => true)).recordFronds.flash = s.flash := by
  rw [(State.recordFronds_regsFrom _).boot, (State.recordFronds_regsFrom _).flash]
  obtain ⟨m, x, hl⟩ := s.loftDrop_shape
  rw [hl]
  exact ⟨rfl, rfl⟩

/-- A device that is not held enters WARM. -/
theorem State.startWarm_warmEntered (s : State) (h : s.held = false) : State.WarmEntered s s.startWarm := by
  have hp : ¬(s.boot.phase = .por ∨ s.boot.phase = .warm) := by simpa [State.held_eq] using h
  have hstate : (s.resetRegs .warm (fun _ => true)).g Reg.PWR_STS_STATE = 0 :=
    s.g_resetRegs_warm _ ⟨0, 2, .ro, 0, .warm⟩ (by decide +kernel) rfl rfl (by decide)
  have halarm : (s.resetRegs .warm (fun _ => true)).g Reg.SYS_PIN_STS_CAP_ALARM = 0 :=
    s.g_resetRegs_warm _ ⟨11, 1, .ro, 0, .warm⟩ (by decide +kernel) rfl rfl (by decide)
  have hreg := fun (a : Nat) (ha : a < 0x100000) => s.warmRegs_reg ha
  obtain ⟨hboot, hflash⟩ := s.warmRegs_keeps
  unfold State.startWarm
  rw [if_neg hp]
  dsimp only
  generalize (s.loftDrop.resetRegs .warm (fun _ => true)).recordFronds = r at hreg hboot hflash
  refine { phase := ?_, warmN := ?_, warmCause := ?_, barnOk := ?_, image := ?_, jobs := ?_, domA := ?_, domB := ?_, pps := ?_, flash := ?_,
           state := ?_, capAlarm := ?_, trip := ?_ }
  · rw [State.p_boot, State.dbgIdle_boot, State.closeDebug_boot]
  · rw [State.p_boot, State.dbgIdle_boot, State.closeDebug_boot, hboot]
  · rw [State.p_boot, State.dbgIdle_boot, State.closeDebug_boot, hboot]
  · rw [State.p_boot, State.dbgIdle_boot, State.closeDebug_boot]
  · rw [State.p_image, State.dbgIdle_image, State.closeDebug_image]
  · rw [State.p_jobs, State.dbgIdle_jobs, State.closeDebug_jobs]
  · rw [State.p_domA, State.dbgIdle_domA, State.closeDebug_domA]
  · rw [State.p_domB, State.dbgIdle_domB, State.closeDebug_domB]
  · rw [State.p_pps, State.dbgIdle_pps, State.closeDebug_pps]
  · rw [State.p_flash, State.dbgIdle_flash, State.closeDebug_flash]
    exact hflash
  · rw [State.g_p_other _ _ _ _ (by decide), State.closeDebug_dbgIdle_g _ _ (by decide), ← hstate, State.g, State.g,
      ← hreg _ (by decide)]
    rfl
  · rw [State.g_p_disjoint _ Reg.SYS_PIN_STS_TRIP Reg.SYS_PIN_STS_CAP_ALARM _ (by decide) rfl (by decide),
      State.closeDebug_dbgIdle_g _ _ (by decide), ← halarm, State.g, State.g, ← hreg _ (by decide)]
    rfl
  · exact State.g_p_same _ _ _ (by decide)

end Sys2Proof.Machine
end

section
/-!
The reset inputs: POR_N, WARM_N and the rails, and the output balls in each reset (R55, R459, R460, R464).
-/
namespace Sys2Proof.Machine

open Sys2Proof (Byte Word)

/-! ### Leaving WARM -/

/-- With no cause left the start sequence runs again; a life-cycle change owed is reported by an event (R453). -/
theorem State.endWarm_starts (s : State) (hp : s.boot.phase = .warm) (hn : s.boot.warmN = true) (hc : s.boot.warmCause = false)
    (hh : s.boot.hotWait = false) : s.endWarm.boot = { s.boot with phase := .starting } ∧ s.endWarm.fuses = s.fuses ∧
      s.endWarm.flash = s.flash ∧ ∀ F : Fld, F.addr ∉ eventRegs → s.endWarm.g F = s.g F := by
  unfold State.endWarm
  rw [if_pos ⟨hp, hn, hc, hh⟩]
  dsimp only
  split
  · refine ⟨by rw [State.ev_boot], by rw [State.ev_fuses], by rw [State.ev_flash], fun F hF => ?_⟩
    rw [State.ev_g hF]
    rfl
  · exact ⟨rfl, rfl, rfl, fun F _ => rfl⟩

/-! ### Output balls (R464) -/

/-- In WARM no transmitter is fed; the flash is driven and the barn parts are in reset. -/
theorem State.WarmEntered.balls {s t : State} (h : State.WarmEntered s t) : t.balls.ppsOut = false ∧ t.balls.capAlarm = false ∧
    t.balls.trip = false ∧ t.balls.xspiDriven = true ∧ t.balls.brnReset = true ∧ t.balls.fhActive = [] ∧ t.balls.rzActive = [] ∧
    t.balls.mgActive = false := by
  have hfed : t.portsFed = false := by simp [State.portsFed, h.phase]
  unfold State.balls
  simp [hfed, h.phase, h.state, h.barnOk, h.pps, State.on, h.capAlarm, h.trip, State.reset]

/-- In KEEP the flash is released and in reset, the barn parts are not, and no port transmits. -/
theorem State.balls_keep (s : State) (hp : s.boot.phase ≠ .por) (hk : s.g Reg.PWR_STS_STATE = 2) : s.balls.xspiDriven = false ∧
    s.balls.xspiReset = true ∧ s.balls.brnReset = false ∧ s.balls.fhActive = [] ∧ s.balls.rzActive = [] := by
  have hfed : s.portsFed = false := by simp [State.portsFed, hk]
  unfold State.balls
  simp [hfed, hp, hk]

/-- In SAFE the management port alone transmits. -/
theorem State.balls_safe (s : State) (hp : s.boot.phase = .safe) : s.balls.fhActive = [] ∧ s.balls.rzActive = [] ∧ s.balls.mgActive = true := by
  have hfed : s.portsFed = false := by simp [State.portsFed, hp]
  unfold State.balls
  simp [hfed, hp]

theorem State.enterPor_balls (s : State) : s.enterPor.balls = ⟨false, false, false, false, false, true, true, [], [], false⟩ := by
  have hreg : ∀ F : Fld, s.enterPor.g F = State.reset.g F := fun F => rfl
  have hphase : s.enterPor.boot.phase = .por := rfl
  have hfed : s.enterPor.portsFed = false := by simp [State.portsFed, hphase]
  have halarm : State.reset.g Reg.SYS_PIN_STS_CAP_ALARM = 0 := by decide +kernel
  have htrip : State.reset.g Reg.SYS_PIN_STS_TRIP = 0 := by decide +kernel
  unfold State.balls
  simp [hfed, hphase, hreg, State.on, halarm, htrip]
  exact ⟨rfl, rfl⟩

/-! ### The settled state -/

theorem State.settle_warmEntered {s t u : State} (h : State.WarmEntered s t) : State.WarmEntered s (u.settle t) := by
  obtain ⟨h1, h2, h3, h4, h5, h6, h7, h8, h9, h10, h11, h12, h13⟩ := h
  exact ⟨h1, h2, h3, h4, h5, h6, h7, h8, h9, h10, (State.settle_g ..).trans h11, (State.settle_g ..).trans h12, (State.settle_g ..).trans h13⟩

/-- In WARM the crossings are empty. -/
theorem State.settle_cross_warm {s t : State} (h : t.boot.phase = .warm) : (s.settle t).cross = [] := by
  rw [State.settle_cross, if_pos (by simp [State.held_eq, h])]

theorem State.settle_balls (s t : State) : (s.settle t).balls = t.balls := rfl

/-! ### The commands -/

theorem actPin_eq {f : State → State} {s t : State} (h : f s = t) : actPin f s = .next (s.settle t) := by rw [actPin_next, h]

theorem exec_porAssert (s : State) : exec .porAssert s = .next (s.settle s.enterPor) := rfl

/-- The boot state that POR_RELEASE sets: the sampled straps, and the start sequence or, with WARM_N low, WARM. -/
def State.released (s : State) (testMode : Bool) (smbAddr : BitVec 3) : State :=
  { s with boot := { s.boot with porN := true, testMode := testMode, smbAddr := smbAddr,
                                 phase := (if s.boot.warmN then .starting else .warm) } }

theorem exec_porRelease {s : State} (h : s.boot.phase = .por) (m : Bool) (a : BitVec 3) :
    exec (.porRelease m a) s = .next (s.settle ((s.released m a).finishBlowing.fuseRegs.pinRegs).dbgIdle) := by
  change execPorRelease m a s = _
  exact actPin_eq (if_pos h)

/-- The state that WARM_N sets before it acts: the level, and what SYS_PIN_STS shows of it. -/
def State.warmNSet (s : State) (high : Bool) : State :=
  ({ s with boot := { s.boot with warmN := high } }).p Reg.SYS_PIN_STS_WARM_N (b2n high)

theorem exec_warmNAssert {s : State} (h : s.boot.phase ≠ .por) : exec .warmNAssert s = .next (s.settle (s.warmNSet false).startWarm) := by
  change execWarmNAssert s = _
  exact actPin_eq (if_neg h)

theorem exec_warmNRelease {s : State} (h : s.boot.phase ≠ .por) : exec .warmNRelease s = .next (s.settle (s.warmNSet true).endWarm) := by
  change execWarmNRelease s = _
  exact actPin_eq (if_neg h)

/-- The boot state that a low rail sets before it acts. -/
def State.railFell (s : State) (rail : Fin 8) : State :=
  { s with boot := { s.boot with railLow := s.boot.railLow ||| BitVec.ofNat 8 (1 <<< rail.val), warmCause := true } }

/-- What SYS_RAIL_STS shows of a low rail. -/
def State.railShown (s : State) (rail : Fin 8) : State :=
  (s.p Reg.SYS_RAIL_STS_LOW_STK (s.g Reg.SYS_RAIL_STS_LOW_STK ||| 1 <<< rail.val)).p Reg.SYS_RAIL_STS_OK (255 - s.boot.railLow.toNat)

theorem exec_railLow {s : State} (h : s.boot.phase ≠ .por) (rail : Fin 8) :
    exec (.railLow rail) s = .next (s.settle ((s.railFell rail).startWarm.railShown rail)) := by
  change execRailLow rail s = _
  exact actPin_eq (if_neg h)

/-- The sticky bit of the rail is set. -/
theorem State.railShown_sticky (s : State) (rail : Fin 8) : ((s.railShown rail).g Reg.SYS_RAIL_STS_LOW_STK).testBit rail.val = true := by
  unfold State.railShown
  rw [State.g_p_disjoint _ Reg.SYS_RAIL_STS_OK Reg.SYS_RAIL_STS_LOW_STK _ (by decide) rfl (by decide), State.g_p_same _ _ _ (by decide),
    show Reg.SYS_RAIL_STS_LOW_STK.width = 8 from rfl, Nat.testBit_mod_two_pow, Nat.testBit_or, Nat.testBit_shiftLeft]
  simp [rail.isLt]

/-- The state that recovered rails set before they act. -/
def State.railsBack (s : State) : State := ({ s with boot := { s.boot with railLow := 0, warmCause := false } }).p Reg.SYS_RAIL_STS_OK 255

theorem exec_railRecovered {s : State} (h : s.boot.phase ≠ .por) : exec .railRecovered s = .next (s.settle s.railsBack.endWarm) := by
  change execRailRecovered s = _
  exact actPin_eq (if_neg h)

/-- Settles O5: entering WARM is `State.startWarm_warmEntered`, leaving it `State.endWarm_starts`, leaving POR `State.release_shows`, and
the balls are read off the state each of them leaves. -/
theorem resetInputsActAsSpecified : Obligations.ResetInputsActAsSpecified := by
  have hpor : ∀ s : State, s.held = false → s.boot.phase ≠ .por := fun s hs hp => by simp [State.held_eq, hp] at hs
  refine ⟨fun s => ?_, fun s m a hp => ?_, fun s hs => ?_, fun s hp hc hh => ?_, fun s r hs => ?_, fun s hp hn hh => ?_,
    State.balls_keep, State.balls_safe⟩
  · exact ⟨_, exec_porAssert s, rfl, rfl, rfl, rfl, rfl, rfl, rfl, s.enterPor_balls⟩
  · obtain ⟨hboot, hmem, htest, hsmb⟩ := (s.released m a).release_shows
    refine ⟨_, exec_porRelease hp m a, ?_⟩
    rw [State.settle_boot, State.settle_g, State.settle_g, State.settle_mem, hboot, hmem, htest, hsmb]
    exact ⟨rfl, rfl, rfl, rfl, rfl⟩
  · have hw := State.settle_warmEntered (u := s) ((s.warmNSet false).startWarm_warmEntered hs)
    refine ⟨_, exec_warmNAssert (hpor s hs), hw.phase, hw.warmN, hw.image, hw.jobs, hw.domA, hw.domB, ?_, hw.flash, hw.balls⟩
    exact State.settle_cross_warm hw.phase
  · obtain ⟨hboot, hfuses, hflash, hg⟩ := (s.warmNSet true).endWarm_starts hp rfl hc hh
    refine ⟨_, exec_warmNRelease (by simp [hp]), ?_⟩
    rw [State.settle_boot, State.settle_g, State.settle_fuses, State.settle_flash, hboot, hfuses, hflash, hg _ (by decide)]
    exact ⟨rfl, rfl, State.g_p_same _ _ _ (by decide), rfl, rfl⟩
  · have hw := (s.railFell r).startWarm_warmEntered hs
    refine ⟨_, exec_railLow (hpor s hs) r, hw.phase, hw.warmCause, ?_, hw.image, hw.jobs, hw.flash⟩
    rw [State.settle_g]
    exact State.railShown_sticky _ r
  · obtain ⟨hboot, hfuses, hflash, hg⟩ := s.railsBack.endWarm_starts hp hn rfl hh
    refine ⟨_, exec_railRecovered (by simp [hp]), ?_⟩
    rw [State.settle_boot, State.settle_g, State.settle_fuses, State.settle_flash, hboot, hfuses, hflash, hg _ (by decide)]
    exact ⟨rfl, rfl, State.g_p_same _ _ _ (by decide), rfl, rfl⟩

end Sys2Proof.Machine
end

section
/-!
The record of a rejected pass command (R90): ARR_CMD_ERR.SEQ_LO holds SEQ bits [15:0] of the command, not its whole number.
-/
namespace Sys2Proof.Machine

/-- A pass command of number 0x10000, none of whose bits lies in SEQ [15:0], with the reserved OP 7 (R90 code 1). -/
def wideSeqCmd : PassCmd :=
  { pane := 0, op := 7, fmtS := 0, fmtT := 0, newstat := false, conjT := false, transT := false, accInc := false, lastK := false,
    stat := 0, strm := 0, pitch := 0, stride := 0, blocks := 0, tile := 0, mValid := 0, nValid := 0, kValid := 0, zpS := 0, zpT := 0,
    seq := 0x10000, rsvd := false, stream := 0, pos := 0 }

/-- A started device whose frond 0 has that command at the head of its queue and the pass before it, run in pane 0, not yet complete. -/
def wideSeqRejected : State :=
  { State.reset with
    boot := { State.reset.boot with phase := .started, porN := true, warmN := true }
    fronds := State.reset.fronds.set 0 { Frond.idle with
      arr := { Frond.idle.arr with
        queue := [wideSeqCmd]
        panes := Frond.idle.arr.panes.set 0 { Pane.empty with ran := [{ wideSeqCmd with op := 1, seq := 0xFFFF }] } } } }

/-- The command is rejected as the first one, and SEQ_LO reads 0. -/
theorem wideSeqRejected_record : ∃ t, exec (.passDispatch 0) wideSeqRejected = .next t ∧
    t.g (Reg.ARR_CMD_ERR_CODE (0 : Fin 6)) = 1 ∧ t.g (Reg.ARR_CMD_ERR_SEQ_LO (0 : Fin 6)) = 0 :=
  ⟨_, rfl, by decide +kernel, by decide +kernel⟩

/-- Refutes O41: its clause on the record of the first rejected command has SEQ_LO show `c.seq % 2 ^ 32`, but the field is the 16 bits
[31:16] of ARR_CMD_ERR (R90), so a command of number 0x10000 is recorded as 0. -/
theorem not_panePlansDispatchLoadsAndCompletions : ¬ Obligations.PanePlansDispatchLoadsAndCompletions := by
  rintro ⟨-, -, -, -, -, -, -, hreject, -⟩
  obtain ⟨t, ht, -, -, -, hfirst, -⟩ := hreject wideSeqRejected 0 wideSeqCmd [] (by decide +kernel) (by decide +kernel) (by decide +kernel)
    (by decide +kernel) (by decide +kernel) (by decide +kernel)
  obtain ⟨-, -, hclaimed⟩ := hfirst (by decide +kernel)
  obtain ⟨u, hu, -, hshown⟩ := wideSeqRejected_record
  obtain rfl : t = u := Host.Outcome.next.inj (ht.symm.trans hu)
  exact absurd (hclaimed.symm.trans hshown) (by decide)

end Sys2Proof.Machine
end

section
/-!
Memory that a store at run time writes: what it reads as, and which counters the banks' waking raises (R6, R302, R306).
-/
namespace Sys2Proof.Machine

open Sys2Proof (Byte)

/-! ### Bytes read in a row -/

@[simp] theorem State.ld_length (s : State) : ∀ a n, (s.ld a n).length = n
  | _, 0 => rfl
  | a, n + 1 => by rw [State.ld, List.length_cons, State.ld_length s (a + 1) n]

theorem State.getElem_ld (s : State) : ∀ (a n i : Nat) (h : i < (s.ld a n).length), (s.ld a n)[i] = s.ld1 (a + i)
  | _, _ + 1, 0, _ => rfl
  | a, n + 1, i + 1, h => by
    simp only [State.ld, List.getElem_cons_succ]
    rw [State.getElem_ld s (a + 1) n i, Nat.add_right_comm, Nat.add_assoc]

/-- A range reads the same in two states that agree on each of its bytes. -/
theorem State.ld_congr {s t : State} {a n : Nat} (h : ∀ i < n, s.ld1 (a + i) = t.ld1 (a + i)) : s.ld a n = t.ld a n :=
  List.ext_getElem (by simp) fun i hi _ => by
    rw [s.getElem_ld, t.getElem_ld, h i (by simpa using hi)]

/-- Bytes stored at run time read back. -/
theorem State.ld_store_same (s : State) (a : Nat) (bs : List Byte) : (s.store a bs).ld a bs.length = bs :=
  List.ext_getElem (by simp) fun i _ hi => by rw [State.getElem_ld, s.ld1_store_same a i bs hi]

/-! ### What waking and storing leave -/

/-- What every bank's waking keeps, the waking of a range keeps. -/
theorem State.wakeRange_keeps {P : State → Prop} (leaf : ∀ t f k, P t → P (t.wakeLeaf f k)) (bank : ∀ t b, P t → P (t.wakeBank b))
    {s : State} (h : P s) (a n : Nat) : P (s.wakeRange a n) := by
  unfold State.wakeRange
  split
  · exact List.foldlRecOn _ _ h fun t ht i _ => bank t _ ht
  · refine List.foldlRecOn _ _ h fun t ht i _ => ?_
    split
    · exact leaf t _ _ ht
    · exact ht
  · exact leaf s _ _ h
  · exact h

theorem State.wakeLeaf_fronds (s : State) (f k : Nat) : (s.wakeLeaf f k).fronds = s.fronds := by
  unfold State.wakeLeaf
  split <;> rfl

theorem State.wakeBank_fronds (s : State) (b : Nat) : (s.wakeBank b).fronds = s.fronds := by
  unfold State.wakeBank
  split <;> rfl

/-- A store at run time leaves the fronds. -/
@[simp] theorem State.store_fronds (s : State) (a : Nat) (bs : List Byte) : (s.store a bs).fronds = s.fronds := by
  have hw : (s.wakeRange a bs.length).fronds = s.fronds :=
    State.wakeRange_keeps (P := fun t => t.fronds = s.fronds) (fun t f k h => (t.wakeLeaf_fronds f k).trans h)
      (fun t b h => (t.wakeBank_fronds b).trans h) rfl a bs.length
  unfold State.store
  split <;> simp [hw]

/-- The counters that a store at run time can raise (R302, R306). -/
def StoreCounter (c : Nat) : Prop := c = Reg.GRN_WAKE_CNT.addr ∨ c = Reg.GRN_RMW_CNT.addr ∨ ∃ f, c = (Reg.LEAF_WAKE_CNT f).addr

theorem State.reg_wakeLeaf_other (s : State) (f k : Nat) {c : Nat} (h : c ≠ (Reg.LEAF_WAKE_CNT f).addr) :
    (s.wakeLeaf f k).reg c = s.reg c := by
  unfold State.wakeLeaf
  split
  · exact State.reg_addc_other _ _ _ h
  · rfl

theorem State.reg_wakeBank_other (s : State) (b : Nat) {c : Nat} (h : c ≠ Reg.GRN_WAKE_CNT.addr) : (s.wakeBank b).reg c = s.reg c := by
  unfold State.wakeBank
  split
  · exact State.reg_addc_other _ _ _ h
  · rfl

/-- A store at run time leaves every register but its counters. -/
theorem State.reg_store_other (s : State) (a : Nat) (bs : List Byte) {c : Nat} (h : ¬StoreCounter c) : (s.store a bs).reg c = s.reg c := by
  simp only [StoreCounter, not_or, not_exists] at h
  obtain ⟨hbank, hrmw, hleaf⟩ := h
  have hw : (s.wakeRange a bs.length).reg c = s.reg c :=
    State.wakeRange_keeps (P := fun t => t.reg c = s.reg c) (fun t f k h => (t.reg_wakeLeaf_other f k (hleaf f)).trans h)
      (fun t b h => (t.reg_wakeBank_other b hbank).trans h) rfl a bs.length
  unfold State.store
  split
  · rw [State.reg_addc_other _ _ _ hrmw, State.reg_st, hw]
  · rw [State.reg_st, hw]

/-- An agent's write of a register leaves the fronds. -/
@[simp] theorem State.writeSeen_fronds (s : State) (shown agent a v : Nat) : (s.writeSeen shown agent a v).fronds = s.fronds := by
  cases ht : regSpecAt a with
  | none => simp [State.writeSeen, ht]
  | some t =>
    rw [s.writeSeen_eq shown agent v ht]
    split <;> rfl

end Sys2Proof.Machine
end

section
/-!
One scale record at its step end: the fields of the record that SCALE_ADAPT writes (R115, R122).
-/
namespace Sys2Proof.Machine

open Sys2Proof (Byte)

/-! ### Two's complement and clamping -/

theorem clampI_bounds {lo hi : Int} (h : lo ≤ hi) (i : Int) : lo ≤ clampI lo hi i ∧ clampI lo hi i ≤ hi := by
  unfold clampI
  split
  · omega
  · split <;> omega

/-- An integer of eight bits reads back from its two's complement. -/
theorem sx_toBits_byte {i : Int} (h : -128 ≤ i ∧ i ≤ 127) : sx 8 (toBits 8 i) = i := by
  unfold sx toBits
  dsimp only
  split <;> omega

theorem toBits_lt (w : Nat) (i : Int) : toBits w i < 2 ^ w := by
  have hpos : (0 : Int) < (2 ^ w : Nat) := Int.natCast_pos.mpr (Nat.two_pow_pos w)
  have hlt := Int.emod_lt_of_pos i hpos
  have hge := Int.emod_nonneg i (Int.ne_of_gt hpos)
  unfold toBits
  omega

theorem byteAt_lt (bs : List Byte) (o : Nat) : byteAt bs o < 256 := (bs.getD o 0).isLt

/-! ### The record after its step -/

/-- A record with a SHIFT byte and the step's state cleared: MMAX is 0x8000, SAT_STEP and OVR are 0, bit 1 of byte 8 keeps whether
SHIFT was ever clamped, FMT_OUT, ADAPT and the bytes from 9 on stay. -/
def stepCleared (r : List Byte) (shift : Nat) (lim : Bool) : List Byte :=
  toLE 1 shift ++ toLE 1 (byteAt r 1) ++ toLE 2 0x8000 ++ zeros 4 ++
    toLE 1 (setBits (setBits (byteAt r 8) 0 1 0) 1 1 (b2n (lim || (byteAt r 8).testBit 1))) ++ r.drop 9

/-- The SHIFT that R122 gives a record of capacity `c`, before it is clamped. -/
def adaptedShift (r : List Byte) (c : Int) : Int :=
  if c < sclMmax r then sclShift r + min 6 (sclMmax r - c) else if sclMmax r ≤ c - 2 then sclShift r - 1 else sclShift r

section cleared

variable (r : List Byte) (shift : Nat) (lim : Bool)

theorem stepCleared_length (h : r.length = 16) : (stepCleared r shift lim).length = 16 := by
  simp [stepCleared, h]

theorem sclShift_stepCleared {x : Nat} (h : x < 256) : sclShift (stepCleared r x lim) = sx 8 x := by
  change sx 8 (BitVec.ofNat 8 x).toNat = _
  rw [BitVec.toNat_ofNat, Nat.mod_eq_of_lt h]

theorem fmtByte_stepCleared : byteAt (stepCleared r shift lim) 1 = byteAt r 1 := by
  change (BitVec.ofNat 8 (byteAt r 1)).toNat = _
  rw [BitVec.toNat_ofNat, Nat.mod_eq_of_lt (byteAt_lt r 1)]

theorem sclMmax_stepCleared : sclMmax (stepCleared r shift lim) = -32768 := by
  change sx 16 (leOf (toLE 2 0x8000)) = -32768
  decide

theorem satStep_stepCleared : le (stepCleared r shift lim) 4 4 = 0 := rfl

/-- OVR is bit 0 of byte 8. -/
theorem ovr_stepCleared : (byteAt (stepCleared r shift lim) 8).testBit 0 = false := by
  change (BitVec.ofNat 8 (setBits (setBits (byteAt r 8) 0 1 0) 1 1 _)).toNat.testBit 0 = false
  generalize b2n _ = x
  have h0 : bits (setBits (setBits (byteAt r 8) 0 1 0) 1 1 x) 0 1 = 0 := by
    rw [bits_setBits_below _ _ _ _ (by decide), bits_setBits_same, Nat.zero_mod]
  have hodd : ¬setBits (setBits (byteAt r 8) 0 1 0) 1 1 x % 2 = 1 := by
    rw [bits, Nat.shiftRight_zero] at h0
    omega
  rw [BitVec.toNat_ofNat, Nat.testBit_mod_two_pow, Nat.testBit_zero, decide_eq_false hodd, Bool.and_false]

end cleared

/-- A record that adapts takes the SHIFT of R122, clamped. -/
theorem adaptRecord_adapts {r : List Byte} {c : Int} (hadapt : (byteAt r 1).testBit 4 = true)
    (hcap : (outFmt (sclFmt r)).bind capacity = some c) (hmeasured : sclMmax r ≠ -32768) :
    ∃ lim, adaptRecord r = (stepCleared r (toBits 8 (clampI (-128) 127 (adaptedShift r c))) lim, lim) := by
  unfold adaptRecord
  dsimp only
  rw [if_pos ⟨hadapt, hmeasured⟩, hcap]
  exact ⟨_, rfl⟩

/-- A record without ADAPT, without a measure or without a capacity keeps its SHIFT. -/
theorem adaptRecord_keeps {r : List Byte}
    (h : (byteAt r 1).testBit 4 = false ∨ sclMmax r = -32768 ∨ (outFmt (sclFmt r)).bind capacity = none) :
    adaptRecord r = (stepCleared r (byteAt r 0) false, false) := by
  have hnone : (if (byteAt r 1).testBit 4 ∧ sclMmax r ≠ -32768 then (outFmt (sclFmt r)).bind capacity else none) = none := by
    rcases h with h | h | h <;> simp [h]
  unfold adaptRecord
  dsimp only
  rw [hnone]
  rfl

/-- Every record is its old one with the step's state cleared and some SHIFT. -/
theorem adaptRecord_cleared (r : List Byte) : ∃ shift lim, adaptRecord r = (stepCleared r shift lim, lim) := by
  by_cases h : (byteAt r 1).testBit 4 = false ∨ sclMmax r = -32768 ∨ (outFmt (sclFmt r)).bind capacity = none
  · exact ⟨_, _, adaptRecord_keeps h⟩
  · simp only [not_or, Bool.not_eq_false] at h
    obtain ⟨hadapt, hmeasured, hcap⟩ := h
    obtain ⟨c, hc⟩ := Option.ne_none_iff_exists'.mp hcap
    exact ⟨_, adaptRecord_adapts hadapt hc hmeasured⟩

theorem adaptRecord_length {r : List Byte} (h : r.length = 16) : (adaptRecord r).1.length = 16 := by
  obtain ⟨shift, lim, he⟩ := adaptRecord_cleared r
  rw [he, stepCleared_length r shift lim h]

theorem sclShift_adaptRecord {r : List Byte} {c : Int} (hadapt : (byteAt r 1).testBit 4 = true)
    (hcap : (outFmt (sclFmt r)).bind capacity = some c) (hmeasured : sclMmax r ≠ -32768) :
    sclShift (adaptRecord r).1 = clampI (-128) 127 (adaptedShift r c) := by
  obtain ⟨lim, he⟩ := adaptRecord_adapts hadapt hcap hmeasured
  rw [he, sclShift_stepCleared r lim (toBits_lt 8 _), sx_toBits_byte (clampI_bounds (by decide) _)]

theorem sclShift_adaptRecord_keeps {r : List Byte}
    (h : (byteAt r 1).testBit 4 = false ∨ sclMmax r = -32768 ∨ (outFmt (sclFmt r)).bind capacity = none) :
    sclShift (adaptRecord r).1 = sclShift r := by
  rw [adaptRecord_keeps h, sclShift_stepCleared r false (byteAt_lt r 0), sclShift]

/-- Every record starts its next step with nothing measured and keeps its format byte. -/
theorem adaptRecord_starts_step (r : List Byte) : sclMmax (adaptRecord r).1 = -32768 ∧ le (adaptRecord r).1 4 4 = 0 ∧
    (byteAt (adaptRecord r).1 8).testBit 0 = false ∧ byteAt (adaptRecord r).1 1 = byteAt r 1 := by
  obtain ⟨shift, lim, he⟩ := adaptRecord_cleared r
  rw [he]
  exact ⟨sclMmax_stepCleared .., satStep_stepCleared .., ovr_stepCleared .., fmtByte_stepCleared ..⟩

end Sys2Proof.Machine
end

section
/-!
LEAF_SCL_STEP and SCALE_STEP_DONE: the records of a range adapt one after the other and nothing else of memory changes (R122, R123).
-/
namespace Sys2Proof.Machine

open Sys2Proof (Byte Word)

/-! ### One record of a frond -/

/-- The state with one record of a frond adapted: the step of the fold in `State.adaptRange`. -/
def State.adaptAt (s : State) (f k : Nat) : State :=
  let t := s.store (s.sclAt f k) (adaptRecord (s.scl f k)).1
  if (adaptRecord (s.scl f k)).2 then t.inc (Reg.LEAF_SHIFT_LIM_CNT f) else t

theorem State.adaptRange_eq (s : State) (f first last : Nat) :
    s.adaptRange f first last = ((List.range (last + 1 - first)).map (· + first)).foldl (fun t k => t.adaptAt f k) s := rfl

section adaptAt

variable (s : State) (f k : Nat)

@[simp] theorem State.adaptAt_fronds : (s.adaptAt f k).fronds = s.fronds := by
  unfold State.adaptAt
  dsimp only
  split
  · rw [State.inc_fronds, State.store_fronds]
  · rw [State.store_fronds]

theorem State.adaptAt_mem : (s.adaptAt f k).mem = (s.store (s.sclAt f k) (adaptRecord (s.scl f k)).1).mem := by
  unfold State.adaptAt
  dsimp only
  split
  · rw [State.inc_mem]
  · rfl

/-- The record's bytes are the adapted ones. -/
theorem State.ld_adaptAt_same : (s.adaptAt f k).ld (s.sclAt f k) 16 = (adaptRecord (s.scl f k)).1 := by
  have hlen : (adaptRecord (s.scl f k)).1.length = 16 := adaptRecord_length (s.ld_length ..)
  have hst := s.ld_store_same (s.sclAt f k) (adaptRecord (s.scl f k)).1
  rw [hlen] at hst
  refine (State.ld_congr fun i _ => ?_).trans hst
  rw [State.ld1, s.adaptAt_mem, State.ld1]

/-- Every byte outside the record stays. -/
theorem State.ld1_adaptAt_other {a : Nat} (h : ¬(s.sclAt f k ≤ a ∧ a < s.sclAt f k + 16)) : (s.adaptAt f k).ld1 a = s.ld1 a := by
  have hlen : (adaptRecord (s.scl f k)).1.length = 16 := adaptRecord_length (s.ld_length ..)
  rw [State.ld1, s.adaptAt_mem]
  exact s.ld1_store_other (by rwa [hlen])

/-- Every register but the counters of stores and of clamped adaptations stays. -/
theorem State.reg_adaptAt_other {c : Nat} (hs : ¬StoreCounter c) (hl : c ≠ (Reg.LEAF_SHIFT_LIM_CNT f).addr) :
    (s.adaptAt f k).reg c = s.reg c := by
  unfold State.adaptAt
  dsimp only
  split
  · rw [State.inc, State.reg_addc_other _ _ _ hl, s.reg_store_other _ _ hs]
  · exact s.reg_store_other _ _ hs

/-- The table of records stays where it is. -/
theorem State.sclAt_adaptAt (x : Nat) : (s.adaptAt f k).sclAt f x = s.sclAt f x := by
  have hs : ¬StoreCounter (Reg.LEAF_SCL_BASE f).addr := by
    simp only [StoreCounter, Reg.LEAF_SCL_BASE, Reg.GRN_WAKE_CNT, Reg.GRN_RMW_CNT, Reg.LEAF_WAKE_CNT, not_or, not_exists]
    exact ⟨by omega, by omega, fun x => by omega⟩
  rw [State.sclAt, State.g, s.reg_adaptAt_other f k hs (by simp [Reg.LEAF_SCL_BASE, Reg.LEAF_SHIFT_LIM_CNT]), State.sclAt, State.g]

/-- Another record of the frond stays. -/
theorem State.scl_adaptAt_other {x : Nat} (h : x ≠ k) : (s.adaptAt f k).scl f x = s.scl f x := by
  rw [State.scl, s.sclAt_adaptAt, State.scl]
  refine State.ld_congr fun i hi => s.ld1_adaptAt_other f k ?_
  unfold State.sclAt
  omega

end adaptAt

/-! ### The records of a list, one after the other -/

section records

variable (f : Nat)

theorem State.adaptAll_fronds (l : List Nat) (s : State) : (l.foldl (fun t k => t.adaptAt f k) s).fronds = s.fronds :=
  List.foldlRecOn l _ (motive := fun t : State => t.fronds = s.fronds) rfl fun t ht k _ => (t.adaptAt_fronds f k).trans ht

theorem State.sclAt_adaptAll (l : List Nat) (s : State) (x : Nat) : (l.foldl (fun t k => t.adaptAt f k) s).sclAt f x = s.sclAt f x :=
  List.foldlRecOn l _ (motive := fun t : State => t.sclAt f x = s.sclAt f x) rfl fun t ht k _ => (t.sclAt_adaptAt f k x).trans ht

/-- A byte that lies in none of the records stays. -/
theorem State.ld1_adaptAll_other {l : List Nat} {s : State} {a : Nat} (h : ∀ k ∈ l, ¬(s.sclAt f k ≤ a ∧ a < s.sclAt f k + 16)) :
    (l.foldl (fun t k => t.adaptAt f k) s).ld1 a = s.ld1 a := by
  induction l generalizing s with
  | nil => rfl
  | cons k l ih =>
    obtain ⟨hk, hl⟩ := List.forall_mem_cons.mp h
    rw [List.foldl_cons, ih (by simpa only [s.sclAt_adaptAt] using hl), s.ld1_adaptAt_other f k hk]

/-- A record that is not of the list stays. -/
theorem State.scl_adaptAll_other {l : List Nat} {s : State} {x : Nat} (h : x ∉ l) :
    (l.foldl (fun t k => t.adaptAt f k) s).scl f x = s.scl f x :=
  List.foldlRecOn l _ (motive := fun t : State => t.scl f x = s.scl f x) rfl fun t ht k hk =>
    (t.scl_adaptAt_other f k (ne_of_mem_of_not_mem hk h).symm).trans ht

/-- Each record of a list without repetition adapts once, from what it held before. -/
theorem State.scl_adaptAll_mem {l : List Nat} {s : State} {x : Nat} (hl : l.Nodup) (hx : x ∈ l) :
    (l.foldl (fun t k => t.adaptAt f k) s).scl f x = (adaptRecord (s.scl f x)).1 := by
  induction l generalizing s with
  | nil => simp at hx
  | cons k l ih =>
    obtain ⟨hk, hl⟩ := List.nodup_cons.mp hl
    rw [List.foldl_cons]
    by_cases e : x = k
    · subst e
      rw [State.scl_adaptAll_other f hk, State.scl, s.sclAt_adaptAt, s.ld_adaptAt_same]
    · rw [ih hl (List.mem_of_ne_of_mem e hx), s.scl_adaptAt_other f k e]

end records

/-! ### The records of a range -/

section range

variable (s : State) (f first last : Nat)

theorem mem_recordRange {k : Nat} : k ∈ (List.range (last + 1 - first)).map (· + first) ↔ first ≤ k ∧ k ≤ last := by
  simp only [List.mem_map, List.mem_range]
  constructor
  · rintro ⟨i, hi, rfl⟩
    omega
  · rintro ⟨h1, h2⟩
    exact ⟨k - first, by omega, by omega⟩

theorem nodup_recordRange : ((List.range (last + 1 - first)).map (· + first)).Nodup :=
  List.pairwise_map.mpr (List.nodup_range.imp fun hne he => hne (Nat.add_right_cancel he))

theorem State.adaptRange_fronds : (s.adaptRange f first last).fronds = s.fronds := State.adaptAll_fronds ..

theorem State.ld_adaptRange {x : Nat} (h : first ≤ x ∧ x ≤ last) :
    (s.adaptRange f first last).ld (s.sclAt f x) 16 = (adaptRecord (s.ld (s.sclAt f x) 16)).1 := by
  have key := State.scl_adaptAll_mem f (s := s) (nodup_recordRange first last) ((mem_recordRange first last).mpr h)
  rwa [State.scl, State.sclAt_adaptAll, ← State.adaptRange_eq] at key

/-- No byte outside the records of the range changes. -/
theorem State.ld1_adaptRange_other {a : Nat} (h : a < s.sclAt f first ∨ s.sclAt f last + 16 ≤ a) :
    (s.adaptRange f first last).ld1 a = s.ld1 a := by
  rw [State.adaptRange_eq]
  refine State.ld1_adaptAll_other f fun k hk => ?_
  have hk := (mem_recordRange first last).mp hk
  unfold State.sclAt at *
  omega

end range

/-! ### The write of LEAF_SCL_STEP -/

/-- The state in which the write's fields have been taken and GO is 0 again. -/
def State.rangeSet (s : State) (g : Byte) (f : Fin 6) (v : Word) : State :=
  (s.writeFields g.toNat (Reg.LEAF_SCL_STEP_GO f).addr v.toNat).p (Reg.LEAF_SCL_STEP_GO f) 0

theorem sclStepGo_fits (f : Nat) : (Reg.LEAF_SCL_STEP_GO f).lo + (Reg.LEAF_SCL_STEP_GO f).width ≤ 32 := show 17 ≤ 32 by decide

/-- The table of LEAF_SCL_STEP (R127). -/
theorem sclStep_spec (f : Fin 6) : regSpecAt (Reg.LEAF_SCL_STEP_GO f).addr =
    some ⟨0x10A804, 1, 4, true, [⟨0, 8, .fw, 0, .job⟩, ⟨8, 8, .fw, 0, .job⟩, ⟨16, 1, .fw, 0, .job⟩]⟩ := by
  revert f
  decide +kernel

section rangeSet

variable (s : State) (g : Byte) (f : Fin 6) (v : Word)

@[simp] theorem State.rangeSet_mem : (s.rangeSet g f v).mem = s.mem := by
  rw [State.rangeSet, State.p_mem, State.writeFields, State.writeSeen_mem]

@[simp] theorem State.rangeSet_fronds : (s.rangeSet g f v).fronds = s.fronds := by
  rw [State.rangeSet, State.p_fronds, State.writeFields, State.writeSeen_fronds]

theorem State.rangeSet_go : (s.rangeSet g f v).g (Reg.LEAF_SCL_STEP_GO f) = 0 := State.g_p_same _ _ _ (sclStepGo_fits f)

theorem State.rangeSet_ld1 (a : Nat) : (s.rangeSet g f v).ld1 a = s.ld1 a := by rw [State.ld1, State.rangeSet_mem, State.ld1]

theorem State.rangeSet_sclAt (x : Nat) : (s.rangeSet g f v).sclAt f x = s.sclAt f x := by
  have hgo : (Reg.LEAF_SCL_BASE f).addr ≠ (Reg.LEAF_SCL_STEP_GO f).addr := by simp [Reg.LEAF_SCL_BASE, Reg.LEAF_SCL_STEP_GO]
  have hign : (Reg.LEAF_SCL_BASE f).addr ≠ Reg.SYS_WR_IGN_CNT.addr := by
    simp only [Reg.LEAF_SCL_BASE, Reg.SYS_WR_IGN_CNT]
    omega
  rw [State.sclAt, State.rangeSet, State.g_p_other _ _ _ _ hgo, State.g, State.writeFields, s.reg_writeSeen_other _ _ _ hgo hign,
    State.sclAt, State.g]

/-- A field of LEAF_SCL_STEP below GO takes its part of the write by an agent that may make it. -/
theorem State.rangeSet_field (hmay : s.mayWrite g.toNat .fw = true) {lo : Nat} (hlo : lo = 0 ∨ lo = 8) :
    (s.rangeSet g f v).g ⟨(Reg.LEAF_SCL_STEP_GO f).addr, lo, 8⟩ = bits v.toNat lo 8 := by
  have hmem : (⟨lo, 8, .fw, 0, .job⟩ : FieldSpec) ∈
      ([⟨0, 8, .fw, 0, .job⟩, ⟨8, 8, .fw, 0, .job⟩, ⟨16, 1, .fw, 0, .job⟩] : List FieldSpec) := by
    rcases hlo with rfl | rfl <;> decide
  have hign : (Reg.LEAF_SCL_STEP_GO f).addr ≠ Reg.SYS_WR_IGN_CNT.addr := by
    simp only [Reg.LEAF_SCL_STEP_GO, Reg.SYS_WR_IGN_CNT]
    omega
  have hfld := s.get_writeSeen (s.reg (Reg.LEAF_SCL_STEP_GO f).addr).toNat g.toNat v.toNat (sclStep_spec f) hmem hign
  have hbelow : lo + 8 ≤ (Reg.LEAF_SCL_STEP_GO f).lo := by
    change lo + 8 ≤ 16
    omega
  rw [State.rangeSet, State.g_p_disjoint _ _ ⟨_, lo, 8⟩ _ (sclStepGo_fits f) rfl (Or.inr hbelow)]
  refine hfld.trans ?_
  rw [State.written, if_neg (by simp [hmay]), if_neg (by simp)]
  rfl

theorem State.rangeSet_first (hmay : s.mayWrite g.toNat .fw = true) : (s.rangeSet g f v).g (Reg.LEAF_SCL_STEP_FIRST f) = bits v.toNat 0 8 :=
  s.rangeSet_field g f v hmay (Or.inl rfl)

theorem State.rangeSet_last (hmay : s.mayWrite g.toNat .fw = true) : (s.rangeSet g f v).g (Reg.LEAF_SCL_STEP_LAST f) = bits v.toNat 8 8 :=
  s.rangeSet_field g f v hmay (Or.inr rfl)

end rangeSet

/-! ### The commands -/

section commands

variable {s : State} {g : Byte} {f : Fin 6} {v : Word} (hs : s.held = false) (hj : s.agentJob g.toNat = none)

include hs in
theorem exec_scaleStepDone (f : Fin 6) : exec (.scaleStepDone f) s = .next (s.settle (s.p (Reg.LEAF_SCL_STEP_GO f) 0)) := by
  change execScaleStepDone f s = _
  exact act_next hs

include hs hj

/-- A write while GO reads 1 is ignored (R123). -/
theorem exec_leafSclStep_busy (hgo : s.g (Reg.LEAF_SCL_STEP_GO f) = 1) : exec (.leafSclStep g f v) s = .next (s.settle s.ignore) := by
  change execLeafSclStep g f v s = _
  rw [execLeafSclStep, act_next hs, s.guard_no_job hj, if_pos (by simp [State.on, hgo])]

variable (hmay : s.mayWrite g.toNat .fw = true) (hgo : s.g (Reg.LEAF_SCL_STEP_GO f) = 0)
include hmay hgo

/-- A write of GO while it reads 0 takes FIRST and LAST and ends the step of a range that is not empty. -/
theorem exec_leafSclStep_idle (hbit : v.getLsbD 16 = true) : exec (.leafSclStep g f v) s = .next (s.settle
    (if bits v.toNat 0 8 ≤ bits v.toNat 8 8 then
      ((s.rangeSet g f v).adaptRange f (bits v.toNat 0 8) (bits v.toNat 8 8)).p (Reg.LEAF_SCL_STEP_GO f) 1
    else s.rangeSet g f v)) := by
  change execLeafSclStep g f v s = _
  rw [execLeafSclStep, act_next hs, s.guard_no_job hj, if_neg (by simp [State.on, hgo])]
  dsimp only
  rw [← State.rangeSet, s.rangeSet_first g f v hmay, s.rangeSet_last g f v hmay, hmay, hbit]
  simp only [Bool.true_and, decide_eq_true_eq]

variable {x y : Nat} (hv : v.toNat = 0x10000 + 256 * y + x) (hx : x < 256) (hy : y < 256)
include hv hx hy

/-- The write of GO with FIRST `x` and LAST `y`. -/
theorem exec_leafSclStep_range : exec (.leafSclStep g f v) s = .next (s.settle
    (if x ≤ y then ((s.rangeSet g f v).adaptRange f x y).p (Reg.LEAF_SCL_STEP_GO f) 1 else s.rangeSet g f v)) := by
  have hfirst : bits v.toNat 0 8 = x := by
    rw [bits, Nat.shiftRight_eq_div_pow]
    omega
  have hlast : bits v.toNat 8 8 = y := by
    rw [bits, Nat.shiftRight_eq_div_pow]
    omega
  have hbit : v.getLsbD 16 = true := by
    rw [BitVec.getLsbD, Nat.testBit_eq_decide_div_mod_eq, decide_eq_true_eq]
    omega
  rw [exec_leafSclStep_idle hs hj hmay hgo hbit, hfirst, hlast]

/-- The step of a range that is not empty: its records adapt, GO reads 1, nothing else of memory changes. -/
theorem leafSclStep_adapts_range (hxy : x ≤ y) : ∃ t, exec (.leafSclStep g f v) s = .next t ∧ t.g (Reg.LEAF_SCL_STEP_GO f) = 1 ∧
    (∀ r, x ≤ r ∧ r ≤ y → t.ld (s.sclAt f r) 16 = (adaptRecord (s.ld (s.sclAt f r) 16)).1) ∧ t.fronds = s.fronds ∧
    ∀ a : Nat, (a < s.sclAt f x ∨ s.sclAt f y + 16 ≤ a) → t.ld1 a = s.ld1 a := by
  have hexec := exec_leafSclStep_range hs hj hmay hgo hv hx hy
  rw [if_pos hxy] at hexec
  have hbytes : ∀ a, (s.settle (((s.rangeSet g f v).adaptRange f x y).p (Reg.LEAF_SCL_STEP_GO f) 1)).ld1 a =
      ((s.rangeSet g f v).adaptRange f x y).ld1 a := fun _ => rfl
  refine ⟨_, hexec, ?_, fun r hr => ?_, ?_, fun a ha => ?_⟩
  · rw [State.settle_g, State.g_p_same _ _ _ (sclStepGo_fits f)]
    rfl
  · rw [State.ld_congr fun i _ => hbytes _, ← s.rangeSet_sclAt g f v, State.ld_adaptRange _ f x y hr,
      State.ld_congr fun i _ => s.rangeSet_ld1 g f v _]
  · rw [State.settle_fronds, State.p_fronds, State.adaptRange_fronds, State.rangeSet_fronds]
  · rw [hbytes, State.ld1_adaptRange_other _ f x y (by simpa only [State.rangeSet_sclAt] using ha), State.rangeSet_ld1]

end commands

/-- Settles O42: a range's step by `leafSclStep_adapts_range`, a record's by `sclShift_adaptRecord`, `sclShift_adaptRecord_keeps` and
`adaptRecord_starts_step`. -/
theorem scaleStepsAdaptRecords : Obligations.ScaleStepsAdaptRecords := by
  refine ⟨fun s g f v r hs hj hmay hgo hr hv => ?_, fun s g f v x y hs hj hmay hgo hxy hy hv => ?_,
    fun s g f v x y hs hj hmay hgo hyx hx hv => ?_, fun s g f v hs hj hgo => ?_, fun s f hs => ?_,
    fun r c _ hadapt hcap hmeasured => ?_, fun r _ h => ?_⟩
  · obtain ⟨t, hexec, htgo, hrec, hfronds, hother⟩ := leafSclStep_adapts_range hs hj hmay hgo hv hr hr (Nat.le_refl r)
    exact ⟨t, hexec, htgo, hrec r ⟨Nat.le_refl r, Nat.le_refl r⟩, hfronds, hother⟩
  · obtain ⟨t, hexec, htgo, hrec, -, hother⟩ := leafSclStep_adapts_range hs hj hmay hgo hv (by omega) hy hxy
    exact ⟨t, hexec, htgo, fun r h1 h2 => hrec r ⟨h1, h2⟩, hother⟩
  · have hexec := exec_leafSclStep_range hs hj hmay hgo hv hx (by omega)
    rw [if_neg (by omega)] at hexec
    exact ⟨_, hexec, (State.settle_g ..).trans (s.rangeSet_go g f v), s.rangeSet_mem g f v, s.rangeSet_fronds g f v⟩
  · have hign : (Reg.LEAF_SCL_STEP_GO f).addr ≠ Reg.SYS_WR_IGN_CNT.addr := by
      simp only [Reg.LEAF_SCL_STEP_GO, Reg.SYS_WR_IGN_CNT]
      omega
    refine ⟨_, exec_leafSclStep_busy hs hj hgo, rfl, rfl, ?_, ?_⟩
    · rw [State.settle_g, State.ignore, State.inc, State.g_addc_other _ _ _ _ hign, hgo]
    · rw [State.settle_g, State.ignore, State.inc, State.g_addc_same _ _ _ rfl rfl]
  · refine ⟨_, exec_scaleStepDone hs f, ?_, rfl, rfl, rfl, fun a ha => ?_⟩
    · rw [State.settle_g, State.g_p_same _ _ _ (sclStepGo_fits f), Nat.zero_mod]
    · rw [State.settle_reg, s.reg_p_other _ _ ha]
  · exact ⟨sclShift_adaptRecord hadapt hcap hmeasured, adaptRecord_starts_step r⟩
  · obtain ⟨hmmax, hsat, hovr, -⟩ := adaptRecord_starts_step r
    exact ⟨sclShift_adaptRecord_keeps h, hmmax, hsat, hovr⟩

end Sys2Proof.Machine
end

section
/-!
WFI in the last delay slot of a RETI (R192, R196): the core has left its handler when it goes to sleep, and what wakes it is the IEN
that the return has restored.
-/
namespace Sys2Proof.Machine

open Sys2Proof (CoreRef)

/-- A core at index 9 in a handler, in the last delay slot of its RETI: IEN is 0, the shadow set holds 1 (MBOX), and a word waits in MBI. -/
def returningCore : SigCore :=
  { SigCore.zero with pc := 9, delay := some ⟨1, some 20, 2⟩, shadow := some ⟨20, [], 0, 1, 1⟩, mbi := [7] }

/-- A started device whose frond 0 works for the running receive job 0 and runs that core, every instruction word of which is 0. -/
def returning : State :=
  ((({ State.reset with
      boot := { State.reset.boot with phase := .started, porN := true, warmN := true }
      jobs := State.reset.jobs.set 0 { Job.none with bind := { JobRec.none with valid := true, role := 1, fronds := 1 } }
      fronds := State.reset.fronds.set 0 { Frond.idle with sig := Frond.idle.sig.set 0 returningCore } } : State).setJst 0 1).p
    (Reg.SIG_Cc_STS_STATE 0 0) 1)

/-- MBOX is pending and, once the return has restored IEN, enabled: the core stays awake. -/
theorem returning_wfi_awake : ∃ t, exec (.sigWfi ⟨0, 0⟩ false 0) returning = .next t ∧ (t.core ⟨0, 0⟩).asleep = false :=
  ⟨_, rfl, by decide +kernel⟩

/-- Refutes O38: its clause on WFI has the core sleep unless a pending source is enabled by the IEN before the instruction; in the last
delay slot of a RETI that is the handler's 0, but the sources are looked at under the IEN that the return restores (R196). -/
theorem not_signalCommunicationAndHaltAct : ¬ Obligations.SignalCommunicationAndHaltAct := by
  rintro ⟨-, -, -, -, -, -, -, -, -, -, hwfi⟩
  obtain ⟨t, ht, hasleep, -⟩ := hwfi returning ⟨0, 0⟩ ⟨0⟩ 0 (by decide +kernel) (by decide +kernel) (by decide +kernel)
  obtain ⟨u, hu, hawake⟩ := returning_wfi_awake
  obtain rfl : t = u := Host.Outcome.next.inj (ht.symm.trans hu)
  have hdisabled : ((returning.core ⟨0, 0⟩).pending &&& (returning.core ⟨0, 0⟩).ien == 0#3) = true := by decide +kernel
  exact absurd ((hasleep.trans hdisabled).symm.trans hawake) (by decide)

end Sys2Proof.Machine
end

section
/-!
Re-tiling for a job number that names no job (R153, R317): a spill of it is reported, and nothing remembers that it was.
-/
namespace Sys2Proof.Machine

/-- A started device whose slice ring over frond 0 runs number 16, with stream 3 of that frond in ACC_SHORT. -/
def retiling : State :=
  ({ State.reset with
      boot := { State.reset.boot with phase := .started, porN := true, warmN := true }
      rings := [⟨1, 16, 0, none, false⟩] } : State).p (Reg.STR_Sn_STS_STATE 0 3) 4

/-- A new list without descriptors, with a spill of layer 3: number 16 has no job record to keep the layer in. -/
theorem retiling_spill_forgotten : ∃ t, exec (.tilerRetile 0 3 0 [] (some ⟨3, 2, 500⟩)) retiling = .next t ∧ (t.job 16).spilled = [] :=
  ⟨_, rfl, by decide +kernel⟩

/-- Refutes O44: its last clause takes job numbers below 32, but only those below 16 name a job (R317). A list without descriptors is
written by any number's controller, and the spill that number 16 reports is not kept among its reported layers. -/
theorem not_streamsStartAbortAndFetch : ¬ Obligations.StreamsStartAbortAndFetch := by
  rintro ⟨-, -, -, -, -, -, -, -, -, -, hspill⟩
  obtain ⟨t, ht, -, -, hkept⟩ := hspill retiling 0 3 0 [] ⟨3, 2, 500⟩ 16 (by decide) (by decide +kernel) (by decide +kernel)
    (by decide +kernel) (by decide +kernel)
  obtain ⟨u, hu, hforgotten⟩ := retiling_spill_forgotten
  obtain rfl : t = u := Host.Outcome.next.inj (ht.symm.trans hu)
  exact absurd (hforgotten.symm.trans hkept) (by decide +kernel)

end Sys2Proof.Machine
end

section
/-!
What writes and events leave of the event hold buffer and of memory (R35, R37, R38), and an event that finds one entry still held.
-/
namespace Sys2Proof.Machine

open Sys2Proof (Byte)

/-! ### The hold buffer -/

theorem State.wakeLeaf_hold (s : State) (f k : Nat) : (s.wakeLeaf f k).hold = s.hold := by
  unfold State.wakeLeaf
  split <;> rfl

theorem State.wakeBank_hold (s : State) (b : Nat) : (s.wakeBank b).hold = s.hold := by
  unfold State.wakeBank
  split <;> rfl

/-- A store at run time leaves the held events. -/
@[simp] theorem State.store_hold (s : State) (a : Nat) (bs : List Byte) : (s.store a bs).hold = s.hold := by
  have hw : (s.wakeRange a bs.length).hold = s.hold :=
    State.wakeRange_keeps (P := fun t => t.hold = s.hold) (fun t f k h => (t.wakeLeaf_hold f k).trans h)
      (fun t b h => (t.wakeBank_hold b).trans h) rfl a bs.length
  unfold State.store
  split <;> simp [hw]

/-! ### An event after a held one -/

theorem eventEntry_length (code src job seq tdom : Nat) (t : Sys2Proof.FullTime) (arg : Nat) :
    (eventEntry code src job seq tdom t arg).length = 32 := by
  simp [eventEntry]

/-- An entry that enters the ring is stored at WR_IDX (R37). -/
theorem State.ringWrite_room {s : State} {w r : Nat} (hw : s.g Reg.SYS_EVR_WR_IDX = w) (hr : s.g Reg.SYS_EVR_RD_IDX = r)
    (h : (w + 4096 - r) % 4096 ≠ 4095) (e : List Byte) :
    s.ringWrite e = (s.st (s.ringBase + 32 * w) e).p Reg.SYS_EVR_WR_IDX ((w + 1) % 4096) := by
  unfold State.ringWrite
  rw [hw, hr]
  exact if_neg h

/-- A held entry and a new one enter an empty ring in this order: of the held one, what reaches past the new one's place stays. -/
theorem State.ld1_ringWrite_two {s : State} (hw : s.g Reg.SYS_EVR_WR_IDX = 0) (hr : s.g Reg.SYS_EVR_RD_IDX = 0) {h e : List Byte} {i : Nat}
    (he : e.length = 32) (hi : 64 ≤ i) (hlen : i < h.length) : ((s.ringWrite h).ringWrite e).ld1 (s.ringBase + i) = h[i] := by
  have hstep := State.ringWrite_room hw hr (by decide) h
  have hw' : (s.ringWrite h).g Reg.SYS_EVR_WR_IDX = 1 := by
    rw [hstep, State.g_p_same _ _ _ (by decide)]
    rfl
  have hr' : (s.ringWrite h).g Reg.SYS_EVR_RD_IDX = 0 := by
    rw [hstep, State.g_p_other _ _ _ _ (by decide)]
    exact hr
  have hbase : (s.ringWrite h).ringBase = s.ringBase := by
    rw [hstep, State.ringBase, State.g_p_other _ _ _ _ (by decide)]
    rfl
  calc ((s.ringWrite h).ringWrite e).ld1 (s.ringBase + i)
      = ((s.ringWrite h).st (s.ringBase + 32) e).ld1 (s.ringBase + i) := by
        rw [State.ringWrite_room hw' hr' (by decide) e, hbase]
        rfl
    _ = (s.ringWrite h).ld1 (s.ringBase + i) := State.ld1_st_other _ (by omega)
    _ = (s.st s.ringBase h).ld1 (s.ringBase + i) := by
        rw [hstep]
        rfl
    _ = h[i] := s.ld1_st_same _ i h hlen

/-- An event that finds the ring ready and empty with one entry held: what that entry holds past the first 64 bytes is in memory. -/
theorem State.ld1_raise_held {s : State} {h : List Byte} (hready : s.ringReady = true) (hhold : s.hold = [h])
    (hw : s.g Reg.SYS_EVR_WR_IDX = 0) (hr : s.g Reg.SYS_EVR_RD_IDX = 0) {i : Nat} (hi : 64 ≤ i) (hlen : i < h.length)
    (code src job arg : Nat) : (s.raise code src job arg).ld1 (s.ringBase + i) = h[i] := by
  unfold State.raise
  dsimp only
  generalize hs1 : (if journalled code = true then _ else s.p Reg.SYS_EVR_SEQ _) = s1
  have hg : ∀ F : Fld, F.addr ≠ Reg.SYS_EVR_SEQ.addr → s1.g F = s.g F := fun F hF => by
    subst hs1
    split <;> exact State.g_p_other _ _ _ _ hF
  have hbase : s1.ringBase = s.ringBase := by rw [State.ringBase, hg _ (by decide), State.ringBase]
  have hbank : s1.mems = s.mems := by
    subst hs1
    split <;> rfl
  have hready1 : s1.ringReady = true := by
    rw [← hready, State.ringReady, State.on, hg _ (by decide), hbase, State.bank, hbank]
    rfl
  have hhold1 : s1.hold = [h] := by
    subst hs1
    split <;> exact hhold
  have hflush : s1.flushHold = ({ s1 with hold := [] } : State).ringWrite h := by
    rw [State.flushHold, if_pos hready1, hhold1]
    rfl
  have hbyte : ∀ e : List Byte, e.length = 32 → (s1.flushHold.ringWrite e).ld1 (s.ringBase + i) = h[i] := fun e he => by
    rw [hflush, ← hbase]
    exact State.ld1_ringWrite_two (s := { s1 with hold := [] }) ((hg _ (by decide)).trans hw) ((hg _ (by decide)).trans hr) he hi hlen
  rw [if_pos hready1]
  split
  · split <;> exact hbyte _ (eventEntry_length ..)
  · exact hbyte _ (eventEntry_length ..)

end Sys2Proof.Machine
end

section
/-!
A drain whose values saturate, with one event still held: what it writes before it reports, and which memory the report leaves (R117 to
R121, R155).
-/
namespace Sys2Proof.Machine

open Sys2Proof (Byte)

/-! ### Issue -/

@[simp] theorem State.modStrm_hold (s : State) (f : Fin 6) (n : Fin 32) (g : Stream → Stream) : (s.modStrm f n g).hold = s.hold :=
  State.modFr_hold ..

@[simp] theorem State.setStrSt_hold (s : State) (f : Fin 6) (n : Fin 32) (c : Nat) : (s.setStrSt f n c).hold = s.hold := by
  unfold State.setStrSt
  dsimp only
  split <;> simp only [State.modStrm_hold, State.p_hold]

theorem State.semSet_hold (s : State) (f k : Nat) (free : Bool) (v : Nat) : (s.semSet f k free v).hold = s.hold := by
  unfold State.semSet
  split
  · exact State.p_hold ..
  · exact State.store_hold ..

theorem State.semTake_hold (s : State) (f k : Nat) (free : Bool) (n : Nat) : ((s.semTake f k free n).getD s).hold = s.hold := by
  unfold State.semTake
  dsimp only
  split
  · rfl
  · split
    · rfl
    · exact s.semSet_hold ..

/-- The state in which a stream's head descriptor has left it and the stream is the one served last (R138, R162). -/
def State.headIssued (s : State) (f : Fin 6) (n : Fin 32) (pos : Nat) (d : BitVec 256) : State :=
  (s.popHead f n pos d).modFr f (fun x => { x with served := n.val })

/-- Issuing a descriptor leaves the held events. -/
theorem State.headIssued_hold (s : State) (f : Fin 6) (n : Fin 32) (pos : Nat) (d : BitVec 256) :
    (s.headIssued f n pos d).hold = s.hold := by
  unfold State.headIssued State.popHead
  rw [State.modFr_hold, State.p_hold, State.modStrm_hold, State.setStrSt_hold]
  split
  · rfl
  · exact s.semTake_hold ..

/-- A descriptor that may issue, with the conditions of its kind met, issues. -/
theorem State.issue_go {s : State} {f : Fin 6} {n : Fin 32} {kind j pos : Nat} {d : BitVec 256} (h : s.issues f n kind j pos d)
    (hgate : s.gateOf f n j d = .go) (body : State → Nat → Nat → BitVec 256 → State) :
    s.issue f n [kind] body = body (s.headIssued f n pos d) j pos d := by
  obtain ⟨-, hhead, hstatic, hturn, hlbar, hroom, hsem⟩ := h
  have hbar : (dLbar d && !(s.strm f n).flight.isEmpty) = false := by
    cases hd : dLbar d
    · rfl
    · simp [hlbar hd]
  unfold State.issue
  rw [hhead]
  dsimp only
  rw [if_neg (by simp [hturn]), if_neg (by simp [hstatic]), if_neg (by simp [hbar]), if_neg (by omega), if_neg (by simp [hsem]), hgate]
  rfl

/-! ### A region that saturates -/

/-- The rows of a drained region, converted (R117). -/
def State.drainOut (s : State) (f : Fin 6) (o : OutFmt) (rec : Nat) (g : Region3) (rows cols csum : Nat) : List (List DrainElem × List Int) :=
  (List.range rows).map (fun i => drainRow o (sclShift (s.scl f rec)) ((List.range cols).map (fun c => s.drainValue f g csum none i c)))

/-- The state with the rows written, the record marked as overrun, and saturations and NaNs counted (R120, R121, R155). -/
def State.drainWrites (s : State) (f : Fin 6) (o : OutFmt) (rec dst pitch : Nat) (out : List (List DrainElem × List Int)) : State :=
  let d := drainSum (out.flatMap (·.1))
  let t := out.zipIdx.foldl (fun t e => t.drainStore f o (dst + e.2 * pitch) e.1) s
  ((t.store (t.sclAt f rec) (recordAfter o (t.scl f rec) d true)).addc (Reg.LEAF_SAT_CNT f) d.sat).addc (Reg.LEAF_NAN_CNT f) d.nan

/-- Updates that leave the held events, made one after the other, leave them. -/
theorem foldl_hold {α : Type} (g : State → α → State) (h : ∀ s x, (g s x).hold = s.hold) (l : List α) (s : State) :
    (l.foldl g s).hold = s.hold :=
  List.foldlRecOn l g (motive := fun t : State => t.hold = s.hold) rfl fun t ht x _ => (h t x).trans ht

theorem State.unmapped_hold (s : State) (agent a : Nat) (w : Bool) : (s.unmapped agent a w).hold = s.hold := by
  simp only [State.unmapped_eq, State.p_hold, State.inc_hold]

theorem shiftStores_hold (f fmt a step : Nat) (l : List (Int × Nat)) (s : State) :
    (l.foldl (fun t x => t.store (t.shiftAt f fmt (a + step * x.2)) [BitVec.ofInt 8 x.1]) s).hold = s.hold := by
  induction l generalizing s with
  | nil => rfl
  | cons x l ih => rw [List.foldl_cons, ih, State.store_hold]

theorem State.drainStore_hold (s : State) (f : Fin 6) (o : OutFmt) (a : Nat) (e : List DrainElem × List Int) :
    (s.drainStore f o a e).hold = s.hold := by
  unfold State.drainStore
  dsimp only
  split
  · rw [State.unmapped_hold]
  · rw [shiftStores_hold, State.store_hold]

theorem State.drainWrites_hold (s : State) (f : Fin 6) (o : OutFmt) (rec dst pitch : Nat) (out : List (List DrainElem × List Int)) :
    (s.drainWrites f o rec dst pitch out).hold = s.hold := by
  unfold State.drainWrites
  dsimp only
  rw [State.addc_hold, State.addc_hold, State.store_hold, foldl_hold _ (fun t x => t.drainStore_hold ..)]

/-- A mark of an allocation leaves memory. -/
@[simp] theorem State.markAlloc_mem (s : State) (tag bit_ : Nat) : (s.markAlloc tag bit_).mem = s.mem := by
  unfold State.markAlloc
  split
  · rfl
  · split <;> rfl

@[simp] theorem State.addFlight_mem (s : State) (f : Fin 6) (n : Fin 32) (x : Flight) : (s.addFlight f n x).mem = s.mem :=
  State.modFr_mem ..

/-- A region of which more than 1 in 256 elements saturate: its writes, then EV_OVERRUN (R121). -/
theorem State.drainRegion_overrun {s : State} {f : Fin 6} {o : OutFmt} {rec : Nat} {g : Region3} {rows cols csum : Nat}
    (h : rows * cols < (drainSum ((s.drainOut f o rec g rows cols csum).flatMap (·.1))).sat * 256) (tag dst pitch : Nat) :
    ∃ job arg, (s.drainRegion f o rec tag g rows cols dst pitch csum none []).mem =
      (((s.drainWrites f o rec dst pitch (s.drainOut f o rec g rows cols csum)).inc (Reg.LEAF_OVERRUN_CNT f)).raise
        0x0101 (unitSrc f 0) job arg).mem := by
  have hwide : (decide (rows * cols < (drainSum ((s.drainOut f o rec g rows cols csum).flatMap (·.1))).sat * 256) ||
      !([] : List (Nat × Nat)).isEmpty) = true := by simp [h]
  unfold State.drainRegion
  dsimp only
  rw [← State.drainOut, hwide, if_pos rfl]
  exact ⟨_, _, State.markAlloc_mem ..⟩

/-- A drain that neither combines, corrects nor releases, with a sound record and sound cells: its region's conversion is all that it
makes of memory (R155). -/
theorem State.drainBody_mem {s : State} {f : Fin 6} {d : BitVec 256} {o : OutFmt} (hrec : s.recordBad f d = 0)
    (hmix : s.drainMix f d = none) (hpoison : s.drainPoison f d = false) (hfmt : outFmt (sclFmt (s.scl f (dfield d 96 8))) = some o)
    (hflags : dbit d 91 = false ∧ dbit d 92 = false ∧ dbit d 93 = false) (n : Fin 32) (pos : Nat) :
    (s.drainBody f n pos d).mem = (s.drainRegion f o (dfield d 96 8) (dfield d 112 16) (drainMain d) (drainRows d) (drainCols d)
      (32 * dfield d 128 18) (32 * dfield d 146 12) (64 * dfield d 160 17) none
      (s.wideTiles f (drainRegions d) (drainRows d) (drainCols d))).mem := by
  obtain ⟨hfree, hzp, hcomb⟩ := hflags
  unfold State.drainBody
  dsimp only
  rw [if_neg (by simp [hrec]), hmix]
  dsimp only
  rw [if_neg (by simp [hpoison]), hfmt, hfree, hzp, hcomb]
  simp only [Bool.false_eq_true, if_false, State.addFlight_mem]
  split
  · rw [State.markAlloc_mem]
  · rfl

theorem exec_drain {s : State} (h : s.held = false) (f : Fin 6) (n : Fin 32) :
    exec (.drain f n) s = .next (s.settle (s.issue f n [3] (fun s _ pos d => s.drainBody f n pos d))) := by
  change execDrain f n s = _
  exact act_next h

/-! ### The held entry that reaches the leaf store -/

/-- A held event of any length: an entry of R33 has 32 bytes, but the state bounds only how many are held (R38), not how long one is. -/
@[irreducible] def longEntry (n : Nat) : List Byte := List.replicate n 1

theorem longEntry_length (n : Nat) : (longEntry n).length = n := by
  unfold longEntry
  exact List.length_replicate ..

theorem longEntry_getElem {n i : Nat} (h : i < (longEntry n).length) : (longEntry n)[i] = 1 := by
  have hmem := List.getElem_mem h
  unfold longEntry at hmem
  unfold longEntry
  exact List.eq_of_mem_replicate hmem

/-- DRAIN of the first 4 rows and 8 columns of tile 0 under record 1 to leaf offset 0x800, a row every 32 bytes. -/
def floodDrain : BitVec 256 := BitVec.ofNat 256 (3 + 3 * 2 ^ 79 + 7 * 2 ^ 85 + 2 ^ 96 + 0xFFFF * 2 ^ 112 + 64 * 2 ^ 128 + 2 ^ 146)

/-- A started device whose event ring is ready in bank 1023, where it lies at reset, with an event of 4 GiB held, and whose frond 0 works
for the running job 0: stream 3 is in RUN with that DRAIN at its head, tile 0 is READY, and its second element is 512, which INT8 cannot
hold. -/
def flooding : State :=
  (((({ State.reset with
      boot := { State.reset.boot with phase := .started, porN := true, warmN := true }
      jobs := State.reset.jobs.set 0 { Job.none with bind := { JobRec.none with valid := true, role := 1, fronds := 1 } }
      fronds := State.reset.fronds.set 0 { Frond.idle with
        streams := Frond.idle.streams.set 3 { Stream.idle with fetched := [(5, floodDrain)], next := 6 } }
      mem := [(leafBase 0 + 0x600005, 2)]
      mems := ⟨[(1023, 1)], [], [], []⟩
      hold := [longEntry (2 ^ 32)] } : State).setJst 0 1).p Reg.SYS_EVR_BASE_SET 1).p (Reg.STR_Sn_STS_STATE 0 3) 1).p (Reg.STR_TILEt_STATE 0 0) 2

theorem flooding_issues : flooding.issues 0 3 3 0 5 floodDrain := by decide +kernel

theorem flooding_gate : flooding.drainGate 0 floodDrain = .go := by decide +kernel

theorem flooding_gateOf : flooding.gateOf 0 3 0 floodDrain = .go := by decide +kernel

/-- The drain's state at issue. -/
def draining : State := flooding.headIssued 0 3 5 floodDrain

/-- What the drain has written when it reports its overrun. -/
def drained : State :=
  (draining.drainWrites 0 (.int 8 false) 1 0x800 32 (draining.drainOut 0 (.int 8 false) 1 ⟨0, 0, 0⟩ 4 8 0)).inc (Reg.LEAF_OVERRUN_CNT (0 : Fin 6))

theorem draining_plain : draining.recordBad 0 floodDrain = 0 ∧ draining.drainMix 0 floodDrain = none ∧
    draining.drainPoison 0 floodDrain = false ∧ outFmt (sclFmt (draining.scl 0 (dfield floodDrain 96 8))) = some (.int 8 false) ∧
    draining.wideTiles 0 (drainRegions floodDrain) (drainRows floodDrain) (drainCols floodDrain) = [] := by
  decide +kernel

theorem draining_saturates : 4 * 8 < (drainSum ((draining.drainOut 0 (.int 8 false) 1 ⟨0, 0, 0⟩ 4 8 0).flatMap (·.1))).sat * 256 := by
  decide +kernel

theorem drained_ring : drained.ringReady = true ∧ drained.g Reg.SYS_EVR_WR_IDX = 0 ∧ drained.g Reg.SYS_EVR_RD_IDX = 0 ∧
    drained.ringBase + 0xF081FFFF = leafBase 0 + 0x7FFFFF := by
  decide +kernel

theorem drained_hold : drained.hold = [longEntry (2 ^ 32)] := by
  rw [drained, State.inc_hold, State.drainWrites_hold, draining, State.headIssued_hold]
  rfl

/-- The drain's memory is that of an event on what it has written. -/
theorem flooding_drain_mem : ∃ job arg, (draining.drainBody 0 3 5 floodDrain).mem = (drained.raise 0x0101 (unitSrc (0 : Fin 6) 0) job arg).mem := by
  obtain ⟨hrec, hmix, hpoison, hfmt, hwide⟩ := draining_plain
  obtain ⟨job, arg, hregion⟩ := State.drainRegion_overrun draining_saturates (dfield floodDrain 112 16) 0x800 32
  have hbody := State.drainBody_mem hrec hmix hpoison hfmt (by decide +kernel) 3 5
  rw [hwide] at hbody
  exact ⟨job, arg, hbody.trans hregion⟩

/-- The last byte of the leaf store of frond 0 then holds a byte of the held event. -/
theorem flooding_leaf_byte : ∃ t, exec (.drain 0 3) flooding = .next t ∧ t.ld1 (leafBase 0 + 0x7FFFFF) = 1 := by
  obtain ⟨hready, hwr, hrd, hbase⟩ := drained_ring
  obtain ⟨job, arg, hmem⟩ := flooding_drain_mem
  have hlen : 0xF081FFFF < (longEntry (2 ^ 32)).length := by rw [longEntry_length]; decide
  have hbyte := State.ld1_raise_held hready drained_hold hwr hrd (by decide) hlen 0x0101 (unitSrc (0 : Fin 6) 0) job arg
  refine ⟨_, exec_drain (by decide +kernel) 0 3, ?_⟩
  rw [State.issue_go flooding_issues flooding_gateOf, State.ld1, State.settle_mem, ← draining, hmem, ← State.ld1]
  rw [hbase] at hbyte
  exact hbyte.trans (longEntry_getElem _)

/-- Refutes O43: its clause on DRAIN has no other byte of the leaf store change, but a drain that saturates raises EV_OVERRUN, which first
writes the events still held to the ring (R38). The statement takes every state, also one that holds an event of 4 GiB, and such an event
reaches from the ring across the leaf store. -/
theorem not_loopsDrainsAndTileMovesAct : ¬ Obligations.LoopsDrainsAndTileMovesAct := by
  rintro ⟨-, -, hdrain, -⟩
  obtain ⟨hrec, hmix, hpoison, hfmt⟩ : flooding.recordBad 0 floodDrain = 0 ∧ flooding.drainMix 0 floodDrain = none ∧
      flooding.drainPoison 0 floodDrain = false ∧ outFmt (sclFmt (flooding.scl (0 : Fin 6) (dfield floodDrain 96 8))) = some (.int 8 false) := by
    decide +kernel
  obtain ⟨t, ht, -, -, -, hkept⟩ := hdrain flooding 0 3 0 5 0x800 32 floodDrain (.int 8 false) flooding_issues flooding_gate hrec hmix
    hpoison hfmt (by decide +kernel) (by decide +kernel) (by decide +kernel) (by decide +kernel) (by decide +kernel) (by decide)
  obtain ⟨u, hu, hwritten⟩ := flooding_leaf_byte
  obtain rfl : t = u := Host.Outcome.next.inj (ht.symm.trans hu)
  have hbefore : flooding.ld1 (leafBase 0 + 0x7FFFFF) = 0 := by decide +kernel
  have hafter := hkept (leafBase 0 + 0x7FFFFF) (by decide +kernel) (by decide +kernel) (by decide +kernel) (by decide +kernel)
  exact absurd ((hwritten.symm.trans hafter).trans hbefore) (by decide)

end Sys2Proof.Machine
end
